-- ==== Sys2Proof/Word.lean ====
section
/-! DEFINITION. The word types of Keaxis and their plainest arithmetic (spec/00_scope.md R3, R5). -/

namespace Sys2Proof

/-- One byte. -/
abbrev Byte := BitVec 8

/-- The 64-bit word of the general registers, pointers and control registers (R8). -/
abbrev Word := BitVec 64

/-- One 512-bit vector register (R8). -/
abbrev V512 := BitVec 512

/-- A field of a word: `len` bits from bit `lo` (R3, `x[lo+len-1:lo]`). -/
abbrev fld {n : Nat} (x : BitVec n) (lo len : Nat) : BitVec len := x.extractLsb' lo len

/-- The same field as a natural number. -/
abbrev fldN {n : Nat} (x : BitVec n) (lo len : Nat) : Nat := (x.extractLsb' lo len).toNat

end Sys2Proof
end

