-- ==== Sys2Proof/Machine/Crypto.lean ====
section
/-! DEFINITION. The published functions that spec/22_confidential_code.md and spec/23_host_fabric_partitions.md name: AES-256 in
Galois/counter mode (R351, R375, R378, R379, R400) and in XTS mode (R368, R373, R374), SHA-256 (R382, R383) and CRC-32 (R399), on lists of bytes. -/

namespace Sys2Proof.Machine

/-! ### AES-256 -/

/-- The substitution box, entry i in bits 8 i + 7 to 8 i. -/
def aesBox : Nat :=
    0x16bb54b00f2d99416842e6bf0d89a18cdf2855cee9871e9b948ed9691198f8e1 * 2 ^ 1792 +
    0x9e1dc186b95735610ef6034866b53e708a8bbd4b1f74dde8c6b4a61c2e2578ba * 2 ^ 1536 +
    0x08ae7a65eaf4566ca94ed58d6d37c8e779e4959162acd3c25c2406490a3a32e0 * 2 ^ 1280 +
    0xdb0b5ede14b8ee4688902a22dc4f816073195d643d7ea7c41744975fec130ccd * 2 ^ 1024 +
    0xd2f3ff1021dab6bcf5389d928f40a351a89f3c507f02f94585334d43fbaaefd0 * 2 ^ 768 +
    0xcf584c4a39becb6a5bb1fc20ed00d153842fe329b3d63b52a05a6e1b1a2c8309 * 2 ^ 512 +
    0x75b227ebe28012079a059618c323c7041531d871f1e5a534ccf73f362693fdb7 * 2 ^ 256 +
    0xc072a49cafa2d4adf04759fa7dc982ca76abd7fe2b670130c56f6bf27b777c63 * 2 ^ 0

/-- A byte substituted. -/
def aesSub (b : Byte) : Byte := BitVec.ofNat 8 (aesBox >>> (8 * b.toNat))

/-- A byte doubled in the field. -/
def xtime (b : Byte) : Byte := if b.getLsbD 7 then (b <<< 1) ^^^ 0x1B else b <<< 1

/-- Two lists of bytes combined bytewise. -/
def xorBytes (a b : List Byte) : List Byte := List.zipWith (· ^^^ ·) a b

/-- The words (of four bytes) of the key schedule, last first, from eight words on: n more words, rc the round constant. -/
def aesExpand : Nat → Nat → Byte → List (List Byte) → List (List Byte)
  | 0, _, _, ws => ws
  | n + 1, i, rc, ws =>
    let t := ws.headD []
    let (t, rc) :=
      if i % 8 = 0 then
        let u := (t.drop 1 ++ t.take 1).map aesSub
        (match u with
          | a :: r => (a ^^^ rc) :: r
          | [] => [], xtime rc)
      else if i % 8 = 4 then (t.map aesSub, rc)
      else (t, rc)
    aesExpand n (i + 1) rc (xorBytes (ws.getD 7 []) t :: ws)

/-- A list cut in pieces of n, at most fuel of them. -/
def pieces {α : Type} (n : Nat) : Nat → List α → List (List α)
  | 0, _ => []
  | f + 1, l => if l.isEmpty then [] else l.take n :: pieces n f (l.drop n)

/-- The fifteen round keys of a 32-byte key. -/
def aesKeys (key : List Byte) : List (List Byte) :=
  (pieces 4 15 ((aesExpand 52 8 1 (pieces 4 8 key).reverse).reverse)).map List.flatten

/-- The rows of the state shifted. -/
def aesShift (s : List Byte) : List Byte :=
  (List.range 16).map (fun i => s.getD ((i + 4 * (i % 4)) % 16) 0)

/-- One column mixed. -/
def aesMix : List Byte → List Byte
  | [a, b, c, d] =>
    let t := a ^^^ b ^^^ c ^^^ d
    [a ^^^ t ^^^ xtime (a ^^^ b), b ^^^ t ^^^ xtime (b ^^^ c), c ^^^ t ^^^ xtime (c ^^^ d), d ^^^ t ^^^ xtime (d ^^^ a)]
  | l => l

/-- The rounds after the first key addition; the last mixes no column. -/
def aesRounds : List (List Byte) → List Byte → List Byte
  | [], s => s
  | [k], s => xorBytes (aesShift (s.map aesSub)) k
  | k :: ks, s => aesRounds ks (xorBytes ((pieces 4 4 (aesShift (s.map aesSub))).flatMap aesMix) k)

/-- AES-256 of a 16-byte block under round keys. -/
def aesBlock (ks : List (List Byte)) (b : List Byte) : List Byte :=
  match ks with
  | [] => b
  | k :: ks => aesRounds ks (xorBytes b k)

/-- A function three times over: the rows' shift and the columns' mixing have order four, so that this undoes them. -/
def thrice {α : Type} (f : α → α) (x : α) : α := f (f (f x))

/-- The byte that is substituted by a given one. -/
def aesUnsub (b : Byte) : Byte := BitVec.ofNat 8 (((List.range 256).find? (fun i => aesSub (BitVec.ofNat 8 i) == b)).getD 0)

/-- The rounds undone, once the last round's key is off; keys last first. -/
def aesUnrounds : List (List Byte) → List Byte → List Byte
  | [], s => s
  | k :: ks, s =>
    let t := xorBytes ((thrice aesShift s).map aesUnsub) k
    aesUnrounds ks (if ks.isEmpty then t else (pieces 4 4 t).flatMap (thrice aesMix))

/-- AES-256 decryption of a 16-byte block under round keys. -/
def aesUnblock (ks : List (List Byte)) (b : List Byte) : List Byte :=
  match ks.reverse with
  | [] => b
  | k :: ks => aesUnrounds ks (xorBytes b k)

/-! ### XTS mode -/

/-- The tweak of the block after one: doubled, the first byte the least significant. -/
def xtsNext (t : Nat) : Nat := 2 * t % 2 ^ 128 ^^^ (if t.testBit 127 then 0x87 else 0)

/-- Blocks each under its tweak, through a block function. -/
def xtsBlocks (f : List Byte → List Byte) : Nat → List (List Byte) → List Byte
  | _, [] => []
  | t, b :: bs =>
    let w := (List.range 16).map (fun i => BitVec.ofNat 8 (t >>> (8 * i)))
    xorBytes (f (xorBytes b w)) w ++ xtsBlocks f (xtsNext t) bs

/-- Whole blocks under a 64-byte key, data half first, at a data unit number: through a block function of the data key. -/
def xts (f : List (List Byte) → List Byte → List Byte) (key : List Byte) (unit : Nat) (bs : List Byte) : List Byte :=
  let n := (List.range 16).map (fun i => BitVec.ofNat 8 (unit >>> (8 * i)))
  let t := (aesBlock (aesKeys (key.drop 32)) n).foldr (fun b a => b.toNat + 256 * a) 0
  xtsBlocks (f (aesKeys (key.take 32))) t (pieces 16 bs.length bs)

/-- AES-256-XTS encryption. -/
def xtsSeal (key : List Byte) (unit : Nat) (pt : List Byte) : List Byte := xts aesBlock key unit pt
/-- AES-256-XTS decryption. -/
def xtsOpen (key : List Byte) (unit : Nat) (ct : List Byte) : List Byte := xts aesUnblock key unit ct

/-! ### Galois/counter mode -/

/-- Bytes as a number, the first byte most significant. -/
def beNat (l : List Byte) : Nat := l.foldl (fun a b => 256 * a + b.toNat) 0
/-- A number as n bytes, the first most significant. -/
def beBytes (n x : Nat) : List Byte := (List.range n).map (fun i => BitVec.ofNat 8 (x >>> (8 * (n - 1 - i))))

/-- The product of GCM's field: bit 127 is the first bit. -/
def gmulFrom : Nat → BitVec 128 → BitVec 128 → BitVec 128 → BitVec 128
  | 0, _, _, z => z
  | i + 1, x, v, z =>
    let z := if x.getLsbD i then z ^^^ v else z
    let v := if v.getLsbD 0 then (v >>> 1) ^^^ 0xE1000000000000000000000000000000 else v >>> 1
    gmulFrom i x v z

/-- GHASH over blocks. -/
def ghash (h : BitVec 128) (blocks : List (List Byte)) : BitVec 128 :=
  blocks.foldl (fun y b => gmulFrom 128 (y ^^^ BitVec.ofNat 128 (beNat (b ++ List.replicate (16 - b.length) 0))) h 0) 0

/-- The keystream of GCM over data, from counter n on. -/
def ctrXor (ks : List (List Byte)) (iv : List Byte) : Nat → List (List Byte) → List Byte
  | _, [] => []
  | n, b :: t => xorBytes b (aesBlock ks (iv ++ beBytes 4 n)) ++ ctrXor ks iv (n + 1) t

/-- The tag of GCM over additional data and ciphertext, with a 12-byte IV. -/
def gcmTag (ks : List (List Byte)) (iv aad ct : List Byte) : List Byte :=
  let h := BitVec.ofNat 128 (beNat (aesBlock ks (List.replicate 16 0)))
  let lens := beBytes 8 (8 * aad.length) ++ beBytes 8 (8 * ct.length)
  let y := ghash h (pieces 16 aad.length aad ++ pieces 16 ct.length ct ++ [lens])
  xorBytes (beBytes 16 y.toNat) (aesBlock ks (iv ++ beBytes 4 1))

/-- AES-256-GCM encryption: ciphertext and tag. -/
def gcmSeal (key iv aad pt : List Byte) : List Byte × List Byte :=
  let ks := aesKeys key
  let ct := ctrXor ks iv 2 (pieces 16 pt.length pt)
  (ct, gcmTag ks iv aad ct)

/-- AES-256-GCM decryption: the plaintext, if the tag verifies. -/
def gcmOpen (key iv aad ct tag : List Byte) : Option (List Byte) :=
  let ks := aesKeys key
  if gcmTag ks iv aad ct = tag then some (ctrXor ks iv 2 (pieces 16 ct.length ct)) else none

/-! ### SHA-256 -/

/-- The greatest r below lo + 2^n with r^k at most x, where lo has it: one bit of r at a time. -/
def rootFrom (k x : Nat) : Nat → Nat → Nat
  | 0, lo => lo
  | n + 1, lo => rootFrom k x n (if (lo + 2 ^ n) ^ k ≤ x then lo + 2 ^ n else lo)

/-- The first 32 bits of the fraction of the k-th root of p, for p below 2^(4k). -/
def rootFraction (k p : Nat) : BitVec 32 := BitVec.ofNat 32 (rootFrom k (p * 2 ^ (32 * k)) 36 0)

/-- The first n primes from p on, found among the next numbers, where ps holds every prime below p. -/
def primesFrom : Nat → Nat → List Nat → List Nat
  | 0, _, ps => ps
  | f + 1, p, ps => primesFrom f (p + 1) (if ps.any (fun q => p % q == 0) then ps else ps ++ [p])

/-- The 64 primes up to 311. -/
def shaPrimes : List Nat := primesFrom 310 2 []

/-- The message schedule in a window of sixteen words, oldest first: n rounds, each of which takes the oldest word with its prime's
constant and puts a new word at the end. -/
def shaRounds : List Nat → List (BitVec 32) → List (BitVec 32) → List (BitVec 32)
  | p :: ps, w0 :: w, [a, b, c, d, e, f, g, h] =>
    let turn (x : BitVec 32) (n : Nat) : BitVec 32 := x.rotateRight n
    let pick := g ^^^ (e &&& (f ^^^ g))
    let most := (a &&& (b ||| c)) ||| (b &&& c)
    let t := h + pick + rootFraction 3 p + w0 + (turn e 6 ^^^ turn e 11 ^^^ turn e 25)
    let x := w.getD 0 0
    let y := w.getD 13 0
    let next := w0 + w.getD 8 0 + (turn x 7 ^^^ turn x 18 ^^^ x >>> 3) + (turn y 17 ^^^ turn y 19 ^^^ y >>> 10)
    shaRounds ps (w ++ [next]) [t + most + (turn a 2 ^^^ turn a 13 ^^^ turn a 22), a, b, c, d + t, e, f, g]
  | _, _, v => v

/-- A block of 64 bytes added to the hash. -/
def shaBlock (v : List (BitVec 32)) (block : List Byte) : List (BitVec 32) :=
  List.zipWith (· + ·) v (shaRounds shaPrimes ((pieces 4 16 block).map (fun x => BitVec.ofNat 32 (beNat x))) v)

/-- SHA-256 (R382, R383): the message closed by a one bit, zeros and its length in bits, from the square roots of the first eight
primes on. -/
def sha256 (m : List Byte) : List Byte :=
  let closed := m ++ (0x80 : Byte) :: List.replicate ((119 - m.length % 64) % 64) 0 ++ beBytes 8 (8 * m.length)
  let start := (shaPrimes.take 8).map (rootFraction 2)
  ((pieces 64 closed.length closed).foldl shaBlock start).flatMap (fun x => beBytes 4 x.toNat)

/-! ### CRC-32 -/

/-- One bit of the reflected CRC-32. -/
def crcBit (c : BitVec 32) : BitVec 32 := if c.getLsbD 0 then (c >>> 1) ^^^ 0xEDB88320 else c >>> 1

/-- CRC-32 (R399 names it without its parameters: those of IEEE 802.3 are presumed, log 12). -/
def crc32 (m : List Byte) : BitVec 32 :=
  ~~~(m.foldl (fun c b => crcBit (crcBit (crcBit (crcBit (crcBit (crcBit (crcBit (crcBit (c ^^^ b.setWidth 32))))))))) (~~~(0 : BitVec 32)))

end Sys2Proof.Machine
end

