-- ==== Sys2Proof/Syntax.lean ====
section
/-! DEFINITION. The syntax of Keaxis: register and field types, and the one inductive Instr with a constructor per row of
the table of steps (spec/03_encoding.md R73 to R85; spec/95_what_each_step_holds.md for the steps of the device). -/

namespace Sys2Proof

/-- A register number of the g or f file (R73: five bits). -/
abbrev Reg := BitVec 5
/-- A register number of the v file (R73: six bits). -/
abbrev VReg := BitVec 6
/-- A tile k0 to k15 (R76). -/
abbrev Tile := BitVec 4
/-- An accumulator a0 to a3 (R76). -/
abbrev Acc := BitVec 2
/-- An orthogonal accumulator q0 or q1 (R76). -/
abbrev QReg := BitVec 1
/-- A counter c0 to c63 (R165). -/
abbrev Cnt := BitVec 6
/-- A cluster barrier number (R179). -/
abbrev BarNo := BitVec 4
/-- A stream port (R232). -/
abbrev PortNo := BitVec 2

/-- The rounding modes of R47. -/
inductive RM | rne | rtz | rdn | rup | rna | rsr
  deriving DecidableEq, Repr

/-- The rounding code of R47. -/
def RM.code : RM → BitVec 3
  | .rne => 0 | .rtz => 1 | .rdn => 2 | .rup => 3 | .rna => 4 | .rsr => 5

/-- The width bit w: 32 or 64 bits (R74, R75). -/
inductive Width | w32 | w64
  deriving DecidableEq, Repr

/-- The code of w. -/
def Width.code : Width → BitVec 1
  | .w32 => 0 | .w64 => 1

/-- The orderings of R75. -/
inductive Ord | rlx | acq | rel | ar | sc
  deriving DecidableEq, Repr

/-- The ordering code of R75. -/
def Ord.code : Ord → BitVec 3
  | .rlx => 0 | .acq => 1 | .rel => 2 | .ar => 3 | .sc => 4

/-- The scopes of R75 and R156. -/
inductive Scope | core | clu | die | dev | sys
  deriving DecidableEq, Repr

/-- The scope code of R75. -/
def Scope.code : Scope → BitVec 3
  | .core => 0 | .clu => 1 | .die => 2 | .dev => 3 | .sys => 4

/-- The element size of a strided or gathered access and of a stream (R152, R234). -/
inductive ESz | b | h | w | d
  deriving DecidableEq, Repr

/-- The element size code of R152. -/
def ESz.code : ESz → BitVec 2
  | .b => 0 | .h => 1 | .w => 2 | .d => 3

/-- The element formats of R37. -/
inductive Fmt
  | fp64 | fp32 | bf16 | fp16 | e5m2 | e4m3 | e3m2 | e2m3 | e2m1
  | int8 | uint8 | int4 | int16 | e4m3sh | int32 | int64
  deriving DecidableEq, Repr

/-- The format code of R37. -/
def Fmt.code : Fmt → BitVec 4
  | .fp64 => 0 | .fp32 => 1 | .bf16 => 2 | .fp16 => 3 | .e5m2 => 4 | .e4m3 => 5 | .e3m2 => 6 | .e2m3 => 7
  | .e2m1 => 8 | .int8 => 9 | .uint8 => 10 | .int4 => 11 | .int16 => 12 | .e4m3sh => 13 | .int32 => 14
  | .int64 => 15

/-- A scalar operand of VBCST, VEXT and VINS: a g or an f register (R220). -/
inductive SReg | g (r : Reg) | f (r : Reg)
  deriving DecidableEq, Repr

/-- The six-bit scalar field of R220: bit 5 selects the f file. -/
def SReg.code : SReg → BitVec 6
  | .g r => 0#1 ++ r | .f r => 1#1 ++ r

/-- The functions of VFN (R231) and of the scalar transcendentals (R134). -/
inductive TFn | exp | exp2 | log | log2 | rcp | rsq | sin | cos | tanh | erf
  deriving DecidableEq, Repr

/-- The function code of R231. -/
def TFn.code : TFn → BitVec 6
  | .exp => 0 | .exp2 => 1 | .log => 2 | .log2 => 3 | .rcp => 4 | .rsq => 5 | .sin => 6 | .cos => 7
  | .tanh => 8 | .erf => 9

/-- Hardware loop 0 (outer) or 1 (inner) (R109). -/
inductive LoopNo | l0 | l1
  deriving DecidableEq, Repr

/-- The sel bit of R109. -/
def LoopNo.code : LoopNo → BitVec 1
  | .l0 => 0 | .l1 => 1

/-- The prefetch hint of R146. -/
inductive Hint | rd | wr | dc
  deriving DecidableEq, Repr

/-- The hint code of R146. -/
def Hint.code : Hint → BitVec 2
  | .rd => 0 | .wr => 1 | .dc => 2

/-- The mode of a cluster barrier (R165, R180). -/
inductive BarMode | counting | strict
  deriving DecidableEq, Repr

/-- The mode bit of R165. -/
def BarMode.code : BarMode → BitVec 1
  | .counting => 0 | .strict => 1

/-- A storage tier (R241). -/
inductive Tier | hbm | exp | host
  deriving DecidableEq, Repr

/-- The tier code of R241. -/
def Tier.code : Tier → BitVec 2
  | .hbm => 0 | .exp => 1 | .host => 2

/-- The register TRDC reads (R251). -/
inductive TileOrAcc | tile (k : Tile) | acc (a : Acc)
  deriving DecidableEq, Repr

/-- The register field of TRDC (R251). -/
def TileOrAcc.code : TileOrAcc → BitVec 5
  | .tile k => 0#1 ++ k | .acc a => 0#3 ++ a

/-- The A bit of TRDC (R251). -/
def TileOrAcc.flag : TileOrAcc → BitVec 1
  | .tile _ => 0 | .acc _ => 1

/-- An engine register that an uncorrectable error can poison (R357). -/
inductive EngReg | tile (k : Tile) | acc (a : Acc) | orth (q : QReg)
  deriving DecidableEq, Repr

/-- The key exchange group a requester selects (R384). -/
inductive SpdmDhe | ffdhe3072 | secp384r1
  deriving DecidableEq, Repr

/-- The operations of the SPDM KEY_UPDATE message (R384; DSP0274). -/
inductive SpdmKeyOp | updateKey | updateAllKeys | verifyNewKey
  deriving DecidableEq, Repr

/-- LDAQ admits relaxed, acquire and sc (R147). -/
def Ord.okLoad : Ord → Bool
  | .rlx | .acq | .sc => true
  | .rel | .ar => false

/-- STRL admits relaxed, release and sc (R147). -/
def Ord.okStore : Ord → Bool
  | .rlx | .rel | .sc => true
  | .acq | .ar => false

/-- FENCE admits every ordering but relaxed (R147). -/
def Ord.okFence : Ord → Bool
  | .rlx => false
  | .acq | .rel | .ar | .sc => true

/-- What a step of the device is about: the parameters of the constructors of Instr that are not instructions. A turn of the
state carries them (MODEL: spec/95_what_each_step_holds.md names the steps, and its rules say what each is about). -/
structure Ev where
  /-- physical core number, 48 × cluster + position (R1, R179) -/
  c : Nat := 0
  /-- hardware context slot (R17) -/
  sl : Nat := 0
  /-- owner number of a context (R364) -/
  o : Nat := 0
  /-- function number (R389) -/
  fn : Nat := 0
  /-- launch number (R18), crew linear index (R16) in `k` -/
  num : Nat := 0
  /-- an index: a message in flight, a migration entry, a crew, a version-table entry, an expander, a sub-link, a slot of
  the certificate chain, a measurement block, an element of a stream counted from the next -/
  k : Nat := 0
  /-- a byte offset -/
  off : Nat := 0
  /-- a length in bytes -/
  len : Nat := 0
  /-- a value written, a pointer or an address -/
  v : Word := 0
  /-- bytes carried: a flit, a nonce, exchange data, bytes written through the aperture -/
  bytes : List Byte := []
  /-- the access is a write -/
  wr : Bool := false
  /-- a host transaction came in its function's own IDE stream (R395) -/
  ide : Bool := false
  /-- a tier and a die (R249, R307) -/
  tier : Tier := .hbm
  die : Nat := 0
  /-- a stream port (R232) -/
  port : PortNo := 0
  /-- an engine register (R357) -/
  reg : EngReg := .tile 0
  /-- an SPDM key exchange group and key operation (R384) -/
  dhe : SpdmDhe := .ffdhe3072
  keyOp : SpdmKeyOp := .updateKey
  /-- readings of the power controller in mW: dies 0 to 3, HBM, hub, package (R412) -/
  readings : List Nat := []
  deriving DecidableEq, Repr

/-- The numbers of a step's parameters name things the device has (R1, R364, R389). -/
def Ev.wf (e : Ev) : Bool :=
  decide (e.c < 1536) && decide (e.sl < 16) && decide (e.o < 65536) && decide (e.fn ≤ 32) && decide (e.die < 4)

/-- One constructor per row of the table of steps: first the instructions of Keaxis, then the steps of the table that the
device, Cordwain and the host make; the parameters of the latter are those of Ev. -/
inductive Instr
  /-- ADD (R95): Writes the sum of two general registers, modulo 2^64, to gd. -/
  | add (d : Reg) (a : Reg) (b : Reg)
  /-- SUB (R95): Writes a minus b to gd. -/
  | sub (d : Reg) (a : Reg) (b : Reg)
  /-- AND (R95): Writes the bitwise AND of a and b to gd. -/
  | and (d : Reg) (a : Reg) (b : Reg)
  /-- OR (R95): Writes the bitwise OR of a and b to gd. -/
  | or (d : Reg) (a : Reg) (b : Reg)
  /-- XOR (R95): Writes the bitwise XOR of a and b to gd. -/
  | xor (d : Reg) (a : Reg) (b : Reg)
  /-- ANDN (R95): Writes a AND NOT b to gd. -/
  | andn (d : Reg) (a : Reg) (b : Reg)
  /-- SLL (R95): Shifts a left by b[5:0] into gd. -/
  | sll (d : Reg) (a : Reg) (b : Reg)
  /-- SRL (R95): Shifts a right logically by b[5:0] into gd. -/
  | srl (d : Reg) (a : Reg) (b : Reg)
  /-- SRA (R95): Shifts a right arithmetically by b[5:0] into gd. -/
  | sra (d : Reg) (a : Reg) (b : Reg)
  /-- ROL (R95): Rotates a left by b[5:0] into gd. -/
  | rol (d : Reg) (a : Reg) (b : Reg)
  /-- ROR (R95): Rotates a right by b[5:0] into gd. -/
  | ror (d : Reg) (a : Reg) (b : Reg)
  /-- MUL (R95): Writes the low 64 bits of a times b to gd. -/
  | mul (d : Reg) (a : Reg) (b : Reg)
  /-- MULH (R95): Writes the high 64 bits of the signed product to gd. -/
  | mulh (d : Reg) (a : Reg) (b : Reg)
  /-- MULHU (R95): Writes the high 64 bits of the unsigned product to gd. -/
  | mulhu (d : Reg) (a : Reg) (b : Reg)
  /-- DIV (R96): Signed division truncated toward zero, with defined results for zero divisor and overflow. -/
  | div (d : Reg) (a : Reg) (b : Reg)
  /-- DIVU (R96): Unsigned division, all ones for a zero divisor. -/
  | divu (d : Reg) (a : Reg) (b : Reg)
  /-- REM (R96): Signed remainder with the sign of the dividend. -/
  | rem (d : Reg) (a : Reg) (b : Reg)
  /-- REMU (R96): Unsigned remainder, a for a zero divisor. -/
  | remu (d : Reg) (a : Reg) (b : Reg)
  /-- MIN (R95): Writes the signed minimum of a and b to gd. -/
  | min (d : Reg) (a : Reg) (b : Reg)
  /-- MAX (R95): Writes the signed maximum of a and b to gd. -/
  | max (d : Reg) (a : Reg) (b : Reg)
  /-- MINU (R95): Writes the unsigned minimum of a and b to gd. -/
  | minu (d : Reg) (a : Reg) (b : Reg)
  /-- MAXU (R95): Writes the unsigned maximum of a and b to gd. -/
  | maxu (d : Reg) (a : Reg) (b : Reg)
  /-- SEQ (R95): Writes 1 to gd if a equals b, else 0. -/
  | seq (d : Reg) (a : Reg) (b : Reg)
  /-- SLT (R95): Writes 1 to gd if a is less than b signed. -/
  | slt (d : Reg) (a : Reg) (b : Reg)
  /-- SLTU (R95): Writes 1 to gd if a is less than b unsigned. -/
  | sltu (d : Reg) (a : Reg) (b : Reg)
  /-- SEL (R95): Writes a to gd if the old gd is nonzero, else b. -/
  | sel (d : Reg) (a : Reg) (b : Reg)
  /-- CLZ (R95): Counts leading zero bits of a. -/
  | clz (d : Reg) (a : Reg)
  /-- CTZ (R95): Counts trailing zero bits of a. -/
  | ctz (d : Reg) (a : Reg)
  /-- POPC (R95): Counts the one bits of a. -/
  | popc (d : Reg) (a : Reg)
  /-- BREV (R95): Reverses the bit order of a. -/
  | brev (d : Reg) (a : Reg)
  /-- BSWAP (R95): Reverses the byte order of a. -/
  | bswap (d : Reg) (a : Reg)
  /-- ADDW (R97): 32-bit add, sign-extended into gd. -/
  | addw (d : Reg) (a : Reg) (b : Reg)
  /-- SUBW (R97): 32-bit subtract, sign-extended into gd. -/
  | subw (d : Reg) (a : Reg) (b : Reg)
  /-- MULW (R97): 32-bit multiply low, sign-extended into gd. -/
  | mulw (d : Reg) (a : Reg) (b : Reg)
  /-- SLLW (R97): 32-bit left shift, sign-extended into gd. -/
  | sllw (d : Reg) (a : Reg) (b : Reg)
  /-- SRLW (R97): 32-bit logical right shift, sign-extended into gd. -/
  | srlw (d : Reg) (a : Reg) (b : Reg)
  /-- SRAW (R97): 32-bit arithmetic right shift, sign-extended into gd. -/
  | sraw (d : Reg) (a : Reg) (b : Reg)
  /-- SHADD (R95): Writes a shifted left by sh plus b to gd. -/
  | shadd (d : Reg) (a : Reg) (b : Reg) (sh : BitVec 3)
  /-- ADDV (R98): Signed add that raises OVF precisely on overflow. -/
  | addv (d : Reg) (a : Reg) (b : Reg)
  /-- SUBV (R98): Signed subtract that raises OVF precisely on overflow. -/
  | subv (d : Reg) (a : Reg) (b : Reg)
  /-- XYA (R100): Forms an absolute scratchpad-window pointer from coordinates and offset. -/
  | xya (d : Reg) (a : Reg) (b : Reg)
  /-- XYR (R100): Forms a relative scratchpad-window pointer with torus wrap. -/
  | xyr (d : Reg) (a : Reg) (b : Reg)
  /-- XYR_SELF (R100): Forms a self scratchpad-window pointer from an offset. -/
  | xyrSelf (d : Reg) (b : Reg)
  /-- AGEP (R100): Replaces the age of pointer a with b[7:0]. -/
  | agep (d : Reg) (a : Reg) (b : Reg)
  /-- AGEX (R100): Extracts the age of pointer a. -/
  | agex (d : Reg) (a : Reg)
  /-- ADDI (R99): Adds a sign-extended immediate to a. -/
  | addi (d : Reg) (a : Reg) (imm : BitVec 12)
  /-- ANDI (R99): ANDs a with a sign-extended immediate. -/
  | andi (d : Reg) (a : Reg) (imm : BitVec 12)
  /-- ORI (R99): ORs a with a sign-extended immediate. -/
  | ori (d : Reg) (a : Reg) (imm : BitVec 12)
  /-- XORI (R99): XORs a with a sign-extended immediate. -/
  | xori (d : Reg) (a : Reg) (imm : BitVec 12)
  /-- SLLI (R99): Shifts a left by an immediate count. -/
  | slli (d : Reg) (a : Reg) (sh : BitVec 6)
  /-- SRLI (R99): Shifts a right logically by an immediate count. -/
  | srli (d : Reg) (a : Reg) (sh : BitVec 6)
  /-- SRAI (R99): Shifts a right arithmetically by an immediate count. -/
  | srai (d : Reg) (a : Reg) (sh : BitVec 6)
  /-- SEQI (R99): Writes 1 if a equals the immediate. -/
  | seqi (d : Reg) (a : Reg) (imm : BitVec 12)
  /-- SLTI (R99): Writes 1 if a is less than the immediate, signed. -/
  | slti (d : Reg) (a : Reg) (imm : BitVec 12)
  /-- SLTUI (R99): Writes 1 if a is less than the immediate, unsigned. -/
  | sltui (d : Reg) (a : Reg) (imm : BitVec 12)
  /-- ADDWI (R99): 32-bit add of an immediate, sign-extended. -/
  | addwi (d : Reg) (a : Reg) (imm : BitVec 12)
  /-- BFX (R99): Extracts a bit field of a, zero-extended. -/
  | bfx (d : Reg) (a : Reg) (pos : BitVec 6) (lenM1 : BitVec 6)
  /-- BFI (R99): Inserts the low bits of a into a field of gd. -/
  | bfi (d : Reg) (a : Reg) (pos : BitVec 6) (lenM1 : BitVec 6)
  /-- LUI (R99): Writes a sign-extended 17-bit immediate times 4096. -/
  | lui (d : Reg) (imm : BitVec 17)
  /-- APC (R99): Writes the word's address plus a sign-extended immediate times 4096. -/
  | apc (d : Reg) (imm : BitVec 17)
  /-- FADD (R122): Correctly rounded floating addition. -/
  | fadd (w : Width) (rm : RM) (d : Reg) (a : Reg) (b : Reg)
  /-- FSUB (R122): Correctly rounded floating subtraction. -/
  | fsub (w : Width) (rm : RM) (d : Reg) (a : Reg) (b : Reg)
  /-- FMUL (R122): Correctly rounded floating multiplication. -/
  | fmul (w : Width) (rm : RM) (d : Reg) (a : Reg) (b : Reg)
  /-- FDIV (R122): Correctly rounded floating division. -/
  | fdiv (w : Width) (rm : RM) (d : Reg) (a : Reg) (b : Reg)
  /-- FSQRT (R122): Correctly rounded square root. -/
  | fsqrt (w : Width) (rm : RM) (d : Reg) (a : Reg)
  /-- FMIN (R124): Selects the smaller operand, a number over a NaN. -/
  | fmin (w : Width) (rm : RM) (d : Reg) (a : Reg) (b : Reg)
  /-- FMAX (R124): Selects the larger operand, a number over a NaN. -/
  | fmax (w : Width) (rm : RM) (d : Reg) (a : Reg) (b : Reg)
  /-- FMINM (R124): Selects the smaller operand with NaNs propagating. -/
  | fminm (w : Width) (rm : RM) (d : Reg) (a : Reg) (b : Reg)
  /-- FMAXM (R124): Selects the larger operand with NaNs propagating. -/
  | fmaxm (w : Width) (rm : RM) (d : Reg) (a : Reg) (b : Reg)
  /-- FEQ (R125): Writes 1 to gd if fa equals fb. -/
  | feq (w : Width) (rm : RM) (d : Reg) (a : Reg) (b : Reg)
  /-- FLT (R125): Writes 1 to gd if fa is less than fb. -/
  | flt (w : Width) (rm : RM) (d : Reg) (a : Reg) (b : Reg)
  /-- FLE (R125): Writes 1 to gd if fa is at most fb. -/
  | fle (w : Width) (rm : RM) (d : Reg) (a : Reg) (b : Reg)
  /-- FCLASS (R126): Writes a one-hot class of fa to gd. -/
  | fclass (w : Width) (rm : RM) (d : Reg) (a : Reg)
  /-- FSGN (R127): Copies fa with the sign of fb. -/
  | fsgn (w : Width) (rm : RM) (d : Reg) (a : Reg) (b : Reg)
  /-- FSGNN (R127): Copies fa with the inverted sign of fb. -/
  | fsgnn (w : Width) (rm : RM) (d : Reg) (a : Reg) (b : Reg)
  /-- FSGNX (R127): Copies fa with its sign XOR the sign of fb. -/
  | fsgnx (w : Width) (rm : RM) (d : Reg) (a : Reg) (b : Reg)
  /-- FRINT (R128): Rounds fa to an integral value in its format, optionally raising NX (.X). -/
  | frint (w : Width) (rm : RM) (x : Bool) (d : Reg) (a : Reg)
  /-- FCVT (R131): Converts between floating formats, optionally saturating (.SAT). -/
  | fcvt (w : Width) (rm : RM) (sat : Bool) (d : Reg) (a : Reg)
  /-- FCVTI (R131): Converts a floating value into an integer in gd. -/
  | fcvti (w : Width) (rm : RM) (d : Reg) (a : Reg)
  /-- FCVTF (R131): Converts an integer in ga into a floating value. -/
  | fcvtf (w : Width) (rm : RM) (d : Reg) (a : Reg)
  /-- FMVG (R132): Moves the bits of fa into gd. -/
  | fmvg (w : Width) (rm : RM) (d : Reg) (a : Reg)
  /-- FMVF (R132): Moves the bits of ga into fd. -/
  | fmvf (w : Width) (rm : RM) (d : Reg) (a : Reg)
  /-- FSCALE (R129): Rounds fa times 2 to the power of gb. -/
  | fscale (w : Width) (rm : RM) (d : Reg) (a : Reg) (b : Reg)
  /-- FEXP (R134): Natural exponential within 1 ulp. -/
  | fexp (w : Width) (rm : RM) (d : Reg) (a : Reg)
  /-- FEXP2 (R134): Base-2 exponential within 1 ulp. -/
  | fexp2 (w : Width) (rm : RM) (d : Reg) (a : Reg)
  /-- FLOG (R134): Natural logarithm within 1 ulp. -/
  | flog (w : Width) (rm : RM) (d : Reg) (a : Reg)
  /-- FLOG2 (R134): Base-2 logarithm within 1 ulp. -/
  | flog2 (w : Width) (rm : RM) (d : Reg) (a : Reg)
  /-- FRCP (R134): Correctly rounded reciprocal. -/
  | frcp (w : Width) (rm : RM) (d : Reg) (a : Reg)
  /-- FRSQ (R134): Reciprocal square root within 1 ulp. -/
  | frsq (w : Width) (rm : RM) (d : Reg) (a : Reg)
  /-- FSIN (R134): Sine within 1 ulp. -/
  | fsin (w : Width) (rm : RM) (d : Reg) (a : Reg)
  /-- FCOS (R134): Cosine within 1 ulp. -/
  | fcos (w : Width) (rm : RM) (d : Reg) (a : Reg)
  /-- FTANH (R134): Hyperbolic tangent within 2 ulp. -/
  | ftanh (w : Width) (rm : RM) (d : Reg) (a : Reg)
  /-- FERF (R134): Error function within 2 ulp. -/
  | ferf (w : Width) (rm : RM) (d : Reg) (a : Reg)
  /-- FMA (R123): Fused a times b plus c with one rounding. -/
  | fma (w : Width) (rm : RM) (d : Reg) (a : Reg) (b : Reg) (c : Reg)
  /-- FMS (R123): Fused a times b minus c with one rounding. -/
  | fms (w : Width) (rm : RM) (d : Reg) (a : Reg) (b : Reg) (c : Reg)
  /-- FNMA (R123): Fused negated product plus c with one rounding. -/
  | fnma (w : Width) (rm : RM) (d : Reg) (a : Reg) (b : Reg) (c : Reg)
  /-- FNMS (R123): Fused negated product minus c with one rounding. -/
  | fnms (w : Width) (rm : RM) (d : Reg) (a : Reg) (b : Reg) (c : Reg)
  /-- VADD (R225): Lane-wise addition. -/
  | vadd (w : Width) (rm : RM) (d : VReg) (a : VReg) (b : VReg)
  /-- VSUB (R225): Lane-wise subtraction. -/
  | vsub (w : Width) (rm : RM) (d : VReg) (a : VReg) (b : VReg)
  /-- VMUL (R225): Lane-wise multiplication. -/
  | vmul (w : Width) (rm : RM) (d : VReg) (a : VReg) (b : VReg)
  /-- VFMA (R225): Lane-wise fused multiply-add into vd. -/
  | vfma (w : Width) (rm : RM) (d : VReg) (a : VReg) (b : VReg)
  /-- VFMS (R225): Lane-wise fused multiply-subtract of vd. -/
  | vfms (w : Width) (rm : RM) (d : VReg) (a : VReg) (b : VReg)
  /-- VDIV (R225): Lane-wise division. -/
  | vdiv (w : Width) (rm : RM) (d : VReg) (a : VReg) (b : VReg)
  /-- VSQRT (R225): Lane-wise square root. -/
  | vsqrt (w : Width) (rm : RM) (d : VReg) (a : VReg)
  /-- VMIN (R225): Lane-wise minimum. -/
  | vmin (w : Width) (rm : RM) (d : VReg) (a : VReg) (b : VReg)
  /-- VMAX (R225): Lane-wise maximum. -/
  | vmax (w : Width) (rm : RM) (d : VReg) (a : VReg) (b : VReg)
  /-- VAND (R226): Bitwise AND of 512 bits. -/
  | vand (w : Width) (rm : RM) (d : VReg) (a : VReg) (b : VReg)
  /-- VOR (R226): Bitwise OR of 512 bits. -/
  | vor (w : Width) (rm : RM) (d : VReg) (a : VReg) (b : VReg)
  /-- VXOR (R226): Bitwise XOR of 512 bits. -/
  | vxor (w : Width) (rm : RM) (d : VReg) (a : VReg) (b : VReg)
  /-- VSLL (R226): Lane-wise left shift. -/
  | vsll (w : Width) (rm : RM) (d : VReg) (a : VReg) (b : VReg)
  /-- VSRL (R226): Lane-wise logical right shift. -/
  | vsrl (w : Width) (rm : RM) (d : VReg) (a : VReg) (b : VReg)
  /-- VSRA (R226): Lane-wise arithmetic right shift. -/
  | vsra (w : Width) (rm : RM) (d : VReg) (a : VReg) (b : VReg)
  /-- VCMPEQ (R227): Lane-wise equality compare to all-ones masks. -/
  | vcmpeq (w : Width) (rm : RM) (d : VReg) (a : VReg) (b : VReg)
  /-- VCMPLT (R227): Lane-wise less-than compare. -/
  | vcmplt (w : Width) (rm : RM) (d : VReg) (a : VReg) (b : VReg)
  /-- VCMPLE (R227): Lane-wise less-or-equal compare. -/
  | vcmple (w : Width) (rm : RM) (d : VReg) (a : VReg) (b : VReg)
  /-- VSEL (R227): Selects lanes of va or vb by the old vd. -/
  | vsel (w : Width) (rm : RM) (d : VReg) (a : VReg) (b : VReg)
  /-- VCVT (R229): Converts lanes between formats into one part of vd. -/
  | vcvt (w : Width) (rm : RM) (sat : Bool) (d : VReg) (a : VReg) (part : BitVec 4)
  /-- VRSUM (R228): Tree sum of (masked) lanes into lane 0. -/
  | vrsum (w : Width) (rm : RM) (d : VReg) (a : VReg) (b : VReg)
  /-- VRMAX (R228): Tree maximum of (masked) lanes into lane 0. -/
  | vrmax (w : Width) (rm : RM) (d : VReg) (a : VReg) (b : VReg)
  /-- VRMIN (R228): Tree minimum of (masked) lanes into lane 0. -/
  | vrmin (w : Width) (rm : RM) (d : VReg) (a : VReg) (b : VReg)
  /-- VDOT (R228): Dot product of two registers into lane 0. -/
  | vdot (w : Width) (rm : RM) (d : VReg) (a : VReg) (b : VReg)
  /-- VBCST (R230): Broadcasts a scalar register into every lane. -/
  | vbcst (w : Width) (rm : RM) (d : VReg) (rs : SReg)
  /-- VEXT (R230): Extracts one lane into a scalar register. -/
  | vext (w : Width) (rm : RM) (rd : SReg) (a : VReg) (lane : BitVec 6)
  /-- VINS (R230): Inserts a scalar into one lane of vd. -/
  | vins (w : Width) (rm : RM) (d : VReg) (rs : SReg) (lane : BitVec 6)
  /-- VPERM (R230): Permutes lanes of va by indices in vb. -/
  | vperm (w : Width) (rm : RM) (d : VReg) (a : VReg) (b : VReg)
  /-- VMOV (R230): Copies all 512 bits of va to vd. -/
  | vmov (w : Width) (rm : RM) (d : VReg) (a : VReg)
  /-- VFN (R231): Applies a selected transcendental to each lane. -/
  | vfn (w : Width) (rm : RM) (d : VReg) (a : VReg) (fn : TFn)
  /-- LDB (R145): Loads a byte, sign-extended. -/
  | ldb (t : Reg) (b : Reg) (disp : BitVec 12)
  /-- LDBU (R145): Loads a byte, zero-extended. -/
  | ldbu (t : Reg) (b : Reg) (disp : BitVec 12)
  /-- LDH (R145): Loads a halfword, sign-extended. -/
  | ldh (t : Reg) (b : Reg) (disp : BitVec 12)
  /-- LDHU (R145): Loads a halfword, zero-extended. -/
  | ldhu (t : Reg) (b : Reg) (disp : BitVec 12)
  /-- LDW (R145): Loads a word, sign-extended. -/
  | ldw (t : Reg) (b : Reg) (disp : BitVec 12)
  /-- LDWU (R145): Loads a word, zero-extended. -/
  | ldwu (t : Reg) (b : Reg) (disp : BitVec 12)
  /-- LDD (R145): Loads a doubleword. -/
  | ldd (t : Reg) (b : Reg) (disp : BitVec 12)
  /-- STB (R145): Stores a byte. -/
  | stb (t : Reg) (b : Reg) (disp : BitVec 12)
  /-- STH (R145): Stores a halfword. -/
  | sth (t : Reg) (b : Reg) (disp : BitVec 12)
  /-- STW (R145): Stores a word. -/
  | stw (t : Reg) (b : Reg) (disp : BitVec 12)
  /-- STD (R145): Stores a doubleword. -/
  | std (t : Reg) (b : Reg) (disp : BitVec 12)
  /-- FLDW (R145): Loads a word into an f register. -/
  | fldw (t : Reg) (b : Reg) (disp : BitVec 12)
  /-- FLDD (R145): Loads a doubleword into an f register. -/
  | fldd (t : Reg) (b : Reg) (disp : BitVec 12)
  /-- FSTW (R145): Stores the low word of an f register. -/
  | fstw (t : Reg) (b : Reg) (disp : BitVec 12)
  /-- FSTD (R145): Stores an f register. -/
  | fstd (t : Reg) (b : Reg) (disp : BitVec 12)
  /-- PREF (R146): Prefetch hint that changes no architectural state. -/
  | pref (h : Hint) (b : Reg) (disp : BitVec 12)
  /-- LDAQ (R148): Ordered load with acquire, relaxed or sc ordering. -/
  | ldaq (w : Width) (o : Ord) (sc : Scope) (t : Reg) (a : Reg)
  /-- STRL (R148): Ordered store with release, relaxed or sc ordering. -/
  | strl (w : Width) (o : Ord) (sc : Scope) (t : Reg) (a : Reg)
  /-- AMOADD (R149): Atomic fetch-and-add. -/
  | amoadd (w : Width) (o : Ord) (sc : Scope) (t : Reg) (b : Reg) (a : Reg)
  /-- AMOAND (R149): Atomic fetch-and-AND. -/
  | amoand (w : Width) (o : Ord) (sc : Scope) (t : Reg) (b : Reg) (a : Reg)
  /-- AMOOR (R149): Atomic fetch-and-OR. -/
  | amoor (w : Width) (o : Ord) (sc : Scope) (t : Reg) (b : Reg) (a : Reg)
  /-- AMOXOR (R149): Atomic fetch-and-XOR. -/
  | amoxor (w : Width) (o : Ord) (sc : Scope) (t : Reg) (b : Reg) (a : Reg)
  /-- AMOMIN (R149): Atomic signed minimum. -/
  | amomin (w : Width) (o : Ord) (sc : Scope) (t : Reg) (b : Reg) (a : Reg)
  /-- AMOMAX (R149): Atomic signed maximum. -/
  | amomax (w : Width) (o : Ord) (sc : Scope) (t : Reg) (b : Reg) (a : Reg)
  /-- AMOMINU (R149): Atomic unsigned minimum. -/
  | amominu (w : Width) (o : Ord) (sc : Scope) (t : Reg) (b : Reg) (a : Reg)
  /-- AMOMAXU (R149): Atomic unsigned maximum. -/
  | amomaxu (w : Width) (o : Ord) (sc : Scope) (t : Reg) (b : Reg) (a : Reg)
  /-- AMOSWP (R149): Atomic swap. -/
  | amoswp (w : Width) (o : Ord) (sc : Scope) (t : Reg) (b : Reg) (a : Reg)
  /-- AMOCAS (R149): Atomic compare-and-swap. -/
  | amocas (w : Width) (o : Ord) (sc : Scope) (t : Reg) (b : Reg) (a : Reg)
  /-- AMOFADD (R149): Atomic floating add under RNE. -/
  | amofadd (w : Width) (o : Ord) (sc : Scope) (t : Reg) (b : Reg) (a : Reg)
  /-- FENCE (R150): Orders the thread's accesses by ordering and scope. -/
  | fence (o : Ord) (sc : Scope)
  /-- CFLUSH (R151): Writes back a line's dirty bytes and keeps it valid. -/
  | cflush (sc : Scope) (a : Reg)
  /-- CINV (R151): Writes back a line's dirty bytes and invalidates it. -/
  | cinv (sc : Scope) (a : Reg)
  /-- VLD (R152): Loads 64 bytes into a vector register. -/
  | vld (v : VReg) (b : Reg) (disp : BitVec 6)
  /-- VST (R152): Stores a vector register as 64 bytes. -/
  | vst (v : VReg) (b : Reg) (disp : BitVec 6)
  /-- VLDS (R152): Strided vector load. -/
  | vlds (e : ESz) (v : VReg) (b : Reg) (x : Reg)
  /-- VSTS (R152): Strided vector store. -/
  | vsts (e : ESz) (v : VReg) (b : Reg) (x : Reg)
  /-- VGTH (R152): Vector gather by 32-bit offsets. -/
  | vgth (e : ESz) (v : VReg) (b : Reg) (x : Reg)
  /-- VSCT (R152): Vector scatter by 32-bit offsets. -/
  | vsct (e : ESz) (v : VReg) (b : Reg) (x : Reg)
  /-- BEQ (R102): Branches if a equals b. -/
  | beq (a : Reg) (b : Reg) (disp : BitVec 13)
  /-- BNE (R102): Branches if a differs from b. -/
  | bne (a : Reg) (b : Reg) (disp : BitVec 13)
  /-- BLT (R102): Branches if a is less than b, signed. -/
  | blt (a : Reg) (b : Reg) (disp : BitVec 13)
  /-- BGE (R102): Branches if a is at least b, signed. -/
  | bge (a : Reg) (b : Reg) (disp : BitVec 13)
  /-- BLTU (R102): Branches if a is less than b, unsigned. -/
  | bltu (a : Reg) (b : Reg) (disp : BitVec 13)
  /-- BGEU (R102): Branches if a is at least b, unsigned. -/
  | bgeu (a : Reg) (b : Reg) (disp : BitVec 13)
  /-- JMP (R103): Jumps to a PC-relative target. -/
  | jmp (disp : BitVec 23)
  /-- CALL (R103): Jumps to a PC-relative target and writes the return address to g1. -/
  | call (disp : BitVec 23)
  /-- JTAB (R107): Indirect jump through a checked jump table to a landing pad. -/
  | jtab (a : Reg) (b : Reg)
  /-- LPAD (R108): Landing pad carrying a label; changes only the PC. -/
  | lpad (label : BitVec 20)
  /-- LPSET (R110): Sets up hardware loop N with a count from a register. -/
  | lpset (n : LoopNo) (c : Reg) (off : BitVec 17)
  /-- LPSETI (R110): Sets up hardware loop N with an immediate count. -/
  | lpseti (n : LoopNo) (count : BitVec 10) (off : BitVec 12)
  /-- LPOFF (R112): Deactivates hardware loop N. -/
  | lpoff (n : LoopNo)
  /-- PUT (R168): Sends 8 bytes to a scratchpad and then increments a counter there. -/
  | put (a : Reg) (b : Reg) (n : Cnt)
  /-- PUTB (R169): Sends a block of 8 to 256 bytes between scratchpads and then increments a counter. -/
  | putb (a : Reg) (b : Reg) (d : Reg) (n : Cnt)
  /-- CNTRD (R167): Reads a core counter. -/
  | cntrd (d : Reg) (n : Cnt)
  /-- CNTSET (R167): Sets a core counter, optionally as a release. -/
  | cntset (rel : Bool) (n : Cnt) (b : Reg)
  /-- CNTADD (R167): Adds to a core counter and returns the old value. -/
  | cntadd (rel : Bool) (d : Reg) (b : Reg) (n : Cnt)
  /-- WAITC (R171): Waits until a counter reaches a signed threshold. -/
  | waitc (d : Reg) (b : Reg) (n : Cnt)
  /-- DEQ (R175): Removes the oldest inbox entry of the slot into two registers, waiting if reserved. -/
  | deq (d : Reg)
  /-- PEEK (R176): Reads word 0 of the oldest inbox entry without removing it. -/
  | peek (d : Reg)
  /-- BARCFG (R180): Configures a cluster barrier's mask and mode. -/
  | barcfg (m : BarMode) (a : Reg) (n : BarNo)
  /-- BARARR (R181): Arrives at a cluster barrier and returns a generation. -/
  | bararr (d : Reg) (n : BarNo)
  /-- BARWAIT (R182): Waits until a cluster-barrier generation has completed. -/
  | barwait (a : Reg) (n : BarNo)
  /-- PHASE (R184): Arrives at the context's superstep barrier with a vote and waits. -/
  | phase (d : Reg) (a : Reg)
  /-- LAUNCH (R187): Checks a launch record and enters the launch into the dispatcher's pool. -/
  | launch (d : Reg) (a : Reg)
  /-- LCANCEL (R192): Cancels launches at a level and waits for them to stop. -/
  | lcancel (d : Reg) (a : Reg) (lvl : BitVec 2)
  /-- LCOUNT (R194): Reads a Lapstone completion count at a level. -/
  | lcount (d : Reg) (a : Reg) (lvl : BitVec 2)
  /-- NAP (R195): Suspends the thread until a selected event. -/
  | nap (m : BitVec 3)
  /-- CPY (R244): Checks a layout record and queues a copy, returning a handle. -/
  | cpy (d : Reg) (a : Reg)
  /-- CPYS (R248): Reads the status word of a copy. -/
  | cpys (d : Reg) (a : Reg)
  /-- CPYK (R248): Kills a copy and waits for it to end. -/
  | cpyk (d : Reg) (a : Reg)
  /-- MIGR (R249): Requests migration of pages to a tier. -/
  | migr (tier : Tier) (die : BitVec 2) (d : Reg) (a : Reg) (b : Reg)
  /-- REPL (R249): Requests replication of pages on a set of dies. -/
  | repl (d : Reg) (a : Reg) (b : Reg) (m : BitVec 4)
  /-- STRCFG (R235): Binds a stream port to a vector register from a descriptor. -/
  | strcfg (p : PortNo) (v : Reg) (a : Reg)
  /-- STRGO (R235): Puts a bound stream port into the running state. -/
  | strgo (p : PortNo)
  /-- STRSTOP (R239): Waits for pushed pieces and unbinds a stream port. -/
  | strstop (p : PortNo)
  /-- TCFG (R253): Configures and zeroes a tile register. -/
  | tcfg (k : Tile) (a : Reg)
  /-- TRDC (R254): Reads a tile configuration or accumulator shape. -/
  | trdc (d : Reg) (r : TileOrAcc)
  /-- TLD (R258): Loads tile rows from memory. -/
  | tld (k : Tile) (a : Reg) (b : Reg)
  /-- TLDK (R260): Decodes Shale blocks into a tile and returns bytes consumed. -/
  | tldk (d : Reg) (k : Tile) (a : Reg)
  /-- TST (R258): Stores tile rows to memory. -/
  | tst (k : Tile) (a : Reg) (b : Reg)
  /-- TZ (R259): Zeroes a configured tile. -/
  | tz (k : Tile)
  /-- TSCL (R256): Loads a tile's scale side band. -/
  | tscl (k : Tile) (a : Reg) (b : Reg)
  /-- MMA (R264): Accumulates a tile product into an accumulator. -/
  | mma (ta : Bool) (tb : Bool) (rm : RM) (ad : Acc) (ka : Tile) (kb : Tile)
  /-- ACZ (R262): Shapes and zeroes an accumulator. -/
  | acz (ad : Acc) (a : Reg)
  /-- ACLD (R262): Loads accumulator rows from memory. -/
  | acld (ad : Acc) (a : Reg) (b : Reg)
  /-- ACST (R262): Stores accumulator rows to memory. -/
  | acst (ad : Acc) (a : Reg) (b : Reg)
  /-- ACCV (R263): Converts an accumulator into a reconfigured tile. -/
  | accv (rm : RM) (sat : Bool) (k : Tile) (aa : Acc)
  /-- QCFG (R274): Configures an orthogonal accumulator and resets it to I. -/
  | qcfg (q : QReg) (a : Reg)
  /-- QZ (R275): Resets an orthogonal accumulator keeping its configuration. -/
  | qz (q : QReg)
  /-- QAPP (R278): Appends a Householder reflector, folding first if full. -/
  | qapp (rm : RM) (q : QReg) (k : Tile) (b : Reg) (col : BitVec 4)
  /-- QAPL (R281): Replaces an accumulator C by Q·C or Qᵀ·C. -/
  | qapl (t : Bool) (rm : RM) (ad : Acc) (q : QReg)
  /-- QAPR (R281): Replaces an accumulator C by C·Q or C·Qᵀ. -/
  | qapr (t : Bool) (rm : RM) (ad : Acc) (q : QReg)
  /-- QFOLD (R280): Folds the held reflectors into E. -/
  | qfold (rm : RM) (q : QReg)
  /-- QRD (R284): Reads the status word of an orthogonal accumulator. -/
  | qrd (d : Reg) (q : QReg)
  /-- QLD (R287): Restores an orthogonal accumulator from an image. -/
  | qld (q : QReg) (a : Reg)
  /-- QST (R286): Writes an image of an orthogonal accumulator. -/
  | qst (q : QReg) (a : Reg)
  /-- QFORM (R288): Writes Q explicitly as N rows. -/
  | qform (rm : RM) (q : QReg) (a : Reg) (b : Reg)
  /-- FMTP (R87): Names element formats for the next consumer instruction. -/
  | fmtp (f1 : Fmt) (f2 : Fmt) (fd : Fmt)
  /-- TRAP (R202): Completes its step and then takes a software trap. -/
  | trap (n : BitVec 12)
  /-- EBRK (R203): Precise debug-break trap routed to S level. -/
  | ebrk (n : BitVec 12)
  /-- CSRR (R205): Reads a control and status register. -/
  | csrr (d : Reg) (csr : BitVec 12)
  /-- CSRW (R205): Writes a CSR and returns its old value. -/
  | csrw (d : Reg) (csr : BitVec 12) (a : Reg)
  /-- CSRS (R205): Sets CSR bits and returns the old value. -/
  | csrs (d : Reg) (csr : BitVec 12) (a : Reg)
  /-- CSRC (R205): Clears CSR bits and returns the old value. -/
  | csrc (d : Reg) (csr : BitVec 12) (a : Reg)
  /-- ILOCK (R208): Fills and locks instruction-cache lines, all or nothing. -/
  | ilock (d : Reg) (a : Reg) (nM1 : BitVec 8)
  /-- IUNLK (R209): Unlocks instruction-cache lines of a range. -/
  | iunlk (d : Reg) (a : Reg) (nM1 : BitVec 8)
  /-- GRANT (R214): Requests a derived rights entry for another owner. -/
  | grant (d : Reg) (a : Reg) (b : Reg) (rights : BitVec 4)
  /-- REVOKE (R215): Requests removal of derived entries over a range, recursively. -/
  | revoke (d : Reg) (a : Reg) (b : Reg)
  /-- FREE (R217): Advances the age of the issuer's root entries over a range and waits. -/
  | free (d : Reg) (a : Reg) (b : Reg)
  /-- RPROBE (R218): Reads the issuing owner's rights at a line. -/
  | rprobe (d : Reg) (a : Reg)
  /-- UNASSIGNED_OPCODE (R86): Issue of a word that the opcode maps do not make into an instruction, or that has a reserved field set, raises ILLINS precisely. -/
  | unassignedOpcode (word : BitVec 32)
  /-- RET (R104): Transfers to the address in g1. -/
  | ret
  /-- DONE (R115): Ends the thread after its step. -/
  | done
  /-- CBAR (R178): Arrives at the crew barrier and waits. -/
  | cbar
  /-- YIELD (R195): Ends the context's issue leadership. -/
  | yield
  /-- MSYNC (R269): Waits for the thread's matrix and orthogonal-accumulator operations. -/
  | msync
  /-- NOP (R91): Changes nothing but the PC. -/
  | nop
  /-- RETT (R204): Restores loop state and status from the trap frame and returns to tpc. -/
  | rett
  /-- IFENCE (R207): Makes stored code fetchable on the core. -/
  | ifence
  /-- DEFERRED_TRAP (R201): A report from an engine is taken at the thread's next step boundary. -/
  | deferredTrap
  /-- ENGINE_ACCEPT (R336): An engine accepts the head of a thread's queue, releasing a stalled issue. -/
  | engineAccept
  /-- VECTOR_OP_COMPLETE (R224): A queued vector operation completes, writing its result and ORing its flags. -/
  | vectorOpComplete
  /-- MATRIX_SERVICE (R267): The matrix engine begins serving an operation and rechecks configurations and lines. -/
  | matrixService
  /-- MATRIX_OP_COMPLETE (R266): A matrix or orthogonal-accumulator operation completes. -/
  | matrixOpComplete
  /-- COPY_LINE (R245): The copy engine serves one destination line of a copy, checking its lines. -/
  | copyLine
  /-- COPY_END (R247): A copy ends as done, killed or failed, posting its entry and incrementing its counter. -/
  | copyEnd
  /-- PUT_DELIVERY (R170): A PUT or PUTB payload is written at the target and the target counter incremented. -/
  | putDelivery
  /-- WAITC_SATISFIED (R172): A waiting WAITC finds its condition met and acquires. -/
  | waitcSatisfied
  /-- DEQ_WAKE (R175): A waiting DEQ removes an entry that has been posted. -/
  | deqWake
  /-- CREW_BARRIER_COMPLETE (R178): The crew barrier completes when every live thread has arrived. -/
  | crewBarrierComplete
  /-- BARWAIT_WAKE (R182): A waiting BARWAIT finds its generation completed and acquires. -/
  | barwaitWake
  /-- PHASE_COMPLETE (R184): The phase completes, returning the OR and sum of votes. -/
  | phaseComplete
  /-- NAP_WAKE (R195): A napping thread resumes at a selected event. -/
  | napWake
  /-- MSYNC_COMPLETE (R269): MSYNC completes once earlier engine operations have completed. -/
  | msyncComplete
  /-- LCANCEL_COMPLETE (R193): LCANCEL completes when cancelled threads have stopped and operations ended. -/
  | lcancelComplete
  /-- CPYK_COMPLETE (R248): CPYK completes when the killed copy has ended. -/
  | cpykComplete
  /-- FREE_RESULT (R217): The security core finishes a FREE and writes its pointer and status. -/
  | freeResult
  /-- GRANT_PERFORMED (R214): The security core performs a GRANT and posts its entry. -/
  | grantPerformed
  /-- REVOCATION_CUT (R320): The security core changes tables and sends purges for a revoke, free or root removal. -/
  | revocationCut
  /-- CORE_CUT (R320): A core takes its cut in one cycle on receipt of a purge. -/
  | coreCut
  /-- CUT_ACKNOWLEDGE (R320): A core acknowledges once its counted accesses are performed and dirty bytes written. -/
  | cutAcknowledge
  /-- REVOKE_DONE (R215): The REVOKE request completes after all acknowledgements and posts its entry. -/
  | revokeDone
  /-- MIGRATION_LINE_COPY (R307): One line of a migrating page is copied indivisibly and the progress pointer advances. -/
  | migrationLineCopy
  /-- MIGR_DONE (R249): A migration request ends and posts its entry. -/
  | migrDone
  /-- REPL_DONE (R309): A replication request ends and posts its entry. -/
  | replDone
  /-- SEQUENCER_WRITE (R309): The Lapstone sequencer performs a replicated-page write and multicasts it. -/
  | sequencerWrite
  /-- SEALED_BUFFER_MOVE (R373): A write to a sealed buffer moves the whole buffer into HBM before it is performed. -/
  | sealedBufferMove
  /-- FAULT_RECORD (R305): A fault record is written to the function's fault ring when there is room. -/
  | faultRecord
  /-- DISPATCH (R329): The dispatcher starts the next crew that fits. -/
  | dispatch
  /-- CREW_DONE (R189): A crew is counted done when its threads ended and their operations completed. -/
  | crewDone
  /-- LAUNCH_COMPLETE (R190): A launch completes, setting STATE, releasing and incrementing its counter. -/
  | launchComplete
  /-- DEPENDENCE_TEST (R188): The dispatcher tests a pending launch's dependence counter, at least every 4,096 cycles. -/
  | dependenceTest
  /-- PROMOTION (R328): A ready launch's wait clock reaches its interval and its level rises. -/
  | promotion
  /-- CORE_RESERVATION (R331): A blocked launch's clock reaches DRAINT and it reserves a core. -/
  | coreReservation
  /-- WATCHDOG_EXPIRY (R340): The progress clock reaches its limit and the job is cancelled with HANG. -/
  | watchdogExpiry
  /-- LEADER_CHANGE (R334): Issue leadership passes to the next ready context. -/
  | leaderChange
  /-- GRACE_EXPIRY (R344): The grace period elapses and a forced pre-emption stops and drains the context. -/
  | graceExpiry
  /-- DRAIN_END (R345): The drain ends and the image is written or NOSPACE reported. -/
  | drainEnd
  /-- FUNCTION_LEVEL_RESET (R353): A function-level reset erases the context's keys, ends its jobs and scrubs its cores. -/
  | functionLevelReset
  /-- COLD_RESET (R411): The device is brought up from a cold reset. -/
  | coldReset
  /-- SENSOR_ALARM (R360): A voltage or clock sensor outside its window raises a level-3 alarm. -/
  | sensorAlarm
  /-- TAMPER_MESH_BROKEN (R360): A broken tamper mesh raises a level-3 alarm. -/
  | tamperMeshBroken
  /-- THREAD_REGISTER_ERROR (R357): An uncorrectable register error ends the thread with POISON. -/
  | threadRegisterError
  /-- ENGINE_REGISTER_ERROR (R357): An uncorrectable error poisons a tile, accumulator or orthogonal accumulator. -/
  | engineRegisterError
  /-- ICACHE_ERROR (R355): An instruction-cache array error marks the line poisoned and logs LATENT. -/
  | icacheError
  /-- CORRECTED_ERROR (R356): A corrected error writes a CORRECTED record only. -/
  | correctedError
  /-- INSTRUCTION_FILL (R379): An instruction-cache line fill completes, decrypting protected text under its tag. -/
  | instructionFill
  /-- TEXT_KEY_SWITCH (R381): A core takes the KEY_UPDATE boundary and discards or refills window lines. -/
  | textKeySwitch
  /-- FLIT_RECEIVE (R400): A Swisan flit arrives and is verified, accepted or negatively acknowledged. -/
  | flitReceive
  /-- SUBLINK_REKEY (R401): Three tag failures on one sequence number rekey the sub-link. -/
  | sublinkRekey
  /-- EXPANDER_LINK_DOWN (R397): A CXL expander link goes down; its reads act as poisoned. -/
  | expanderLinkDown
  /-- POWER_SAMPLE (R412): The power controller samples every 10 µs and adjusts issue rate. -/
  | powerSample
  /-- IDENTIFY (R407): Returns part code, stepping, device number, function and firmware measurement. -/
  | identify
  /-- ATTEST (R383): Returns a signed attestation report for an owner. -/
  | attest
  /-- CTX_CREATE (R408): Creates a context over clusters and returns its owner number. -/
  | ctxCreate
  /-- CTX_CREATE_ROOT_ENTRY (R408): CTX_CREATE SUB 1 installs a root rights entry. -/
  | ctxCreateRootEntry
  /-- CTX_CREATE_REMOVE_ROOT (R408): CTX_CREATE SUB 2 removes a root entry by a cut. -/
  | ctxCreateRemoveRoot
  /-- CTX_DESTROY (R367): Destroys a context, its rights, keys and core state. -/
  | ctxDestroy
  /-- JOB_START (R408): Starts a job from a root launch record. -/
  | jobStart
  /-- JOB_CANCEL (R346): Cancels the context's job as LCANCEL level 3. -/
  | jobCancel
  /-- PREEMPT (R342): Requests a pre-emption of a context with a grace period. -/
  | preempt
  /-- RESTORE (R352): Checks and reloads a context image. -/
  | restore
  /-- CHECKPOINT (R311): Pre-empts all contexts and writes everything to the checkpoint region. -/
  | checkpoint
  /-- CHECKPOINT_RECOVER (R375): CHECKPOINT SUB 1 recovers contexts from a checkpoint region. -/
  | checkpointRecover
  /-- SET_QOS (R408): SET_QOS SUB 0 replaces a running job's scheduling word. -/
  | setQos
  /-- SET_QOS_CONFIG_RECORD (R403): SET_QOS SUB 1 sets a function's configuration record. -/
  | setQosConfigRecord
  /-- DIRTY_LOG_CFG (R408): Writes a function's dirty-log base and control. -/
  | dirtyLogCfg
  /-- READ_COUNTER (R410): Reads a counter or sensor subject to the allow-list. -/
  | readCounter
  /-- RAS_LOG (R408): Returns and removes RAS log records. -/
  | rasLog
  /-- KEY_UPDATE (R378): KEY_UPDATE SUB 0 sets a text window record and wrapped key. -/
  | keyUpdate
  /-- KEY_UPDATE_ALLOW_LIST (R410): KEY_UPDATE SUB 1 replaces the allow-list of a protected context. -/
  | keyUpdateAllowList
  /-- GET_VERSION (R384): SPDM version negotiation message. -/
  | getVersion
  /-- GET_CAPABILITIES (R384): SPDM capabilities message. -/
  | getCapabilities
  /-- NEGOTIATE_ALGORITHMS (R384): SPDM algorithm negotiation message. -/
  | negotiateAlgorithms
  /-- GET_DIGESTS (R384): SPDM certificate digests message. -/
  | getDigests
  /-- GET_CERTIFICATE (R384): SPDM certificate retrieval message. -/
  | getCertificate
  /-- CHALLENGE (R384): SPDM challenge message. -/
  | challenge
  /-- GET_MEASUREMENTS (R384): SPDM measurements message returning firmware, configuration and text measurements. -/
  | getMeasurements
  /-- KEY_EXCHANGE (R384): SPDM session key exchange message. -/
  | keyExchange
  /-- FINISH (R384): SPDM session finish message. -/
  | finish
  /-- SPDM_KEY_UPDATE (R384): SPDM session key update message. -/
  | spdmKeyUpdate
  /-- HEARTBEAT (R384): SPDM heartbeat message. -/
  | heartbeat
  /-- END_SESSION (R385): Ends the SPDM session, taking the interface out of RUN. -/
  | endSession
  /-- LOCK_INTERFACE_REQUEST (R385): TDISP request that locks the interface configuration. -/
  | lockInterfaceRequest
  /-- GET_DEVICE_INTERFACE_REPORT (R385): TDISP request for the device interface report. -/
  | getDeviceInterfaceReport
  /-- GET_DEVICE_INTERFACE_STATE (R385): TDISP request for the interface state. -/
  | getDeviceInterfaceState
  /-- START_INTERFACE_REQUEST (R385): TDISP request that moves the interface to RUN. -/
  | startInterfaceRequest
  /-- STOP_INTERFACE_REQUEST (R385): TDISP request that stops the interface and destroys its protected contexts. -/
  | stopInterfaceRequest
  /-- RESOLVE (R305): FQRESP with ACTION 0 makes waiting accesses walk again. -/
  | resolve
  /-- REJECT (R305): FQRESP with ACTION 1 makes waiting accesses take PFAULT. -/
  | reject
  /-- FQST_READ (R391): A read of FQST returns and clears ERR. -/
  | fqstRead
  /-- DIRTY_LOG_RESET (R405): Writing DLCTL.RST waits for logged writes and resets the log. -/
  | dirtyLogReset
  /-- DLCONS_WRITE (R406): A host write of DLCONS consumes entries and may end the throttle stall. -/
  | dlconsWrite
  /-- TLBI (R304): A write of TLBI starts a translation invalidation. -/
  | tlbi
  /-- INVALIDATION_DONE (R304): An invalidation completes and TLBIST.BUSY returns to 0. -/
  | invalidationDone
  /-- APERTURE_ACCESS (R394): A host read or write through BAR2 reaches an unkeyed HBM frame. -/
  | apertureAccess
  /-- REGISTER_WRITE (R391): A write to a device register with no behaviour of its own. -/
  | registerWrite
  /-- BANDWIDTH_WINDOW_END (R404): At the end of each 4,096-cycle window, requests withheld by HBMBW or EXPBW are released and their issue resumes. -/
  | bandwidthWindowEnd
  /-- INTERFACE_ERROR (R385): A function's TDISP interface enters ERROR, leaves RUN, and its protected contexts are destroyed with jobs ending RESET. -/
  | interfaceError
  /-- MEMORY_MANAGER_MOVE (R307): The memory manager starts a page migration (or a sealed-buffer write-out) through the migration table. -/
  | memoryManagerMove
  /-- STREAM_FETCH_AHEAD (R240): A running read stream port reads or checks elements ahead of the popping instruction at a moment of its own choosing. -/
  | streamFetchAhead
  deriving DecidableEq, Repr

end Sys2Proof
end

