-- ==== Sys2Proof/Config.lean ====
section
/-! DEFINITION. What the part fixes (spec/00_scope.md R1, spec/01_machine_state.md R20) and the free values: opaque constants
without a body for what the spec leaves open, so that a statement about them holds for every value (log 10, 11, 12). -/

namespace Sys2Proof.Config

/-- CSR 0x300: the part code of Z9-4C576 (R20). -/
def partCode : Word := 0x0000_0000_0009_4C57
/-- CSR 0x302: cores in the device (R1, R20). -/
def ncores : Nat := 1536
/-- CSR 0x303: scratchpad per core in KiB (R20). -/
def spadKiB : Nat := 256
/-- CSR 0x304: core clock in MHz (R20). -/
def clkMHz : Nat := 940
/-- Bytes of a scratchpad (R296). -/
def spadBytes : Nat := 262144

/-- FREE VALUE (log 11): silicon stepping minus 1; R20 says it counts from 1. -/
opaque steppingM1 : Nat
/-- CSR 0x301 (R20). -/
def stepping : Word := BitVec.ofNat 64 (steppingM1 + 1)

/-- FREE VALUE (log 11): core-clock cycles that pass in the n-th step of the machine (R7: no timing is promised). -/
opaque stepCycles : Nat → Nat
/-- FREE VALUE (log 11): cycles that the n-th matrix operation occupies its engine, beyond the least that R265 states (R337). -/
opaque matrixCycles : Nat → Nat
/-- FREE VALUE (log 11): the n-th sensor reading of READ_COUNTER, by class and index (R410 classes 3 to 5). -/
opaque sensor : Nat → Nat → Nat → Word
/-- FREE VALUE (log 10): the operand from which on a transcendental's results reach a value, on one of the intervals where its function is monotonic (R133 to
R137): by function, format, mode, seed, interval and the value's bits; operands count from 0 in both directions in steps of their
format. -/
opaque transcAt : TFn → Fmt → RM → BitVec 32 → Int → Nat → Int
/-- FREE VALUE (log 14): what an AMO that a link lost leaves in its destination register (R401 states none). -/
opaque lostValue : Nat → Word
/-- FREE VALUE (log 12): byte i of the n-th draw of the security core's random source (R368, R371). -/
opaque randomByte : Nat → Nat → Byte
/-- FREE VALUE (log 12): the Cordwain ROM and the patch loaded at bring-up (R382). -/
opaque rom : List Byte
/-- FREE VALUE (log 12): the patch, if one was loaded (R382). -/
opaque patch : Option (List Byte)
/-- FREE VALUE (log 12): the n-th signature with the device identity key, over the given bytes (R382, R383). -/
opaque signature : Nat → List Byte → List Byte
/-- FREE VALUE (log 12): the certificate chain of SPDM slot 0 (R382). -/
opaque certChain : List Byte
/-- FREE VALUE (log 12): the device's exchange data and the secret it shares with a requester's (R384). -/
opaque spdmExchange : Nat → List Byte → List Byte
/-- FREE VALUE (log 12): the application secret of the n-th session (R378, R384). -/
opaque spdmSecret : Nat → List Byte → List Byte
/-- FREE VALUE (log 12): the verify data that a FINISH of the n-th session must carry (R384). -/
opaque spdmVerify : Nat → List Byte
/-- FREE VALUE (log 12): the export of the SPDM key schedule that wraps text keys, by the key updates the session has had and its
application secret (R378). -/
opaque spdmExport : Nat → List Byte → List Byte
/-- FREE VALUE (log 12): the response message that carries given contents, by message (R384, R385; DSP0274 lays messages out). -/
opaque spdmFrame : Nat → List Byte → List Byte
/-- FREE VALUE (log 12): the direction bit of the IV of flits that the device receives (R400). -/
opaque rxDirection : Bool
/-- FREE VALUE (log 18): the MAC of a line of a sealed buffer (R373, R374), 28 bits: by the slot's MAC key, ciphertext, local address, entry and SAVECTR. How GMAC
takes them the spec leaves open. -/
opaque lineMac : List Byte → List Byte → Nat → Nat → Nat → BitVec 28
/-- FREE VALUE (log 12): the number in the IV of a sub-link's peer, by the draw of the training (R400): its device number low bits, port and sub-link. -/
opaque peerLink : Nat → Nat
/-- FREE VALUE (log 60): the physical path that the route table of a context names for a logical cluster and a direction (R33, R366), by the
context's owner number and 4 × logical cluster + direction. -/
opaque routePath : Nat → Nat → Nat
/-- FREE VALUE (log 2): a copy, by core and count, was carried on a sub-link, where its function has several (R401). -/
opaque carriedOn : Nat → Nat → Nat → Bool
/-- FREE VALUE (log 12): byte i of the checkpoint key, derived from a fuse secret (R375). -/
opaque checkpointByte : Nat → Byte
/-- FREE VALUE (log 12): the value of the fuse-backed counter of entry 0 at the first cold reset (R374). -/
opaque fuseCounter : BitVec 20
/-- FREE VALUE (log 12): the rest of a measurement-dependent byte string the spec does not lay out: the TDISP device interface
report of a function (R383, R385). -/
opaque interfaceReport : Nat → List Byte

/-- The checkpoint key (R375). -/
def checkpointKey : List Byte := (List.range 32).map checkpointByte

/-- A key of 32 bytes, the n-th draw (R368). -/
def drawKey (n : Nat) : List Byte := (List.range 32).map (randomByte n)

end Sys2Proof.Config
end

