-- ==== Sys2Proof/Machine/State.lean ====
section
/-! DEFINITION. The state of the device as plain data (spec/01_machine_state.md, and the hardware chapters 16 to 24), the
reasons a step can stop, and the state after reset. Fields marked MODEL are the model's own, not the spec's. -/

namespace Sys2Proof.Machine

/-- Why the machine stops with a fault. -/
inductive Fault
  /-- An access whose leaf names a local address that the map of R295 leaves unpopulated. Raised by the access operations
  (Machine/Access.lean). Safe: the spec gives such an access no effect. -/
  | unpopulated (spa : Nat)
  deriving DecidableEq, Repr

/-- Why a step has no meaning. -/
inductive Refusal
  /-- An instruction whose meaning is not written. Raised by exec's arms only. Safe. -/
  | notModelled (mnemonic : String)
  deriving DecidableEq, Repr

/-- Bytes by address, in one canonical form: addresses strictly rising, no entry equal to what an unlisted address reads as. -/
abbrev Mem := List Host.Cell

/-- Data by number, in rising order of the number. -/
abbrev Map (α : Type) := List (Nat × α)

/-! ### Threads -/

/-- The loop registers of both loops (R11). -/
structure Loops where
  lc0 : Word := 0
  ls0 : Word := 0
  le0 : Word := 0
  lc1 : Word := 0
  ls1 : Word := 0
  le1 : Word := 0
  deriving DecidableEq, Repr

/-- The trap registers (R197) and the trap frame's seven words (R13). -/
structure TrapRegs where
  tcause : Word := 0
  taddr : Word := 0
  tpc : Word := 0
  tval : Word := 0
  tfLoops : Loops := {}
  tfStatus : Word := 0
  uvec : Word := 0
  tvec : Word := 0
  deriving DecidableEq, Repr

/-- The identity of a thread (R17, R18), its window size W (R9), its crew's allocation (R330) and its launch's share (R186). -/
structure Ident where
  cx : BitVec 6 := 0
  cy : BitVec 5 := 0
  nth : BitVec 5 := 0
  tix : BitVec 4 := 0
  w : Nat := 0
  crew : Word := 0
  launch : Word := 0
  extents : Word := 0
  alloc : Word := 0
  shw : Nat := 1
  deriving DecidableEq, Repr

/-- The states of a stream port (R232). -/
inductive PortState | unbound | bound | running
  deriving DecidableEq, Repr

/-- A stream port: its descriptor words, state, binding and elements left (R232, R234), and the elements a running read
stream has read ahead, by element number (R240). -/
structure Port where
  st : PortState := .unbound
  base : Word := 0
  d1 : Word := 0
  d2 : Word := 0
  d3 : Word := 0
  vreg : Nat := 0
  left : Nat := 0
  ahead : Map Word := []
  deriving DecidableEq, Repr

/-- A trap: cause code with its flag bits, taddr and tval (R197). -/
structure TrapInfo where
  cause : Word := 0
  taddr : Word := 0
  tval : Word := 0
  /-- a held report is of a matrix or orthogonal-accumulator operation, for which MSYNC waits (R269) -/
  mat : Bool := false
  deriving DecidableEq, Repr

/-- The trap causes of R198. -/
inductive Cause
  | illins | illbun | illpfx | priv | trap | ebrk | ovf | fpx | ialign | jbound | lpadx | lpnest | vwin
  | align | vaddr | spaddr | pfault | rights | stale | poison | aliasamo | amohost | range
  | msglen | inboxq | inboxe | barmem | barbusy | bardup | barovf | lrec | lqfull
  | mcfg | mshape | shfmt | qovf | resfld | strflt
  deriving DecidableEq, Repr

/-- Where a checked access goes (R142): a global byte by virtual address with its leaf entry, a scratchpad byte of a physical
core, or a byte of the device register window. -/
inductive Target
  | glob (va : Nat) (pte : Word) (spa : Nat)
  | spad (core off : Nat)
  | dev (off : Nat)
  deriving DecidableEq, Repr

/-- What a thread waits for (R171, R175, R178, R182, R184, R195, R217, R248, R269, R222, R305, R404, R406). The forms ending
in Ok hold the outcome a wake has given; the step then issues again and completes. -/
inductive Wait
  | none
  | waitc (n : Cnt) (thr : Word) | waitcOk (v : Word)
  | deq | deqOk (w0 w1 : Word)
  | cbar | cbarOk | phase | phaseOk
  | barwait (b : BarNo) (g : BitVec 32) | barwaitOk
  | nap (mask : BitVec 3) (hit : Bool) | napOk
  | msync | msyncOk
  | free (d : Reg) (id : Nat)
  | lcancel (d : Reg) (n : Nat)
  | cpyk (d : Reg) (h : Word)
  | queueFull
  | fault (p : Word) (fetch : Bool) (info : TrapInfo)
  | bandwidth
  | dirtyLog
  | sealed (x : Nat)
  /-- dirty bytes of the core's L1 must reach memory first and their page, home or limit is not ready (R157, R305, R373, R404) -/
  | flush
  /-- locked lines have still to be filled again by IFENCE (R207); the outcome lets it go on with those that are left -/
  | refill | refillOk
  /-- DONE of a pair whose slot A queued a vector operation: the thread ends when its vector operations have completed (R223, R239) -/
  | ending
  /-- a trap that waits for the thread's vector operations, with the tpc it will have (R201, R223) -/
  | trapping (i : TrapInfo) (tpc : Word)
  deriving DecidableEq, Repr

/-- A queued vector operation (R222, R223) as its issue computed it (log 9): what it writes when it completes (a vector register, a
general or floating register, bytes to checked targets in lane order with their pointers), the POISON its lanes report, the
flags it raised and those enabled at issue (R224); the address of the step that issued it. -/
structure VecOp where
  /-- number of the operation among those of its core. MODEL. -/
  seq : Nat := 0
  pc : Word
  /-- its instruction word, which names its registers (R223) -/
  word : BitVec 32 := 0
  vd : Option (VReg × V512) := none
  gd : Option (Reg × Word) := none
  fd : Option (Reg × Word) := none
  stores : List (Target × List Byte × Word) := []
  reports : List TrapInfo := []
  flags : BitVec 6 := 0
  enabled : BitVec 6 := 0
  /-- a limit or the dirty-log throttle withholds a request of it (R404, R406) -/
  withheld : Bool := false
  deriving DecidableEq, Repr

/-- The matrix and orthogonal-accumulator operations that enter the queue (R266, R276). -/
inductive MatKind
  | tcfg (k : Tile) (cfg : Word)
  | tld (k : Tile) (a str : Word) | tst (k : Tile) (a str : Word) | tz (k : Tile) | tscl (k : Tile) (a str : Word)
  | mma (ta tb : Bool) (rm : RM) (ad : Acc) (ka kb : Tile)
  | acz (ad : Acc) (shape : Word) | acld (ad : Acc) (a str : Word) | acst (ad : Acc) (a str : Word)
  | accv (rm : RM) (sat : Bool) (k : Tile) (aa : Acc) (fmt : Option Fmt)
  | qcfg (q : QReg) (cfg : Word) | qz (q : QReg)
  | qapp (rm : RM) (q : QReg) (k : Tile) (tau : Word) (col : BitVec 4)
  | qapl (t : Bool) (rm : RM) (ad : Acc) (q : QReg) | qapr (t : Bool) (rm : RM) (ad : Acc) (q : QReg)
  | qfold (rm : RM) (q : QReg)
  | qst (q : QReg) (a : Word) | qform (rm : RM) (q : QReg) (a str : Word)
  deriving DecidableEq, Repr

/-- A matrix operation with its first seed (R50), the lines its issue checked (R257, R267) by line pointer, and its step. -/
structure MatOp where
  /-- number of the operation among those of its core. MODEL. -/
  seq : Nat := 0
  pc : Word
  kind : MatKind
  seed : BitVec 32 := 0
  lines : List (Word × Target) := []
  /-- the engine has begun serving it (R267) -/
  begun : Bool := false
  /-- elements that a store of it has written, where one of them has had to wait (R258) -/
  written : Nat := 0
  /-- a limit or the dirty-log throttle withholds a request of it (R404, R406) -/
  withheld : Bool := false
  /-- the 64 KiB page whose fault record it waits on (R305), and whether the memory manager rejected it -/
  waitPage : Option Nat := none
  rejected : Bool := false
  /-- the line that it waits for, or whose page was rejected (R267) -/
  failPtr : Word := 0
  deriving DecidableEq, Repr

/-- The outcome of a copy that has ended (R247). -/
inductive CopyState | queued | running | done | killed | failed
  deriving DecidableEq, Repr

/-- A copy: its record words (R242), handle count (R244), first seed, and progress: the next window element, the next stream
seed, flags, how it ends and with which status and pointer. -/
structure CopyOp where
  /-- number of the operation among those of its core. MODEL. -/
  seq : Nat := 0
  pc : Word
  words : List Word
  count : Nat
  seed : BitVec 32 := 0
  next : Nat := 0
  flags : BitVec 6 := 0
  st : CopyState := .queued
  status : BitVec 8 := 0
  failPtr : Word := 0
  shale : Bool := false
  /-- the line pointers whose check has passed, with their targets (R246) -/
  srcLines : List (Word × Target) := []
  dstLines : List (Word × Target) := []
  /-- a limit or the dirty-log throttle withholds a request of it (R404, R406) -/
  withheld : Bool := false
  /-- a kill waits for the next line (R248) -/
  kill : Bool := false
  /-- a cancellation discards its entry (R193) -/
  cancelled : Bool := false
  /-- the 64 KiB page whose fault record it waits on (R305), and whether the memory manager rejected it -/
  waitPage : Option Nat := none
  rejected : Bool := false
  /-- bytes of the destination line under way, by offset, not yet written (R62, R250) -/
  buf : List (Nat × Byte) := []
  /-- the low half of a byte of that line, whose high half has still to come (R40, R245) -/
  half : Option (Nat × Byte) := none
  deriving DecidableEq, Repr

/-- An entry of a thread's two-entry queue (R222). -/
inductive QOp
  | vec (v : VecOp) | mat (m : MatOp) | copy (c : CopyOp)
  deriving DecidableEq, Repr

/-- A hardware thread context (R8), with its stream ports (R232), held reports (R201), queue (R222) and barrier arrivals
(R178, R184). -/
structure Thread where
  live : Bool := false
  pc : Word := 0
  g : Vector Word 32 := .replicate 32 0
  f : Vector Word 32 := .replicate 32 0
  v : Vector V512 64 := .replicate 64 0
  loops : Loops := {}
  status : Word := 0
  fflags : BitVec 6 := 0
  fenable : BitVec 6 := 0
  srseed : BitVec 32 := 1
  tr : TrapRegs := {}
  id : Ident := {}
  ports : Vector Port 4 := .replicate 4 {}
  reports : List TrapInfo := []
  merged : Word := 0
  wait : Wait := .none
  queue : List QOp := []
  /-- the thread has arrived at its crew's barrier, and the generation it arrived in has completed (R178) -/
  cbarArrived : Bool := false
  cbarDone : Bool := false
  /-- the thread's vote while it has arrived at the open phase, and the phase's result once it has completed (R184) -/
  vote : Option (BitVec 32) := none
  phaseRes : Option Word := none
  /-- the thread has been stopped by a cancellation (R193) -/
  stopped : Bool := false
  /-- a save stopped the thread in FREE, LCANCEL or CPYK while it held a report: the trap falls at the boundary where that
  instruction completes, and is entered before the save (R201, R344) -/
  trapDue : Bool := false
  deriving DecidableEq, Repr

/-! ### Cores -/

/-- A tile register: configuration, elements and side band (R22, R252, R255); poison (R357). -/
structure TileReg where
  cfg : Word := 0
  data : Mem := []
  /-- the 256 bytes of the side band -/
  band : Mem := []
  poison : Bool := false
  deriving DecidableEq, Repr

/-- An accumulator: shape and elements (R22, R261); poison (R357). -/
structure AccReg where
  shape : Word := 0
  data : Mem := []
  poison : Bool := false
  deriving DecidableEq, Repr

/-- An orthogonal accumulator: status word (R273) and the arrays Y, T and E (R272); poison (R357). -/
structure OrthReg where
  st : Word := 0
  y : Mem := []
  t : Mem := []
  e : Mem := []
  poison : Bool := false
  deriving DecidableEq, Repr

/-- An inbox entry (R174) or, before its operation ends, a reservation (R173). -/
structure InboxEntry where
  slot : Nat
  w0 : Word
  w1 : Word
  deriving DecidableEq, Repr

/-- An instruction-cache line of 128 bytes (R208): the line's pointer and place, its bytes, which of its two 64-byte halves have
passed their fetch check (R198) and which are poisoned for issue (R207, R355, R379), and whether it is locked. -/
structure ILine where
  ptr : Word
  /-- its virtual address, or 2^56 × (1 + core) + offset for a line of a scratchpad: what tells locked lines apart (log 51) -/
  key : Nat
  bytes : List Byte
  ok : BitVec 2 := 3
  bad : BitVec 2 := 0
  locked : Bool := false
  /-- its tag failed (R379) -/
  tagBad : Bool := false
  /-- a locked line that has still to be filled again (R207, R381) -/
  stale : Bool := false
  /-- a restore locks it again: where its fill fails it is not locked and LL is set (R210) -/
  relock : Bool := false
  /-- the 64 KiB page whose fault record its fill waits on (R305) -/
  waitPage : Option Nat := none
  deriving DecidableEq, Repr

/-- A byte that an L1 holds (R157, R297), with the slot, the pointer and the step of the store that made it dirty (R401). -/
structure L1Byte where
  va : Nat
  b : Byte
  dirty : Bool
  slot : Nat := 0
  ptr : Word := 0
  pc : Word := 0
  deriving DecidableEq, Repr

/-- A byte that a thread has stored and that no IFENCE of it has followed (R207): its place, which is its virtual address, or
2^56 × (1 + core) + offset for a byte of a scratchpad, and what stood there before. MODEL. -/
structure Unfenced where
  slot : Nat
  place : Nat
  old : Byte
  deriving DecidableEq, Repr

/-- A translation that a TLB holds (R303): first virtual address, size and leaf. -/
structure TlbEntry where
  va : Nat
  size : Nat
  leaf : Word
  deriving DecidableEq, Repr

/-- A non-leaf entry that a page-walk unit keeps (R303): its level, the first virtual address it covers, and the entry. -/
structure WalkEntry where
  lvl : Nat
  va : Nat
  e : Word
  deriving DecidableEq, Repr

/-- A rights entry (R313), its fields by name. -/
structure REntry where
  base : Nat
  len : Nat
  age : BitVec 8
  rights : BitVec 4
  dm : Bool := false
  gid : Nat
  pgid : Nat := 0
  pown : Nat := 0
  deriving DecidableEq, Repr

/-- A rights entry that a PLB holds for an owner (R317). -/
structure PlbEntry where
  owner : Nat
  e : REntry
  deriving DecidableEq, Repr

/-- A copy that has ended, as the engine remembers it (R248). -/
structure CopyDone where
  count : Nat
  st : CopyState
  status : BitVec 8
  bytes : Nat
  deriving DecidableEq, Repr

/-- A core (R22): owner register, threads by slot, engine registers, counters, inbox, scratchpad, instruction cache, L1, TLB,
PLB, engines and issue state. Physical core number = 48 × (8 × die + cluster) + position. -/
structure Core where
  owner : BitVec 16 := 0
  threads : Map Thread := []
  tiles : Map TileReg := []
  accs : Map AccReg := []
  qs : Map OrthReg := []
  cnts : Map Word := []
  inbox : List InboxEntry := []
  /-- reservations by slot, with the request they belong to (R173) -/
  resv : List (Nat × Nat) := []
  spad : Mem := []
  spadPoison : List Nat := []
  icache : List ILine := []
  l1 : List L1Byte := []
  unfenced : List Unfenced := []
  tlb : List TlbEntry := []
  plb : List PlbEntry := []
  /-- the device cycle at which the core was last reset (R20) -/
  born : Nat := 0
  /-- the OR and the sum of the votes of its threads that ended after they had arrived at the open phase (R184) -/
  endedOr : BitVec 32 := 0
  endedSum : BitVec 32 := 0
  /-- matrix operations the engine has accepted, in order of acceptance, with their slots (R336) -/
  mx : List (Nat × MatOp) := []
  /-- vector operations accepted, with their slots -/
  vx : List (Nat × VecOp) := []
  /-- the copy each slot has in progress (R336) -/
  cps : Map CopyOp := []
  hist : List CopyDone := []
  copies : Nat := 0
  /-- operations that its threads have queued. MODEL. -/
  ops : Nat := 0
  leader : Option Nat := none
  /-- the slot that led last (R334) -/
  lastLead : Nat := 15
  /-- cycles that the leader has led -/
  leadCount : Nat := 0
  /-- in this cycle the leader made an off-core reference or issued YIELD (R334) -/
  passes : Bool := false
  /-- the members of the issue group that have still to issue in the cycle under way (R335) -/
  group : List Nat := []
  /-- the deficits of R337, by engine (0 vector, 1 matrix, 2 copy) × 16 + slot -/
  deficit : Map Int := []
  /-- the slot that each engine visited last (R337) -/
  last : Map Nat := []
  /-- one step in `rate` cycles may issue (R412) -/
  rate : Nat := 1
  /-- a KEY_UPDATE boundary this core has still to take: the window, and whether it has begun and waits for refills (R381) -/
  textSwitch : Option Nat := none
  switchBegun : Bool := false
  deriving DecidableEq, Repr

/-- A cluster barrier (R179, R180): member mask, mode, completed-generation count, arrival counts by position. -/
structure Barrier where
  mask : BitVec 48 := 0
  strict : Bool := false
  gen : BitVec 32 := 0
  n : Map Nat := []
  deriving DecidableEq, Repr

/-- What a cluster holds beside its cores: its barriers (R179), its TLB (R303) and its PLB (R317). -/
structure Cluster where
  bars : Map Barrier := []
  tlb : List TlbEntry := []
  plb : List PlbEntry := []
  deriving DecidableEq, Repr

/-! ### Work -/

/-- How far a crew of a launch is: the core and slots it runs on, its scratchpad range (R330), its linear index (R16). -/
structure Crew where
  core : Nat
  slots : List Nat
  base : Nat := 0
  size : Nat := 0
  deriving DecidableEq, Repr

/-- A launch (R186, R327): its record as read at LAUNCH, its place, its level and clocks, its progress. -/
structure Launch where
  ptr : Word
  /-- bits 511 to 0 of the record, read once (R188) -/
  recd : BitVec 512
  owner : Nat
  parent : Nat := 0
  /-- pool slot, or none while it is in the spill queue (R332) -/
  slot : Option Nat := none
  spillNo : Nat := 0
  depMet : Bool := false
  level : Nat := 0
  /-- order of entry into its level (R329), from 1; 0 before it enters one -/
  order : Nat := 0
  waitClk : Nat := 0
  blockClk : Nat := 0
  state : BitVec 8 := 0
  started : Nat := 0
  doneCrews : Nat := 0
  crews : Map Crew := []
  ecause : Word := 0
  failCrew : Word := 0
  phaseNo : Nat := 0
  /-- cancelled (R193), and by which thread's LCANCEL -/
  cancelled : Bool := false
  canceller : Option (Nat × Nat) := none
  /-- how far its completion is (R190): 0 not begun, 1 STATE is written, 2 the counter at CCADDR has risen; it waits between them while a
  write of the device for it waits -/
  closing : Nat := 0
  /-- completed (R190); a completed launch is remembered until its job ends, as the parent of those it created (R192) -/
  completed : Bool := false
  deriving DecidableEq, Repr

/-- The end status of a job (R409). -/
inductive JobStatus | running | done | cancelled | hang | reset | alarm | noJob
  deriving DecidableEq, Repr

/-- A job (R34, R325): scheduling word, spill queue, root launch, clocks and counts. -/
structure Job where
  sched : Word
  spillBase : Word := 0
  spilled : Nat := 0
  root : Nat := 0
  progress : Nat := 0
  doneLaunches : Nat := 0
  graphs : Map Nat := []
  /-- round-robin pointer of each level: the order number of the launch that it names (R329) -/
  rr : Map Nat := []
  nextOrder : Nat := 0
  /-- the progress clock has reached its limit in a cycle in which it advanced (R340) -/
  expired : Bool := false
  /-- the status it will end with, once a cancellation or the watchdog has decided it (R192, R340) -/
  ending : Option JobStatus := none
  deriving DecidableEq, Repr

/-- Whether a context runs, runs on in a grace period, is being saved, is saved (R342 to R345), or is being destroyed (R367). -/
inductive SaveState | running | grace | draining | saved | gone
  deriving DecidableEq, Repr

/-- A pre-emption request (R342): grace period left in cycles, destination, size, the function that it answers and whether it is
cooperative. -/
structure PreReq where
  left : Nat := 0
  dest : Nat := 0
  size : Nat := 0
  fn : Option Nat := none
  coop : Bool := false
  checkpoint : Bool := false
  /-- the drain has ended and the header of the image is written (R345, R353) -/
  begun : Bool := false
  deriving DecidableEq, Repr

/-- A text window (R377) with its text key. -/
structure TextWin where
  valid : Bool := false
  textBase : Word := 0
  len : Word := 0
  tagBase : Word := 0
  epoch : BitVec 32 := 0
  key : List Byte := []
  deriving DecidableEq, Repr

/-- A context (R34, R364 to R367): its owner number is its key in State.ctxs. -/
structure Ctx where
  fn : Nat := 0
  prot : Bool := false
  /-- the core table: logical cluster → physical cluster (R365) -/
  tab : Map Nat := []
  /-- the route table: 4 × logical cluster + direction (+X, −X, +Y, −Y) → physical path (R33, R366). It changes latency only. -/
  routes : Map Nat := []
  svec : Word := 0
  rights : List REntry := []
  /-- lines of the rights table whose MAC fails, by number (R316) -/
  badRights : List Nat := []
  cap : Nat := 1024
  allow : Word := 0
  audit : Word := 0
  aliasSat : Word := 0
  phases : Nat := 0
  keySlot : Nat := 0
  key : List Byte := []
  vidx : Nat := 0
  wins : Map TextWin := []
  job : Option Job := none
  lastStatus : JobStatus := .noJob
  lastDone : Nat := 0
  cyclesRun : Nat := 0
  /-- the launch and core of the context's reservation (R331) -/
  resv : Option (Nat × Nat) := none
  save : SaveState := .running
  pre : Option PreReq := none
  /-- the JOB_CANCELs that wait for the save: the functions to answer (R346) -/
  cancelWaits : List Nat := []
  /-- the CTX_DESTROYs that wait for the save (R367) -/
  destroyWaits : List Nat := []
  /-- where the image of the last save stands, and its length (R345; R374) -/
  imgAt : Nat := 0
  imgLen : Nat := 0
  /-- a KEY_UPDATE that cores have still to take (R381): window number, the window before it, the function to answer -/
  oldWin : Option (Nat × TextWin × Option Nat) := none
  tagSeq : Nat := 0
  /-- what its threads have stored without an IFENCE since, by logical core, while it is saved (R207). MODEL. -/
  unfenced : Map (List Unfenced) := []
  deriving DecidableEq, Repr

/-! ### The hub and the outside -/

/-- A PUT or PUTB in flight (R168 to R170): issuing core and slot, target core and offset, bytes, counter. -/
structure Msg where
  fromCore : Nat
  slot : Nat
  owner : Nat
  core : Nat
  off : Nat
  data : List Byte
  cnt : Nat
  deriving DecidableEq, Repr

/-- What asked the security core for a change of rights (R212). -/
inductive SecKind
  | grant (target : Nat) (rights : BitVec 4)
  | revoke (target : Nat)
  | free (d : Reg)
  | removeRoot (gid : Nat) (answer : Option Nat)
  /-- the destruction of the requesting owner's context (R367), with the function whose CTX_DESTROY it answers -/
  | destroy (answer : Option Nat)
  deriving DecidableEq, Repr

/-- A request to the security core, in issue order (R212): issuing core, slot and owner, range, age and tag. -/
structure SecReq where
  kind : SecKind
  core : Nat := 0
  slot : Nat := 0
  owner : Nat
  base : Nat := 0
  lines : Nat := 0
  age : BitVec 8 := 0
  ptr : Word := 0
  tag : Nat := 0
  deriving DecidableEq, Repr

/-- A revocation cut under way (R320): the request it serves, the owners and lines, the cores that have still to take their
cut and those that have still to acknowledge, and what the request will report. -/
structure Cut where
  req : SecReq
  owners : List Nat
  base : Nat
  lines : Nat
  toCut : List Nat
  toAck : List Nat
  /-- by core: the accesses on the range that had passed their check at its cut and were not performed, each by its operation's number
  and its pointer (R320 item 4) -/
  held : Map (List (Nat × Word)) := []
  value : Nat := 0
  status : BitVec 8 := 0
  deriving DecidableEq, Repr

/-- A request for migration or replication (R249): its pages are handled in address order. -/
structure PageReq where
  core : Nat := 0
  slot : Nat := 0
  owner : Nat := 0
  ptr : Word
  pages : Nat
  handled : Nat := 0
  /-- migrate to a tier and die, or replicate on a die mask -/
  repl : Option (BitVec 4) := none
  tier : Tier := .hbm
  die : Nat := 0
  tag : Nat := 0
  /-- MIGR and REPL post an entry; a move the memory manager starts posts none -/
  post : Bool := true
  status : BitVec 8 := 0
  ended : Bool := false
  /-- the migration-table entry of the page under way (R307) -/
  mig : Option Nat := none
  /-- the version-table entry of the sealed buffer that the move forms (R373) -/
  sbuf : Option Nat := none
  /-- the 64 KiB page whose fault record it waits on (R305), and whether the memory manager rejected it -/
  waitPage : Option Nat := none
  rejected : Bool := false
  deriving DecidableEq, Repr

/-- An entry of the migration table (R307): virtual page, source and destination frames, lines in all, progress pointer. -/
structure MigEntry where
  va : Nat
  src : Nat
  dst : Nat
  lines : Nat
  p : Nat := 0
  /-- the leaf already names the destination -/
  atDst : Bool := false
  /-- the HBM stack whose controller holds the entry -/
  stack : Nat := 0
  deriving DecidableEq, Repr

/-- An outstanding or waiting fault record (R305): pointer, reason and level, kind, owner; its tag once it is written. -/
structure FaultRec where
  page : Nat
  p : Word
  reason : BitVec 4
  level : BitVec 2
  kind : BitVec 2
  fetch : Bool
  owner : Nat
  fn : Nat
  span : Nat := 16
  tag : Option Nat := none
  deriving DecidableEq, Repr

/-- A write to a replicated page that waits for the sequencer (R163, R309): home address, bytes. -/
structure SeqWrite where
  core : Nat
  spa : Nat
  data : List Byte
  deriving DecidableEq, Repr

/-- A write that the device makes for an owner: the pointer, the bytes, or an increment of an 8-byte counter; it is checked under R142 at
the moment it is made (R190) unless it needs no check (R332). It waits while its page faults (R305), its limit withholds it (R404) or its
sealed buffer moves (R373). -/
structure DevWrite where
  owner : Nat
  ptr : Word
  data : List Byte := []
  incr : Bool := false
  checked : Bool := true
  deriving DecidableEq, Repr

/-- The keys of a key slot (R368): AES-256-XTS, 64 bytes, and MAC, 32 bytes. -/
structure SlotKey where
  xts : List Byte := []
  mac : List Byte := []
  deriving DecidableEq, Repr

/-- A RAS log record (R358). -/
structure RasRec where
  w0 : Word
  w1 : Word
  w2 : Word
  w3 : Word
  deriving DecidableEq, Repr

/-- A version-table entry (R372). -/
structure VEntry where
  saveCtr : Nat := 0
  attempt : Nat := 0
  owner : Nat := 0
  kind : Nat := 0
  /-- lines of the sealed buffer: frames (R373) -/
  frames : List Nat := []
  deriving DecidableEq, Repr

/-- A frame key table entry (R369). -/
structure FrameKey where
  vab : Nat := 0
  vidx : Nat := 0
  kslot : Nat := 0
  deriving DecidableEq, Repr

/-- A Swisan sub-link (R398 to R401), by number 4 × port + sub-link. -/
structure SubLink where
  owner : Option Nat := none
  up : Bool := true
  rxSeq : Nat := 0
  txSeq : Nat := 0
  rxKey : List Byte := []
  txKey : List Byte := []
  /-- the peer's device number low bits, port and sub-link, as they stand in the IV of what it sends -/
  peer : Nat := 0
  /-- tag failures in a row on rxSeq -/
  tagFails : Nat := 0
  replay : List (List Byte) := []
  rxPayloads : List (List Byte) := []
  /-- the receiver has sent a negative acknowledgement and discards later flits -/
  naking : Bool := false
  flits : Nat := 0
  deriving DecidableEq, Repr

/-- The states of a TDISP interface (R385). -/
inductive Tdisp | unlocked | locked | run | error
  deriving DecidableEq, Repr

/-- The SPDM connection of a function (R384, R378): how far the negotiation is, the session and its counters, and the last
response. -/
structure Spdm where
  version : Bool := false
  caps : Bool := false
  algs : Option SpdmDhe := none
  session : Option Nat := none
  handshake : Option Nat := none
  secret : List Byte := []
  keyGen : Nat := 0
  lastCounter : Option Nat := none
  response : List Byte := []
  deriving DecidableEq, Repr

/-- A function's BAR0 registers (R391), configuration record (R403), TDISP and SPDM state, and bandwidth use (R404). -/
structure Func where
  cmdSeq : BitVec 16 := 0
  cmdOp : BitVec 8 := 0
  stSeq : BitVec 16 := 0
  stStatus : BitVec 8 := 0
  stErr : Bool := false
  busy : Bool := false
  req : Mem := []
  resp : Mem := []
  fqBase : Word := 0
  fqCtl : Word := 0
  fqProd : BitVec 32 := 0
  fqCons : BitVec 32 := 0
  fqErr : Bool := false
  dlBase : Word := 0
  dlCtl : Word := 0
  dlProd : BitVec 32 := 0
  dlCons : BitVec 32 := 0
  /-- a write of RST waits until the logged writes are performed (R405) -/
  dlRst : Bool := false
  msix : Mem := []
  pend : BitVec 8 := 0
  /-- messages sent, by vector (R393). MODEL. -/
  sent : Map Nat := []
  cfg : Mem := []
  /-- a function-level reset of it is under way (R353) -/
  flr : Bool := false
  tdisp : Tdisp := .unlocked
  spdm : Spdm := {}
  hbmUsed : Nat := 0
  expUsed : Nat := 0
  deriving DecidableEq, Repr

/-- Device registers of translation and scheduling (R299, R326) and what stands behind them. -/
structure DevRegs where
  ttroot : Map Word := []
  tlbi : Option (Nat × Nat) := none
  tlbiErr : Bool := false
  /-- by core: the accesses on the range that were translated before the invalidation began and were not performed (R304) -/
  tlbiHeld : Map (List (Nat × Word)) := []
  npcfg : Word := 0
  mxbase : Word := 0
  mxlim : Word := 0
  mxscale : Word := 0
  devnum : BitVec 19 := 0
  ckbase : Word := 0
  ffr : Map Word := []
  promo : Map Word := []
  draint : Word := 0x0010_0000
  deriving DecidableEq, Repr

/-- The hub (R1, R34, R212, R307, R309, R314, R358, R368, R372): counters, tables and queues. -/
structure Hub where
  nextLaunch : Nat := 1
  nextGid : Nat := 1
  /-- FREE requests sent. MODEL. -/
  frees : Nat := 0
  draws : Nat := 0
  vtab : Map VEntry := [(0, { kind := 3, saveCtr := Config.fuseCounter.toNat })]
  fkt : Map FrameKey := []
  /-- replica maps: die × 2^48 + home frame → local frame (R309) -/
  replicas : Map Nat := []
  mig : Map MigEntry := []
  pageReqs : List PageReq := []
  msgs : List Msg := []
  seqQ : List SeqWrite := []
  secQ : List SecReq := []
  cuts : List Cut := []
  faults : List FaultRec := []
  nextTag : Nat := 0
  ras : List RasRec := []
  rasLost : Nat := 0
  alarm3 : Bool := false
  tagFails : Nat := 0
  links : Map SubLink := []
  expDown : List Nat := []
  cmdQ : List Nat := []
  /-- second-tier frames that have been mapped or handed out, and zeroed, since the cold reset (R411) -/
  seen : List Nat := []
  /-- lines whose MAC fails when they are read (R370, R373), and lines whose transfer over the die-to-stack link fails its tag
  twice when they are next read (R371), by SPA divided by 64 -/
  macBad : List Nat := []
  linkBad : List Nat := []
  /-- the keys of the key slots (R368), and the keys of the die-to-stack links, by 2 × stack + direction (R371) -/
  slotKeys : Map SlotKey := []
  stackKeys : Map (List Byte) := []
  /-- level-2 alarms that have still to be raised, by owner (R316, R359) -/
  alarms : List Nat := []
  /-- writes of the device that wait, oldest first -/
  devQ : List DevWrite := []
  /-- the number of the bandwidth window of 4,096 cycles under way (R404) -/
  window : Nat := 0
  /-- the function whose CHECKPOINT waits for the contexts' drains (R374) -/
  ckpt : Option Nat := none
  /-- a cold reset has still to clear BUSY (R411) -/
  booting : Bool := false
  deriving DecidableEq, Repr

/-! ### The machine -/

/-- How the step under way chooses the next PC (R111): after the step with an end test, by a transfer, straight to an address
(trap entry, RETT, loop set-up), or not at all (a wait or a stall). MODEL. -/
inductive Disp | seq | xfer (t : Word) | goto (t : Word) | stay
  deriving DecidableEq, Repr

/-- The step under way: the executing word, its address and whether it stands in slot A, the address after the step, how the PC
is chosen, and the trap taken, if any. MODEL. -/
structure Issue where
  word : BitVec 32 := 0
  slotA : Bool := false
  addr : Word := 0
  next : Word := 0
  disp : Disp := .seq
  trap : Option TrapInfo := none
  deriving DecidableEq, Repr

/-- A turn given from outside (log 1): a step of the device with its parameters, the issue of a step by a given thread, the
passing of cycles, the L1 of a core giving up a line, or an outside change of stored bits: a line of memory, a transfer block of a
die-to-stack link, or a line of an owner's rights table (R316, R370, R371). MODEL. -/
inductive Turn
  | event (i : Instr) (e : Ev)
  | issue (c sl : Nat)
  | tick (cycles : Nat)
  | evict (c : Nat) (line : Nat)
  | corrupt (line : Nat)
  | corruptLink (line : Nat)
  | corruptRights (o i : Nat)
  deriving DecidableEq, Repr

/-- The state of the device. -/
structure State where
  cores : Map Core := []
  clusters : Map Cluster := []
  ctxs : Map Ctx := []
  launches : Map Launch := []
  /-- the non-leaf entries that each compute die's page-walk unit keeps (R303) -/
  walks : Map (List WalkEntry) := []
  fns : Map Func := []
  /-- bytes by system physical address (R295) -/
  mem : Mem := []
  /-- poisoned 64-byte lines, by SPA divided by 64 (R356) -/
  poison : List Nat := []
  /-- the lines that each die cache holds, the last used first (R298) -/
  dies : Map (List Nat) := []
  /-- what backing memory holds of a line whose die-cache copy, in mem, is newer, by SPA divided by 64 (R151, R298, R311) -/
  stored : Map (List Byte) := []
  /-- the MACs that the expanders' per-line metadata hold for a checkpoint region, by SPA divided by 64 (R373, R374) -/
  lineMacs : Map (BitVec 28) := []
  dev : DevRegs := {}
  hub : Hub := {}
  /-- the thread whose step is under way or issues next. MODEL. -/
  cur : Nat × Nat := (0, 0)
  /-- the step under way. MODEL. -/
  iss : Issue := {}
  /-- the parameters of the device step under way. MODEL. -/
  ev : Ev := {}
  /-- the turns given from outside. MODEL. -/
  turns : List Turn := []
  /-- counter that the free values are applied to. MODEL. -/
  free : Nat := 0
  /-- cycles since reset; how many passed in a step is a free value (log 11) -/
  now : Nat := 0
  deriving DecidableEq, Repr

/-- The keys that a draw gives a key slot (R368). -/
def SlotKey.draw (n : Nat) : SlotKey :=
  { xts := (List.range 64).map (Config.randomByte n), mac := (List.range 32).map (fun i => Config.randomByte n (64 + i)) }

/-- A sub-link that has been trained, its keys draws n and n + 1 (R400). -/
def SubLink.trained (n : Nat) (owner : Option Nat) : SubLink :=
  { owner, rxKey := Config.drawKey n, txKey := Config.drawKey (n + 1), peer := Config.peerLink n }

/-- The hub after a cold reset whose draws begin with draw d (R368, R371, R398, R411): slot 0's key, the keys of the two directions of each
stack's link, and the one sub-link of each port, trained and keyed. -/
def Hub.boot (d : Nat) : Hub :=
  { slotKeys := [(0, SlotKey.draw d)]
    stackKeys := (List.range 24).map (fun i => (i, (List.range 16).map (Config.randomByte (d + 1 + i))))
    links := (List.range 18).map (fun p => (4 * p, SubLink.trained (d + 25 + 2 * p) none))
    draws := d + 61 }

/-- The device right after a cold reset (R411): no context, every owner register 0, every register of R299 and R326 at its
reset value, HBM zeroed, the version table clear but for entry 0, the device's own keys drawn; DEVNUM as bring-up set it (log 4). -/
def State.reset : State :=
  { dev := { devnum := 0 }, hub := Hub.boot 0 }

end Sys2Proof.Machine
end

