-- ==== Sys2Proof/Machine/Data.lean ====
section
/-! DEFINITION. Operations on the state's plain data: maps by number, memories in canonical form, little-endian words
(spec/00_scope.md R3), and the homes of cores, threads and contexts in the state. -/

namespace Sys2Proof.Machine

/-! ### Maps -/

/-- The datum at a number. -/
def Map.find? {α : Type} : Map α → Nat → Option α
  | [], _ => none
  | (k, v) :: t, j => if j = k then some v else Map.find? t j

/-- The datum at a number, or a default. -/
def Map.getD {α : Type} (m : Map α) (k : Nat) (d : α) : α := (Map.find? m k).getD d

/-- The map with a datum at a number. -/
def Map.put {α : Type} : Map α → Nat → α → Map α
  | [], k, v => [(k, v)]
  | (k', v') :: t, k, v =>
    if k < k' then (k, v) :: (k', v') :: t
    else if k = k' then (k, v) :: t
    else (k', v') :: Map.put t k v

/-- The map without a number. -/
def Map.del {α : Type} (m : Map α) (k : Nat) : Map α := m.filter (fun e => e.1 != k)

/-- The map with a function applied to every datum. -/
def Map.mapV {α : Type} (m : Map α) (f : Nat → α → α) : Map α := m.map (fun e => (e.1, f e.1 e.2))

/-! ### Memories -/

/-- What an unlisted address reads as (R22, R411; log 5). -/
def Mem.unlisted : Byte := 0

/-- The byte at an address. -/
def Mem.get : Mem → Nat → Byte
  | [], _ => Mem.unlisted
  | (k, v) :: t, a => if a = k then v else if a < k then Mem.unlisted else Mem.get t a

/-- The memory with a byte written; a byte equal to what an unlisted address reads as is not listed. -/
def Mem.set : Mem → Nat → Byte → Mem
  | [], a, b => if b = Mem.unlisted then [] else [(a, b)]
  | (k, v) :: t, a, b =>
    if a < k then (if b = Mem.unlisted then (k, v) :: t else (a, b) :: (k, v) :: t)
    else if a = k then (if b = Mem.unlisted then t else (a, b) :: t)
    else (k, v) :: Mem.set t a b

/-- Every address of the memory lies at or above a bound, in rising order, and no entry is the unlisted byte. -/
def Mem.wfFrom : Nat → Mem → Bool
  | _, [] => true
  | lo, (k, v) :: t => decide (lo ≤ k) && decide (v ≠ Mem.unlisted) && Mem.wfFrom (k + 1) t

/-- The canonical form: addresses strictly rising, no entry equal to what an unlisted address reads as. -/
def Mem.wf (m : Mem) : Bool := Mem.wfFrom 0 m

/-- n bytes from an address on. -/
def Mem.bytes (m : Mem) (a : Nat) : Nat → List Byte
  | 0 => []
  | n + 1 => Mem.get m a :: Mem.bytes m (a + 1) n

/-- The memory with bytes written from an address on. -/
def Mem.setBytes (m : Mem) (a : Nat) : List Byte → Mem
  | [] => m
  | b :: t => Mem.setBytes (Mem.set m a b) (a + 1) t

/-- The number a list of bytes stands for: little-endian (R3). -/
def leNat : List Byte → Nat
  | [] => 0
  | b :: t => b.toNat + 256 * leNat t

/-- The n bytes of a number: little-endian (R3). -/
def leBytes : Nat → Nat → List Byte
  | 0, _ => []
  | n + 1, x => BitVec.ofNat 8 x :: leBytes n (x / 256)

/-- n bytes read as a number (R3). -/
def Mem.le (m : Mem) (a n : Nat) : Nat := leNat (Mem.bytes m a n)

/-- The memory with a number written in n bytes (R3). -/
def Mem.setLe (m : Mem) (a n x : Nat) : Mem := Mem.setBytes m a (leBytes n x)

/-! ### Words -/

/-- A field of a word replaced. -/
def setFld {n : Nat} (x : BitVec n) (lo len : Nat) (v : Nat) : BitVec n :=
  let m : BitVec n := BitVec.ofNat n ((2 ^ len - 1) <<< lo)
  (x &&& ~~~m) ||| BitVec.ofNat n ((v % 2 ^ len) <<< lo)

/-- One bit of a word. -/
def bitAt {n : Nat} (x : BitVec n) (i : Nat) : Bool := x.getLsbD i

/-- The word with one bit set to a value. -/
def setBit {n : Nat} (x : BitVec n) (i : Nat) (b : Bool) : BitVec n := setFld x i 1 (if b then 1 else 0)

/-- The largest n with 2 ^ n ≤ x (0 for x = 0). -/
def log2 (x : Nat) : Nat := x.log2

/-! ### Homes in the state -/

/-- A thread of a core by slot; a slot that holds none reads as the dead thread. -/
def Core.thread (k : Core) (sl : Nat) : Thread := Map.getD k.threads sl {}
/-- The core with a thread in a slot. -/
def Core.setThread (k : Core) (sl : Nat) (t : Thread) : Core := { k with threads := Map.put k.threads sl t }
/-- A tile register. -/
def Core.tile (k : Core) (i : Tile) : TileReg := Map.getD k.tiles i.toNat {}
/-- The core with a tile register. -/
def Core.setTile (k : Core) (i : Tile) (t : TileReg) : Core := { k with tiles := Map.put k.tiles i.toNat t }
/-- An accumulator. -/
def Core.acc (k : Core) (i : Acc) : AccReg := Map.getD k.accs i.toNat {}
/-- The core with an accumulator. -/
def Core.setAcc (k : Core) (i : Acc) (a : AccReg) : Core := { k with accs := Map.put k.accs i.toNat a }
/-- An orthogonal accumulator. -/
def Core.orth (k : Core) (i : QReg) : OrthReg := Map.getD k.qs i.toNat {}
/-- The core with an orthogonal accumulator. -/
def Core.setOrth (k : Core) (i : QReg) (q : OrthReg) : Core := { k with qs := Map.put k.qs i.toNat q }
/-- A message counter (R166). -/
def Core.cnt (k : Core) (n : Nat) : Word := Map.getD k.cnts n 0
/-- A hardware context that naps on a counter write has its event (R195). -/
def Wait.onCounter : Wait → Wait
  | .nap m h => .nap m (h || bitAt m 1)
  | w => w
/-- A hardware context that naps on a posted entry has its event (R195). -/
def Wait.onPost : Wait → Wait
  | .nap m h => .nap m (h || bitAt m 0)
  | w => w
/-- A hardware context that naps on a barrier generation has its event (R195). -/
def Wait.onBarrier : Wait → Wait
  | .nap m h => .nap m (h || bitAt m 2)
  | w => w
/-- The core with a counter written; threads that nap on a counter have their event (R166, R195). -/
def Core.setCnt (k : Core) (n : Nat) (v : Word) : Core :=
  { k with cnts := Map.put k.cnts n v, threads := Map.mapV k.threads (fun _ t => { t with wait := t.wait.onCounter }) }

/-- A core of the device by physical number. -/
def State.core (s : State) (c : Nat) : Core := Map.getD s.cores c {}
/-- The device with a core. -/
def State.setCore (s : State) (c : Nat) (k : Core) : State := { s with cores := Map.put s.cores c k }
/-- A thread by physical core and slot. -/
def State.thread (s : State) (c sl : Nat) : Thread := (s.core c).thread sl
/-- The device with a thread. -/
def State.setThread (s : State) (c sl : Nat) (t : Thread) : State := s.setCore c ((s.core c).setThread sl t)
/-- The core of the current thread. -/
def State.cpu (s : State) : Core := s.core s.cur.1
/-- The device with the current thread's core. -/
def State.setCpu (s : State) (k : Core) : State := s.setCore s.cur.1 k
/-- The current thread: the one whose step is under way. -/
def State.th (s : State) : Thread := s.thread s.cur.1 s.cur.2
/-- The device with the current thread. -/
def State.setTh (s : State) (t : Thread) : State := s.setThread s.cur.1 s.cur.2 t
/-- A cluster by physical number, 8 × die + cluster. -/
def State.cluster (s : State) (i : Nat) : Cluster := Map.getD s.clusters i {}
/-- The device with a cluster. -/
def State.setCluster (s : State) (i : Nat) (k : Cluster) : State := { s with clusters := Map.put s.clusters i k }
/-- A context by owner number; an owner number without a context reads as an empty one. -/
def State.ctx (s : State) (o : Nat) : Ctx := Map.getD s.ctxs o {}
/-- The device with a context. -/
def State.setCtx (s : State) (o : Nat) (k : Ctx) : State := { s with ctxs := Map.put s.ctxs o k }
/-- A function by number. -/
def State.fnc (s : State) (i : Nat) : Func := Map.getD s.fns i {}
/-- The device with a function. -/
def State.setFn (s : State) (i : Nat) (k : Func) : State := { s with fns := Map.put s.fns i k }
/-- A launch by number. -/
def State.launch? (s : State) (n : Nat) : Option Launch := Map.find? s.launches n
/-- The device with a launch. -/
def State.setLaunch (s : State) (n : Nat) (l : Launch) : State := { s with launches := Map.put s.launches n l }
/-- The owner number of a core (R25). -/
def State.ownerOf (s : State) (c : Nat) : Nat := (s.core c).owner.toNat
/-- The context of the current thread. -/
def State.myCtx (s : State) : Ctx := s.ctx (s.ownerOf s.cur.1)
/-- The device with a field of the step under way. -/
def State.setDisp (s : State) (d : Disp) : State := { s with iss := { s.iss with disp := d } }

/-- The physical cluster of a core (R179). -/
def clusterOf (c : Nat) : Nat := c / 48
/-- A core's position in its cluster (R179). -/
def posOf (c : Nat) : Nat := c % 48
/-- The compute die of a core (R1). -/
def dieOf (c : Nat) : Nat := c / 384

/-- The logical cluster and position of a logical core (R179, R365). -/
def logCluster (x y : Nat) : Nat := x / 8 + 8 * (y / 6)
/-- The position of a logical core in its cluster (R179). -/
def logPos (x y : Nat) : Nat := x % 8 + 8 * (y % 6)

/-- The physical core at logical coordinates of a context, if the context holds it (R33, R365). -/
def Ctx.coreAt (k : Ctx) (x y : Nat) : Option Nat :=
  (Map.find? k.tab (logCluster x y)).map (fun p => 48 * p + logPos x y)

/-- The logical coordinates of a physical core of a context (R33, R365). -/
def Ctx.coords (k : Ctx) (c : Nat) : Nat × Nat :=
  match List.find? (fun e => e.2 == clusterOf c) k.tab with
  | some (lc, _) => (8 * (lc % 8) + posOf c % 8, 6 * (lc / 8) + posOf c / 8)
  | none => (0, 0)

/-- The logical core number of a physical core of a context: 64 × Y + X (R33). -/
def Ctx.logNo (k : Ctx) (c : Nat) : Nat := 64 * (k.coords c).2 + (k.coords c).1

/-- The physical cores of a context in increasing logical core number (R330). -/
def Ctx.cores (k : Ctx) : List Nat :=
  (List.range 1536).filterMap (fun n => k.coreAt (n % 64) (n / 64))

/-- A function with vector v signalled (R393): a message, or, while the vector's table entry masks it, its pending bit (R391; log 56). -/
def Func.signal (f : Func) (v : Nat) : Func :=
  if (f.msix.get (16 * v + 12)).getLsbD 0 then { f with pend := setBit f.pend v true }
  else { f with pend := setBit f.pend v false, sent := Map.put f.sent v (Map.getD f.sent v 0 + 1) }

/-- A RAS record (R358) written to the log; a full log loses it and counts it (R408). MSI-X vector 4 of the PF is signalled
(R393). -/
def State.ras (s : State) (unit kind : Nat) (w1 : Word) (owner : Nat) : State :=
  let r : RasRec :=
    { w0 := BitVec.ofNat 64 (unit <<< 12 + kind), w1, w2 := BitVec.ofNat 64 owner, w3 := BitVec.ofNat 64 s.now }
  let s := { s with hub :=
    if s.hub.ras.length < 4096 then { s.hub with ras := s.hub.ras ++ [r] }
    else { s.hub with rasLost := s.hub.rasLost + 1 } }
  s.setFn 0 ((s.fnc 0).signal 4)

/-- MSI-X vector v of a function is signalled (R393). -/
def State.msix (s : State) (fn v : Nat) : State :=
  s.setFn fn ((s.fnc fn).signal v)

/-- The number of entries a slot holds in its core's inbox, posted and reserved (R173). -/
def Core.inboxCount (k : Core) (sl : Nat) : Nat :=
  (k.inbox.filter (fun e => e.slot == sl)).length + (k.resv.filter (fun e => e.1 == sl)).length

/-- A reservation of a slot becomes a posted entry (R173), unless it has been released (R193); the thread that naps on it has its
event (R195). -/
def Core.post (k : Core) (sl tag : Nat) (w0 w1 : Word) : Core :=
  if k.resv.contains (sl, tag) then
    let t := k.thread sl
    { (k.setThread sl { t with wait := t.wait.onPost }) with
      inbox := k.inbox ++ [{ slot := sl, w0, w1 }], resv := k.resv.erase (sl, tag) }
  else k

/-- A slot's entries and reservations go (R173, R193). -/
def Core.dropInbox (k : Core) (sl : Nat) : Core :=
  { k with inbox := k.inbox.filter (fun e => e.slot != sl), resv := k.resv.filter (fun e => e.1 != sl) }

/-- Word 0 of an inbox entry (R174). -/
def entryWord (tag kind status sl : Nat) : Word :=
  BitVec.ofNat 64 ((tag % 65536) <<< 48 + kind <<< 40 + status <<< 32 + sl <<< 8)

end Sys2Proof.Machine
end

