-- ==== Sys2Proof/Machine/Num.lean ====
section
/-! DEFINITION. The element formats, rounding and conversion (spec/02_number_formats.md R37 to R53) and the exact arithmetic
that rounding is applied to. A finite value is an integer times a power of two; flags and the seed of R49 are threaded. -/

namespace Sys2Proof

/-- The flags raised so far and the stochastic-rounding seed (R15, R50). -/
structure Fl where
  flags : BitVec 6 := 0
  seed : BitVec 32 := 1
  deriving DecidableEq, Repr

/-- NX (R15). -/
def fNX : BitVec 6 := 1
/-- UF (R15). -/
def fUF : BitVec 6 := 2
/-- OF (R15). -/
def fOF : BitVec 6 := 4
/-- DZ (R15). -/
def fDZ : BitVec 6 := 8
/-- NV (R15). -/
def fNV : BitVec 6 := 16
/-- SAT (R15). -/
def fSAT : BitVec 6 := 32

/-- Flags raised. -/
def Fl.raise (l : Fl) (b : BitVec 6) : Fl := { l with flags := l.flags ||| b }
/-- Flags raised under a condition. -/
def Fl.raiseIf (l : Fl) (c : Bool) (b : BitVec 6) : Fl := if c then l.raise b else l

/-- One step of the LFSR (R49). -/
def lfsr (s : BitVec 32) : BitVec 32 :=
  if s.getLsbD 0 then (s >>> 1) ^^^ 0x80200003 else s >>> 1

/-- The seed after n steps. -/
def lfsrN : Nat → BitVec 32 → BitVec 32
  | 0, s => s
  | n + 1, s => lfsrN n (lfsr s)

/-- One rounding under a mode steps the seed if the mode is RSR (R50). -/
def Fl.step (l : Fl) (rm : RM) : Fl := if rm = .rsr then { l with seed := lfsr l.seed } else l

/-- A finite number: (−1)^neg × (m + δ) × 2^e, where δ is 0, or, with st, some amount strictly between 0 and 1. -/
structure Xr where
  neg : Bool := false
  m : Nat := 0
  e : Int := 0
  st : Bool := false
  deriving DecidableEq, Repr

/-- A value of a floating format (R37, R39). -/
inductive Val
  | nan (signalling neg : Bool)
  | inf (neg : Bool)
  | num (x : Xr)
  deriving DecidableEq, Repr

/-- The parameters of a floating format: exponent bits, mantissa bits and bias (R37). -/
structure FmtP where
  eb : Nat
  mb : Nat
  bias : Nat
  /-- the format has infinities and NaNs in its all-ones exponent -/
  ieee : Bool
  deriving DecidableEq, Repr

/-- The parameters of R37; an integer format has none. -/
def Fmt.fp : Fmt → Option FmtP
  | .fp64 => some ⟨11, 52, 1023, true⟩
  | .fp32 => some ⟨8, 23, 127, true⟩
  | .bf16 => some ⟨8, 7, 127, true⟩
  | .fp16 => some ⟨5, 10, 15, true⟩
  | .e5m2 => some ⟨5, 2, 15, true⟩
  | .e4m3 | .e4m3sh => some ⟨4, 3, 7, false⟩
  | .e3m2 => some ⟨3, 2, 3, false⟩
  | .e2m3 => some ⟨2, 3, 1, false⟩
  | .e2m1 => some ⟨2, 1, 1, false⟩
  | .int8 | .uint8 | .int4 | .int16 | .int32 | .int64 => none

/-- Bits of an element (R37). -/
def Fmt.bits : Fmt → Nat
  | .fp64 | .int64 => 64
  | .fp32 | .int32 => 32
  | .bf16 | .fp16 | .int16 => 16
  | .e5m2 | .e4m3 | .e4m3sh | .int8 | .uint8 => 8
  | .e3m2 | .e2m3 => 6
  | .e2m1 | .int4 => 4

/-- Bits an element occupies in memory, tiles and vector registers (R40). -/
def Fmt.store : Fmt → Nat
  | .e3m2 | .e2m3 => 8
  | f => f.bits

/-- The format is a floating one. -/
def Fmt.isFp (f : Fmt) : Bool := f.fp.isSome

/-- The format is E4M3 or decoded Shale, whose NaN is S.1111.111 (R37, R41). -/
def Fmt.isE4M3 : Fmt → Bool
  | .e4m3 | .e4m3sh => true
  | _ => false

/-- Least and greatest values of an integer format (R37). -/
def Fmt.intRange : Fmt → Int × Int
  | .int8 => (-128, 127)
  | .uint8 => (0, 255)
  | .int4 => (-8, 7)
  | .int16 => (-32768, 32767)
  | .int32 => (-2147483648, 2147483647)
  | _ => (-9223372036854775808, 9223372036854775807)

/-- The default NaN (R39). A format without a NaN has none and takes zero (R52). -/
def Fmt.defaultNaN : Fmt → Nat
  | .fp64 => 0x7FF8000000000000
  | .fp32 => 0x7FC00000
  | .bf16 => 0x7FC0
  | .fp16 => 0x7E00
  | .e5m2 => 0x7E
  | .e4m3 | .e4m3sh => 0x7F
  | _ => 0

/-- The value of an element's bits in a floating format (R37, R39); bits above the format's width are ignored (R40, R118). -/
def valFp (f : Fmt) (p : FmtP) (b : Nat) : Val :=
  let m := b % 2 ^ p.mb
  let e := b / 2 ^ p.mb % 2 ^ p.eb
  let neg := b / 2 ^ (p.mb + p.eb) % 2 == 1
  if p.ieee && e == 2 ^ p.eb - 1 then
    if m == 0 then .inf neg else .nan (m / 2 ^ (p.mb - 1) % 2 == 0) neg
  else if f.isE4M3 && e == 15 && m == 7 then .nan false neg
  else if e == 0 then .num { neg, m, e := 1 - (p.bias : Int) - p.mb }
  else .num { neg, m := 2 ^ p.mb + m, e := (e : Int) - p.bias - p.mb }

/-- The integer that an element's bits stand for in an integer format (R37). -/
def valInt (f : Fmt) (b : Nat) : Int :=
  let n := f.bits
  let x : Nat := b % 2 ^ n
  if f = .uint8 then (x : Int) else if x < 2 ^ (n - 1) then (x : Int) else (x : Int) - (2 ^ n : Nat)

/-- An integer as a finite number. -/
def Xr.ofInt (i : Int) : Xr := { neg := decide (i < 0), m := i.natAbs, e := 0 }

/-- The value of an element's bits in any format. -/
def Fmt.val (f : Fmt) (b : Nat) : Val :=
  match f.fp with
  | some p => valFp f p b
  | none => .num (Xr.ofInt (valInt f b))

/-- The number is zero. -/
def Xr.isZero (x : Xr) : Bool := x.m == 0 && !x.st

/-- The number times a power of two. -/
def Xr.scale (x : Xr) (k : Int) : Xr := { x with e := x.e + k }

/-- The bits of m to the right of position d, those to its left. -/
def Xr.shl (x : Xr) (k : Nat) : Xr := { x with m := x.m <<< k, e := x.e - k }

/-- Whether a rounding takes the neighbour of larger magnitude: t is the truncated magnitude in units, rem / 2^d the fraction
dropped, st whether more lies below (R47, R49). -/
def roundsUp (rm : RM) (neg : Bool) (t rem d : Nat) (st : Bool) (seed : BitVec 32) : Bool :=
  let half := 2 ^ (d - 1)
  match rm with
  | .rne => decide (rem > half) || (rem == half && (st || t % 2 == 1))
  | .rna => decide (rem ≥ half)
  | .rtz => false
  | .rdn => neg && (rem != 0 || st)
  | .rup => !neg && (rem != 0 || st)
  | .rsr => decide (2 ^ 24 * rem / 2 ^ d + (seed.toNat % 2 ^ 24) ≥ 2 ^ 24)

/-- A magnitude rounded to a whole number of units 2^q, and whether that was inexact (R47). -/
def roundAt (rm : RM) (seed : BitVec 32) (x : Xr) (q : Int) : Nat × Bool :=
  if q ≤ x.e && !x.st then (x.m <<< (x.e - q).toNat, false)
  else
    let k := if q - 26 < x.e then (x.e - (q - 26)).toNat else 0
    let y := x.shl k
    let d := (q - y.e).toNat
    let t := y.m >>> d
    let rem := y.m % 2 ^ d
    (if roundsUp rm x.neg t rem d x.st seed then t + 1 else t, rem != 0 || x.st)

/-- The unit of a format at a number's magnitude: 2^(max(floor(log2 |x|), emin) − p) (R47, R133). -/
def FmtP.quantum (p : FmtP) (x : Xr) : Int :=
  let emin : Int := 1 - p.bias
  let l : Int := if x.m = 0 then emin else (x.m.log2 : Int) + x.e
  (if l < emin then emin else l) - p.mb

/-- The bits of a magnitude M × 2^q in a format, q being a unit of the format and M at most 2^(p+1). -/
def encodeMag (p : FmtP) (M : Nat) (q : Int) : Nat :=
  let emin : Int := 1 - p.bias
  if M < 2 ^ p.mb then M
  else
    let (M, q) := if M = 2 ^ (p.mb + 1) then (2 ^ p.mb, q + 1) else (M, q)
    (q + p.mb - emin + 1).toNat * 2 ^ p.mb + (M - 2 ^ p.mb)

/-- The bits of the largest finite magnitude (R37). -/
def Fmt.maxMag (f : Fmt) (p : FmtP) : Nat :=
  if p.ieee then (2 ^ p.eb - 1) * 2 ^ p.mb - 1
  else if f.isE4M3 then 2 ^ (p.eb + p.mb) - 2 else 2 ^ (p.eb + p.mb) - 1

/-- A sign bit over a magnitude's bits. -/
def withSign (p : FmtP) (neg : Bool) (mag : Nat) : Nat := (if neg then 2 ^ (p.eb + p.mb) else 0) + mag

/-- What an overflowed result becomes (R48; into a format without infinity R52, by the saturate bit), with its flags beside
the NX that every overflow raises. -/
def overflowed (f : Fmt) (p : FmtP) (rm : RM) (sat neg : Bool) : Nat × BitVec 6 :=
  let big := f.maxMag p
  if p.ieee then
    let inf := (2 ^ p.eb - 1) * 2 ^ p.mb
    let toInf := match rm with
      | .rne | .rna | .rsr => true
      | .rtz => false
      | .rdn => neg
      | .rup => !neg
    (withSign p neg (if toInf then inf else big), fOF ||| fNX)
  else if sat then (withSign p neg big, fOF ||| fSAT ||| fNX)
  else if f.isE4M3 then (withSign p neg (big + 1), fOF ||| fNX)
  else (withSign p neg big, fNV ||| fNX)

/-- A finite number rounded into a floating format: RoundTo with its overflow rule (R47, R48, R52). The seed has stepped. -/
def roundNum (f : Fmt) (p : FmtP) (rm : RM) (sat : Bool) (x : Xr) (l : Fl) : Nat × Fl :=
  if x.isZero then (withSign p x.neg 0, l)
  else
    let q := p.quantum x
    let (M, inexact) := roundAt rm l.seed x q
    let mag := encodeMag p M q
    if mag > f.maxMag p then
      let (b, fl) := overflowed f p rm sat x.neg
      (b, l.raise fl)
    else
      (withSign p x.neg mag,
        (l.raiseIf inexact fNX).raiseIf (inexact && decide (M < 2 ^ p.mb) && M != 0) fUF)

/-- What a NaN becomes in a floating format under a conversion (R52). -/
def convertNaN (f : Fmt) (p : FmtP) (signalling neg : Bool) (l : Fl) : Nat × Fl :=
  if p.ieee then (f.defaultNaN, l.raiseIf signalling fNV)
  else if f.isE4M3 then (withSign p neg (f.maxMag p + 1), l.raiseIf signalling fNV)
  else (0, l.raise fNV)

/-- What an infinity becomes in a floating format under a conversion (R52). -/
def convertInf (f : Fmt) (p : FmtP) (sat neg : Bool) (l : Fl) : Nat × Fl :=
  let big := f.maxMag p
  if p.ieee then (withSign p neg ((2 ^ p.eb - 1) * 2 ^ p.mb), l)
  else if sat then (withSign p neg big, l.raise (fOF ||| fSAT))
  else if f.isE4M3 then (withSign p neg (big + 1), l.raise fNV)
  else (withSign p neg big, l.raise fNV)

/-- A value converted into a floating format, one rounding (R50, R52). -/
def convertFp (f : Fmt) (p : FmtP) (rm : RM) (sat : Bool) (v : Val) (l : Fl) : Nat × Fl :=
  let l := l.step rm
  match v with
  | .nan s n => convertNaN f p s n l
  | .inf n => convertInf f p sat n l
  | .num x => roundNum f p rm sat x l

/-- A number rounded to an integer by a mode, with units of 1 (R49), and whether that was inexact. -/
def roundInt (rm : RM) (seed : BitVec 32) (x : Xr) : Int × Bool :=
  let (M, inexact) := roundAt rm seed x 0
  (if x.neg then -(M : Int) else M, inexact)

/-- A value converted into an integer format, one rounding (R50, R52, R53). -/
def convertInt (f : Fmt) (rm : RM) (v : Val) (l : Fl) : Int × Fl :=
  let l := l.step rm
  let (lo, hi) := f.intRange
  match v with
  | .nan _ _ => (0, l.raise fNV)
  | .inf n => (if n then lo else hi, l.raise fNV)
  | .num x =>
    let (i, inexact) := roundInt rm l.seed x
    if i < lo then (lo, l.raise (fSAT ||| fNX))
    else if i > hi then (hi, l.raise (fSAT ||| fNX))
    else (i, l.raiseIf inexact fNX)

/-- An element converted from one format into another: the destination's bits (R52, R53). A conversion between integer formats
is exact or saturates; it too is a rounding of R50. -/
def convert (src dst : Fmt) (rm : RM) (sat : Bool) (b : Nat) (l : Fl) : Nat × Fl :=
  match dst.fp with
  | some p => convertFp dst p rm sat (src.val b) l
  | none =>
    let (i, l) := convertInt dst rm (src.val b) l
    ((i % 2 ^ dst.bits).toNat, l)

/-! ### Arithmetic (R121 to R123) -/

/-- The exact sum of two finite numbers without sticky parts; an exact zero sum has the sign rdn gives it, two zeros of one
sign keep it (R122). -/
def Xr.add (rm : RM) (x y : Xr) : Xr :=
  let e := if x.e < y.e then x.e else y.e
  let a : Int := (x.m <<< (x.e - e).toNat : Nat)
  let b : Int := (y.m <<< (y.e - e).toNat : Nat)
  let s := (if x.neg then -a else a) + (if y.neg then -b else b)
  if s = 0 then
    { neg := if x.isZero && y.isZero && x.neg == y.neg then x.neg else rm == .rdn, m := 0, e }
  else { neg := decide (s < 0), m := s.natAbs, e }

/-- The exact product of two finite numbers. -/
def Xr.mul (x y : Xr) : Xr := { neg := x.neg != y.neg, m := x.m * y.m, e := x.e + y.e }

/-- A value with its sign inverted. -/
def Val.negate : Val → Val
  | .nan s n => .nan s n
  | .inf n => .inf (!n)
  | .num x => .num { x with neg := !x.neg }

/-- The value is a NaN. -/
def Val.isNaN : Val → Bool
  | .nan _ _ => true
  | _ => false

/-- The value is a signalling NaN. -/
def Val.isSNaN : Val → Bool
  | .nan s _ => s
  | _ => false

/-- What an arithmetic operation gives before its rounding: an invalid operation, a NaN with a quiet operand, or a value. -/
inductive Pre
  | invalid
  | nan (signalling : Bool)
  | val (v : Val)
  /-- a finite nonzero divided by zero (R51, R122) -/
  | divZero (neg : Bool)
  deriving DecidableEq, Repr

/-- The sum of two values (R122). -/
def preAdd (rm : RM) (x y : Val) : Pre :=
  match x, y with
  | .nan s _, y => .nan (s || y.isSNaN)
  | _, .nan s _ => .nan s
  | .inf n, .inf n' => if n = n' then .val (.inf n) else .invalid
  | .inf n, .num _ => .val (.inf n)
  | .num _, .inf n => .val (.inf n)
  | .num x, .num y => .val (.num (x.add rm y))

/-- The product of two values (R122). -/
def preMul (x y : Val) : Pre :=
  match x, y with
  | .nan s _, y => .nan (s || y.isSNaN)
  | _, .nan s _ => .nan s
  | .inf n, .inf n' => .val (.inf (n != n'))
  | .inf n, .num y => if y.isZero then .invalid else .val (.inf (n != y.neg))
  | .num x, .inf n => if x.isZero then .invalid else .val (.inf (n != x.neg))
  | .num x, .num y => .val (.num (x.mul y))

/-- The fused product and sum of three values (R123): 0 × ∞ is invalid whatever the addend. -/
def preFma (rm : RM) (x y z : Val) : Pre :=
  match preMul x y with
  | .invalid => .invalid
  | .nan s => .nan (s || z.isSNaN)
  | .val v => preAdd rm v z
  | .divZero n => .divZero n

/-- The quotient of two finite nonzero numbers to more bits than any rounding looks at, with what lies below as sticky. -/
def Xr.div (x y : Xr) : Xr :=
  let k := 160 + y.m.log2
  let n := x.m <<< k
  { neg := x.neg != y.neg, m := n / y.m, e := x.e - y.e - k, st := n % y.m != 0 }

/-- The quotient of two values (R122). -/
def preDiv (x y : Val) : Pre :=
  match x, y with
  | .nan s _, y => .nan (s || y.isSNaN)
  | _, .nan s _ => .nan s
  | .inf _, .inf _ => .invalid
  | .inf n, .num y => .val (.inf (n != y.neg))
  | .num x, .inf n => .val (.num { neg := x.neg != n, m := 0, e := 0 })
  | .num x, .num y =>
    if y.isZero then (if x.isZero then .invalid else .divZero (x.neg != y.neg))
    else if x.isZero then .val (.num { neg := x.neg != y.neg, m := 0, e := 0 })
    else .val (.num (x.div y))

/-- The integer square root, bit by bit from position k down: r is the root of the bits taken so far. -/
def isqrtFrom (n : Nat) : Nat → Nat → Nat
  | 0, r => if (r + 1) * (r + 1) ≤ n then r + 1 else r
  | k + 1, r => isqrtFrom n k (if (r + 2 ^ (k + 1)) * (r + 2 ^ (k + 1)) ≤ n then r + 2 ^ (k + 1) else r)

/-- The integer square root of a number below 2^(2 k + 2). -/
def isqrt (k n : Nat) : Nat := isqrtFrom n k 0

/-- The square root of a finite positive number to at least 150 bits, with what lies below as sticky. -/
def Xr.sqrt (x : Xr) : Xr :=
  let k := 320 - x.m.log2
  let k := if (x.e - k) % 2 = 0 then k else k + 1
  let n := x.m <<< k
  let r := isqrt 164 n
  { neg := false, m := r, e := (x.e - k) / 2, st := r * r != n }

/-- The square root of a value (R122). -/
def preSqrt : Val → Pre
  | .nan s _ => .nan s
  | .inf n => if n then .invalid else .val (.inf false)
  | .num x => if x.isZero then .val (.num x) else if x.neg then .invalid else .val (.num x.sqrt)

/-- An operation's result rounded once into a floating format (R47, R48, R121, R122); a NaN is the default NaN (R39). -/
def roundPre (f : Fmt) (rm : RM) (r : Pre) (l : Fl) : Nat × Fl :=
  match f.fp with
  | none => (0, l)
  | some p =>
    let l := l.step rm
    match r with
    | .invalid => (f.defaultNaN, l.raise fNV)
    | .nan s => (f.defaultNaN, l.raiseIf s fNV)
    | .divZero n => (withSign p n ((2 ^ p.eb - 1) * 2 ^ p.mb), l.raise fDZ)
    | .val (.nan s _) => (f.defaultNaN, l.raiseIf s fNV)
    | .val (.inf n) => (withSign p n ((2 ^ p.eb - 1) * 2 ^ p.mb), l)
    | .val (.num x) => roundNum f p rm false x l

/-- The sign bit of a format's element set on or off. -/
def Val.isNeg : Val → Bool
  | .nan _ n => n
  | .inf n => n
  | .num x => x.neg

/-- Numbers compared by value: −1, 0 or 1, or none for a NaN (R125). Both zeros are equal. -/
def compareVal (x y : Val) : Option Int :=
  match x, y with
  | .nan _ _, _ => none
  | _, .nan _ _ => none
  | .inf n, .inf n' => some (if n = n' then 0 else if n then -1 else 1)
  | .inf n, .num _ => some (if n then -1 else 1)
  | .num _, .inf n => some (if n then 1 else -1)
  | .num x, .num y =>
    let e := if x.e < y.e then x.e else y.e
    let a : Int := (x.m <<< (x.e - e).toNat : Nat)
    let b : Int := (y.m <<< (y.e - e).toNat : Nat)
    let a := if x.neg then -a else a
    let b := if y.neg then -b else b
    some (if a < b then -1 else if a = b then 0 else 1)

/-- The order of FMIN and FMAX on numbers: by value, −0 below +0 (R124). -/
def ltMin (x y : Val) : Bool :=
  match compareVal x y with
  | some c => c == -1 || (c == 0 && x.isNeg && !y.isNeg)
  | none => false

/-- FMIN, FMAX, FMINM and FMAXM on the bits of two elements (R124): the bits of the result. -/
def minMax (f : Fmt) (max propagate : Bool) (a b : Nat) (l : Fl) : Nat × Fl :=
  let x := f.val a
  let y := f.val b
  let l := l.raiseIf (x.isSNaN || y.isSNaN) fNV
  if x.isNaN && y.isNaN then (f.defaultNaN, l)
  else if x.isNaN then (if propagate then f.defaultNaN else b, l)
  else if y.isNaN then (if propagate then f.defaultNaN else a, l)
  else if max then (if ltMin x y then b else a, l)
  else (if ltMin y x then b else a, l)

end Sys2Proof
end

