-- ==== Sys2Proof/WellFormed.lean ====
section
/-! DEFINITION. The checks on an instruction's fields that the types of Syntax do not already make: the ILLINS rules of
spec/03_encoding.md R86 and of the instruction chapters (R99, R109, R147, R165, R195, R196, R233, R241), and the ranges of
the numbers that name cores, slots, owners and functions (R1, R364, R389). -/

namespace Sys2Proof

/-- The instruction's fields are within the ranges the spec gives them. -/
def Instr.wf : Instr → Bool
  | .add _ _ _ => true
  | .sub _ _ _ => true
  | .and _ _ _ => true
  | .or _ _ _ => true
  | .xor _ _ _ => true
  | .andn _ _ _ => true
  | .sll _ _ _ => true
  | .srl _ _ _ => true
  | .sra _ _ _ => true
  | .rol _ _ _ => true
  | .ror _ _ _ => true
  | .mul _ _ _ => true
  | .mulh _ _ _ => true
  | .mulhu _ _ _ => true
  | .div _ _ _ => true
  | .divu _ _ _ => true
  | .rem _ _ _ => true
  | .remu _ _ _ => true
  | .min _ _ _ => true
  | .max _ _ _ => true
  | .minu _ _ _ => true
  | .maxu _ _ _ => true
  | .seq _ _ _ => true
  | .slt _ _ _ => true
  | .sltu _ _ _ => true
  | .sel _ _ _ => true
  | .clz _ _ => true
  | .ctz _ _ => true
  | .popc _ _ => true
  | .brev _ _ => true
  | .bswap _ _ => true
  | .addw _ _ _ => true
  | .subw _ _ _ => true
  | .mulw _ _ _ => true
  | .sllw _ _ _ => true
  | .srlw _ _ _ => true
  | .sraw _ _ _ => true
  | .shadd _ _ _ _ => true
  | .addv _ _ _ => true
  | .subv _ _ _ => true
  | .xya _ _ _ => true
  | .xyr _ _ _ => true
  | .xyrSelf _ _ => true
  | .agep _ _ _ => true
  | .agex _ _ => true
  | .addi _ _ _ => true
  | .andi _ _ _ => true
  | .ori _ _ _ => true
  | .xori _ _ _ => true
  | .slli _ _ _ => true
  | .srli _ _ _ => true
  | .srai _ _ _ => true
  | .seqi _ _ _ => true
  | .slti _ _ _ => true
  | .sltui _ _ _ => true
  | .addwi _ _ _ => true
  | .bfx _ _ pos lenM1 => decide (pos.toNat + lenM1.toNat + 1 ≤ 64)
  | .bfi _ _ pos lenM1 => decide (pos.toNat + lenM1.toNat + 1 ≤ 64)
  | .lui _ _ => true
  | .apc _ _ => true
  | .fadd _ _ _ _ _ => true
  | .fsub _ _ _ _ _ => true
  | .fmul _ _ _ _ _ => true
  | .fdiv _ _ _ _ _ => true
  | .fsqrt _ _ _ _ => true
  | .fmin _ _ _ _ _ => true
  | .fmax _ _ _ _ _ => true
  | .fminm _ _ _ _ _ => true
  | .fmaxm _ _ _ _ _ => true
  | .feq _ _ _ _ _ => true
  | .flt _ _ _ _ _ => true
  | .fle _ _ _ _ _ => true
  | .fclass _ _ _ _ => true
  | .fsgn _ _ _ _ _ => true
  | .fsgnn _ _ _ _ _ => true
  | .fsgnx _ _ _ _ _ => true
  | .frint _ _ _ _ _ => true
  | .fcvt _ _ _ _ _ => true
  | .fcvti _ _ _ _ => true
  | .fcvtf _ _ _ _ => true
  | .fmvg _ _ _ _ => true
  | .fmvf _ _ _ _ => true
  | .fscale _ _ _ _ _ => true
  | .fexp _ _ _ _ => true
  | .fexp2 _ _ _ _ => true
  | .flog _ _ _ _ => true
  | .flog2 _ _ _ _ => true
  | .frcp _ _ _ _ => true
  | .frsq _ _ _ _ => true
  | .fsin _ _ _ _ => true
  | .fcos _ _ _ _ => true
  | .ftanh _ _ _ _ => true
  | .ferf _ _ _ _ => true
  | .fma _ _ _ _ _ _ => true
  | .fms _ _ _ _ _ _ => true
  | .fnma _ _ _ _ _ _ => true
  | .fnms _ _ _ _ _ _ => true
  | .vadd _ _ _ _ _ => true
  | .vsub _ _ _ _ _ => true
  | .vmul _ _ _ _ _ => true
  | .vfma _ _ _ _ _ => true
  | .vfms _ _ _ _ _ => true
  | .vdiv _ _ _ _ _ => true
  | .vsqrt _ _ _ _ => true
  | .vmin _ _ _ _ _ => true
  | .vmax _ _ _ _ _ => true
  | .vand _ _ _ _ _ => true
  | .vor _ _ _ _ _ => true
  | .vxor _ _ _ _ _ => true
  | .vsll _ _ _ _ _ => true
  | .vsrl _ _ _ _ _ => true
  | .vsra _ _ _ _ _ => true
  | .vcmpeq _ _ _ _ _ => true
  | .vcmplt _ _ _ _ _ => true
  | .vcmple _ _ _ _ _ => true
  | .vsel _ _ _ _ _ => true
  | .vcvt _ _ _ _ _ _ => true
  | .vrsum _ _ _ _ _ => true
  | .vrmax _ _ _ _ _ => true
  | .vrmin _ _ _ _ _ => true
  | .vdot _ _ _ _ _ => true
  | .vbcst _ _ _ _ => true
  | .vext _ _ _ _ _ => true
  | .vins _ _ _ _ _ => true
  | .vperm _ _ _ _ _ => true
  | .vmov _ _ _ _ => true
  | .vfn _ _ _ _ _ => true
  | .ldb _ _ _ => true
  | .ldbu _ _ _ => true
  | .ldh _ _ _ => true
  | .ldhu _ _ _ => true
  | .ldw _ _ _ => true
  | .ldwu _ _ _ => true
  | .ldd _ _ _ => true
  | .stb _ _ _ => true
  | .sth _ _ _ => true
  | .stw _ _ _ => true
  | .std _ _ _ => true
  | .fldw _ _ _ => true
  | .fldd _ _ _ => true
  | .fstw _ _ _ => true
  | .fstd _ _ _ => true
  | .pref _ _ _ => true
  | .ldaq _ o _ _ _ => o.okLoad
  | .strl _ o _ _ _ => o.okStore
  | .amoadd _ _ _ _ _ _ => true
  | .amoand _ _ _ _ _ _ => true
  | .amoor _ _ _ _ _ _ => true
  | .amoxor _ _ _ _ _ _ => true
  | .amomin _ _ _ _ _ _ => true
  | .amomax _ _ _ _ _ _ => true
  | .amominu _ _ _ _ _ _ => true
  | .amomaxu _ _ _ _ _ _ => true
  | .amoswp _ _ _ _ _ _ => true
  | .amocas _ _ _ _ _ _ => true
  | .amofadd _ _ _ _ _ _ => true
  | .fence o _ => o.okFence
  | .cflush _ _ => true
  | .cinv _ _ => true
  | .vld _ _ _ => true
  | .vst _ _ _ => true
  | .vlds _ _ _ _ => true
  | .vsts _ _ _ _ => true
  | .vgth _ _ _ _ => true
  | .vsct _ _ _ _ => true
  | .beq _ _ _ => true
  | .bne _ _ _ => true
  | .blt _ _ _ => true
  | .bge _ _ _ => true
  | .bltu _ _ _ => true
  | .bgeu _ _ _ => true
  | .jmp _ => true
  | .call _ => true
  | .jtab _ _ => true
  | .lpad _ => true
  | .lpset _ _ off => off.toNat % 2 == 0
  | .lpseti _ _ off => off.toNat % 2 == 0
  | .lpoff _ => true
  | .put _ _ _ => true
  | .putb _ _ _ _ => true
  | .cntrd _ _ => true
  | .cntset _ _ _ => true
  | .cntadd _ _ _ _ => true
  | .waitc _ _ _ => true
  | .deq d => d.toNat % 2 == 0 && d != 0
  | .peek _ => true
  | .barcfg _ _ _ => true
  | .bararr _ _ => true
  | .barwait _ _ => true
  | .phase _ _ => true
  | .launch _ _ => true
  | .lcancel _ _ _ => true
  | .lcount _ _ _ => true
  | .nap m => m != 0
  | .cpy _ a => decide (a.toNat ≤ 20)
  | .cpys _ _ => true
  | .cpyk _ _ => true
  | .migr tier die _ _ _ => tier == .hbm || die == 0
  | .repl _ _ _ _ => true
  | .strcfg _ _ a => decide (a.toNat ≤ 28)
  | .strgo _ => true
  | .strstop _ => true
  | .tcfg _ _ => true
  | .trdc _ _ => true
  | .tld _ _ _ => true
  | .tldk _ _ _ => true
  | .tst _ _ _ => true
  | .tz _ => true
  | .tscl _ _ _ => true
  | .mma _ _ _ _ _ _ => true
  | .acz _ _ => true
  | .acld _ _ _ => true
  | .acst _ _ _ => true
  | .accv _ _ _ _ => true
  | .qcfg _ _ => true
  | .qz _ => true
  | .qapp _ _ _ _ _ => true
  | .qapl _ _ _ _ => true
  | .qapr _ _ _ _ => true
  | .qfold _ _ => true
  | .qrd _ _ => true
  | .qld _ _ => true
  | .qst _ _ => true
  | .qform _ _ _ _ => true
  | .fmtp _ _ _ => true
  | .trap _ => true
  | .ebrk _ => true
  | .csrr _ _ => true
  | .csrw _ _ _ => true
  | .csrs _ _ _ => true
  | .csrc _ _ _ => true
  | .ilock _ _ _ => true
  | .iunlk _ _ _ => true
  | .grant _ _ _ rights => rights != 0
  | .revoke _ _ _ => true
  | .free d _ _ => d.toNat % 2 == 0 && d != 0
  | .rprobe _ _ => true
  | .unassignedOpcode _ => true
  | .ret => true
  | .done => true
  | .cbar => true
  | .yield => true
  | .msync => true
  | .nop => true
  | .rett => true
  | .ifence => true
  | .deferredTrap => true
  | .engineAccept => true
  | .vectorOpComplete => true
  | .matrixService => true
  | .matrixOpComplete => true
  | .copyLine => true
  | .copyEnd => true
  | .putDelivery => true
  | .waitcSatisfied => true
  | .deqWake => true
  | .crewBarrierComplete => true
  | .barwaitWake => true
  | .phaseComplete => true
  | .napWake => true
  | .msyncComplete => true
  | .lcancelComplete => true
  | .cpykComplete => true
  | .freeResult => true
  | .grantPerformed => true
  | .revocationCut => true
  | .coreCut => true
  | .cutAcknowledge => true
  | .revokeDone => true
  | .migrationLineCopy => true
  | .migrDone => true
  | .replDone => true
  | .sequencerWrite => true
  | .sealedBufferMove => true
  | .faultRecord => true
  | .dispatch => true
  | .crewDone => true
  | .launchComplete => true
  | .dependenceTest => true
  | .promotion => true
  | .coreReservation => true
  | .watchdogExpiry => true
  | .leaderChange => true
  | .graceExpiry => true
  | .drainEnd => true
  | .functionLevelReset => true
  | .coldReset => true
  | .sensorAlarm => true
  | .tamperMeshBroken => true
  | .threadRegisterError => true
  | .engineRegisterError => true
  | .icacheError => true
  | .correctedError => true
  | .instructionFill => true
  | .textKeySwitch => true
  | .flitReceive => true
  | .sublinkRekey => true
  | .expanderLinkDown => true
  | .powerSample => true
  | .identify => true
  | .attest => true
  | .ctxCreate => true
  | .ctxCreateRootEntry => true
  | .ctxCreateRemoveRoot => true
  | .ctxDestroy => true
  | .jobStart => true
  | .jobCancel => true
  | .preempt => true
  | .restore => true
  | .checkpoint => true
  | .checkpointRecover => true
  | .setQos => true
  | .setQosConfigRecord => true
  | .dirtyLogCfg => true
  | .readCounter => true
  | .rasLog => true
  | .keyUpdate => true
  | .keyUpdateAllowList => true
  | .getVersion => true
  | .getCapabilities => true
  | .negotiateAlgorithms => true
  | .getDigests => true
  | .getCertificate => true
  | .challenge => true
  | .getMeasurements => true
  | .keyExchange => true
  | .finish => true
  | .spdmKeyUpdate => true
  | .heartbeat => true
  | .endSession => true
  | .lockInterfaceRequest => true
  | .getDeviceInterfaceReport => true
  | .getDeviceInterfaceState => true
  | .startInterfaceRequest => true
  | .stopInterfaceRequest => true
  | .resolve => true
  | .reject => true
  | .fqstRead => true
  | .dirtyLogReset => true
  | .dlconsWrite => true
  | .tlbi => true
  | .invalidationDone => true
  | .apertureAccess => true
  | .registerWrite => true
  | .bandwidthWindowEnd => true
  | .interfaceError => true
  | .memoryManagerMove => true
  | .streamFetchAhead => true

end Sys2Proof
end

