-- ==== Sys2Proof/Decode.lean ====
section
/-! DEFINITION. From words to instructions and back (spec/03_encoding.md R66 to R92, and the encoding tables of the
instruction chapters: R94, R99, R117, R147, R152, R165, R196, R220, R233, R241, R251, R271). Decoding is total: a word that
the maps do not make into an instruction, or that breaks an encoding rule, is rejected by name. -/

namespace Sys2Proof

/-- Why a word is not an instruction (R86): each has the fate ILLINS. -/
inductive DecodeError
  | /-- an opcode value the maps leave out (R86) -/ unassigned
  | /-- a reserved, unused or out-of-file field is not zero (R76, R86) -/ reserved
  | /-- rounding code 110 or 111 (R47, R77) -/ rounding
  | /-- ordering or scope code 101 to 111 (R75) -/ ordering
  | /-- an operand value or combination the instruction does not admit (R75, R99, R109, R146, R165, R220, R241) -/ operand
  | /-- fewer than four bytes -/ short
  deriving DecidableEq, Repr

/-- A check that must hold for the word to be an instruction. -/
def chk (b : Bool) : Except DecodeError Unit := if b then .ok () else .error .reserved

/-- The instruction, if its fields are within their ranges. -/
def guardWf (i : Instr) : Except DecodeError Instr := if i.wf then .ok i else .error .operand

/-- The rounding mode of a code (R47). -/
def RM.ofCode (c : BitVec 3) : Except DecodeError RM :=
  match c.toNat with
  | 0 => .ok .rne | 1 => .ok .rtz | 2 => .ok .rdn | 3 => .ok .rup | 4 => .ok .rna | 5 => .ok .rsr
  | _ => .error .rounding

/-- The width of a w bit (R74). -/
def Width.ofCode (c : BitVec 1) : Width := if c == 0 then .w32 else .w64

/-- The ordering of a code (R75). -/
def Ord.ofCode (c : BitVec 3) : Except DecodeError Ord :=
  match c.toNat with
  | 0 => .ok .rlx | 1 => .ok .acq | 2 => .ok .rel | 3 => .ok .ar | 4 => .ok .sc
  | _ => .error .ordering

/-- The scope of a code (R75). -/
def Scope.ofCode (c : BitVec 3) : Except DecodeError Scope :=
  match c.toNat with
  | 0 => .ok .core | 1 => .ok .clu | 2 => .ok .die | 3 => .ok .dev | 4 => .ok .sys
  | _ => .error .ordering

/-- The element size of a code (R152). -/
def ESz.ofCode (c : BitVec 2) : ESz :=
  match c.toNat with
  | 0 => .b | 1 => .h | 2 => .w | _ => .d

/-- The element format of a code (R37). -/
def Fmt.ofCode (c : BitVec 4) : Fmt :=
  match c.toNat with
  | 0 => .fp64 | 1 => .fp32 | 2 => .bf16 | 3 => .fp16 | 4 => .e5m2 | 5 => .e4m3 | 6 => .e3m2 | 7 => .e2m3
  | 8 => .e2m1 | 9 => .int8 | 10 => .uint8 | 11 => .int4 | 12 => .int16 | 13 => .e4m3sh | 14 => .int32
  | _ => .int64

/-- The scalar operand of a six-bit field (R220). -/
def SReg.ofCode (c : BitVec 6) : SReg :=
  if fld c 5 1 == 0 then .g (fld c 0 5) else .f (fld c 0 5)

/-- The function of a code (R231); codes above 9 are ILLINS by R220. -/
def TFn.ofCode (c : BitVec 6) : Except DecodeError TFn :=
  match c.toNat with
  | 0 => .ok .exp | 1 => .ok .exp2 | 2 => .ok .log | 3 => .ok .log2 | 4 => .ok .rcp | 5 => .ok .rsq
  | 6 => .ok .sin | 7 => .ok .cos | 8 => .ok .tanh | 9 => .ok .erf
  | _ => .error .operand

/-- The loop of a sel bit (R109). -/
def LoopNo.ofCode (c : BitVec 1) : LoopNo := if c == 0 then .l0 else .l1

/-- The prefetch hint of a code (R146). -/
def Hint.ofCode (c : BitVec 2) : Except DecodeError Hint :=
  match c.toNat with
  | 0 => .ok .rd | 1 => .ok .wr | 2 => .ok .dc
  | _ => .error .operand

/-- The barrier mode of a bit (R165). -/
def BarMode.ofCode (c : BitVec 1) : BarMode := if c == 0 then .counting else .strict

/-- The tier of a code (R241). -/
def Tier.ofCode (c : BitVec 2) : Except DecodeError Tier :=
  match c.toNat with
  | 0 => .ok .hbm | 1 => .ok .exp | 2 => .ok .host
  | _ => .error .operand

/-- INT-R words (R78, R94). -/
def decodeIntR (op : Nat) (xd xa xb : BitVec 5) (xlo : BitVec 7) : Except DecodeError Instr :=
  match op with
  | 0 => do chk (xlo == 0); .ok (.add xd xa xb)
  | 1 => do chk (xlo == 0); .ok (.sub xd xa xb)
  | 2 => do chk (xlo == 0); .ok (.and xd xa xb)
  | 3 => do chk (xlo == 0); .ok (.or xd xa xb)
  | 4 => do chk (xlo == 0); .ok (.xor xd xa xb)
  | 5 => do chk (xlo == 0); .ok (.andn xd xa xb)
  | 6 => do chk (xlo == 0); .ok (.sll xd xa xb)
  | 7 => do chk (xlo == 0); .ok (.srl xd xa xb)
  | 8 => do chk (xlo == 0); .ok (.sra xd xa xb)
  | 9 => do chk (xlo == 0); .ok (.rol xd xa xb)
  | 10 => do chk (xlo == 0); .ok (.ror xd xa xb)
  | 11 => do chk (xlo == 0); .ok (.mul xd xa xb)
  | 12 => do chk (xlo == 0); .ok (.mulh xd xa xb)
  | 13 => do chk (xlo == 0); .ok (.mulhu xd xa xb)
  | 14 => do chk (xlo == 0); .ok (.div xd xa xb)
  | 15 => do chk (xlo == 0); .ok (.divu xd xa xb)
  | 16 => do chk (xlo == 0); .ok (.rem xd xa xb)
  | 17 => do chk (xlo == 0); .ok (.remu xd xa xb)
  | 18 => do chk (xlo == 0); .ok (.min xd xa xb)
  | 19 => do chk (xlo == 0); .ok (.max xd xa xb)
  | 20 => do chk (xlo == 0); .ok (.minu xd xa xb)
  | 21 => do chk (xlo == 0); .ok (.maxu xd xa xb)
  | 22 => do chk (xlo == 0); .ok (.seq xd xa xb)
  | 23 => do chk (xlo == 0); .ok (.slt xd xa xb)
  | 24 => do chk (xlo == 0); .ok (.sltu xd xa xb)
  | 25 => do chk (xlo == 0); .ok (.sel xd xa xb)
  | 26 => do chk (xb == 0); chk (xlo == 0); .ok (.clz xd xa)
  | 27 => do chk (xb == 0); chk (xlo == 0); .ok (.ctz xd xa)
  | 28 => do chk (xb == 0); chk (xlo == 0); .ok (.popc xd xa)
  | 29 => do chk (xb == 0); chk (xlo == 0); .ok (.brev xd xa)
  | 30 => do chk (xb == 0); chk (xlo == 0); .ok (.bswap xd xa)
  | 31 => do chk (xlo == 0); .ok (.addw xd xa xb)
  | 32 => do chk (xlo == 0); .ok (.subw xd xa xb)
  | 33 => do chk (xlo == 0); .ok (.mulw xd xa xb)
  | 34 => do chk (xlo == 0); .ok (.sllw xd xa xb)
  | 35 => do chk (xlo == 0); .ok (.srlw xd xa xb)
  | 36 => do chk (xlo == 0); .ok (.sraw xd xa xb)
  | 37 => do chk ((fld xlo 0 4) == 0); .ok (.shadd xd xa xb (fld xlo 4 3))
  | 38 => do chk (xlo == 0); .ok (.addv xd xa xb)
  | 39 => do chk (xlo == 0); .ok (.subv xd xa xb)
  | 40 => do chk (xlo == 0); .ok (.xya xd xa xb)
  | 42 => do chk (xlo == 0); .ok (.agep xd xa xb)
  | 43 => do chk (xb == 0); chk (xlo == 0); .ok (.agex xd xa)
  | 41 => if xlo == 1 then (do chk (xa == 0); .ok (.xyrSelf xd xb)) else (do chk (xlo == 0); .ok (.xyr xd xa xb))
  | _ => .error .unassigned

/-- INT-I words with an imm12 (R79, R99). -/
def decodeIntI (op : Nat) (xd xa : BitVec 5) (ximm : BitVec 12) : Except DecodeError Instr :=
  match op with
  | 0 => .ok (.addi xd xa ximm)
  | 1 => .ok (.andi xd xa ximm)
  | 2 => .ok (.ori xd xa ximm)
  | 3 => .ok (.xori xd xa ximm)
  | 4 => do chk ((fld ximm 6 6) == 0); .ok (.slli xd xa (fld ximm 0 6))
  | 5 => do chk ((fld ximm 6 6) == 0); .ok (.srli xd xa (fld ximm 0 6))
  | 6 => do chk ((fld ximm 6 6) == 0); .ok (.srai xd xa (fld ximm 0 6))
  | 7 => .ok (.seqi xd xa ximm)
  | 8 => .ok (.slti xd xa ximm)
  | 9 => .ok (.sltui xd xa ximm)
  | 10 => .ok (.addwi xd xa ximm)
  | 11 => guardWf (.bfx xd xa (fld ximm 0 6) (fld ximm 6 6))
  | 12 => guardWf (.bfi xd xa (fld ximm 0 6) (fld ximm 6 6))
  | _ => .error .unassigned

/-- LUI and APC (R79, R99). -/
def decodeIntU (op : Nat) (xd : BitVec 5) (ximm : BitVec 17) : Except DecodeError Instr :=
  match op with
  | 13 => .ok (.lui xd ximm)
  | 14 => .ok (.apc xd ximm)
  | _ => .error .unassigned

/-- FP words of layout F-R (R80, R117). -/
def decodeFp (op : Nat) (xd xa xb : BitVec 5) (xlo : BitVec 7) : Except DecodeError Instr :=
  match op with
  | 0 => do let rm ← RM.ofCode (fld xlo 4 3); chk ((fld xlo 1 3) == 0); .ok (.fadd (Width.ofCode (fld xlo 0 1)) rm xd xa xb)
  | 1 => do let rm ← RM.ofCode (fld xlo 4 3); chk ((fld xlo 1 3) == 0); .ok (.fsub (Width.ofCode (fld xlo 0 1)) rm xd xa xb)
  | 2 => do let rm ← RM.ofCode (fld xlo 4 3); chk ((fld xlo 1 3) == 0); .ok (.fmul (Width.ofCode (fld xlo 0 1)) rm xd xa xb)
  | 3 => do let rm ← RM.ofCode (fld xlo 4 3); chk ((fld xlo 1 3) == 0); .ok (.fdiv (Width.ofCode (fld xlo 0 1)) rm xd xa xb)
  | 4 => do chk (xb == 0); let rm ← RM.ofCode (fld xlo 4 3); chk ((fld xlo 1 3) == 0); .ok (.fsqrt (Width.ofCode (fld xlo 0 1)) rm xd xa)
  | 5 => do let rm ← RM.ofCode (fld xlo 4 3); chk ((fld xlo 1 3) == 0); .ok (.fmin (Width.ofCode (fld xlo 0 1)) rm xd xa xb)
  | 6 => do let rm ← RM.ofCode (fld xlo 4 3); chk ((fld xlo 1 3) == 0); .ok (.fmax (Width.ofCode (fld xlo 0 1)) rm xd xa xb)
  | 7 => do let rm ← RM.ofCode (fld xlo 4 3); chk ((fld xlo 1 3) == 0); .ok (.fminm (Width.ofCode (fld xlo 0 1)) rm xd xa xb)
  | 8 => do let rm ← RM.ofCode (fld xlo 4 3); chk ((fld xlo 1 3) == 0); .ok (.fmaxm (Width.ofCode (fld xlo 0 1)) rm xd xa xb)
  | 9 => do let rm ← RM.ofCode (fld xlo 4 3); chk ((fld xlo 1 3) == 0); .ok (.feq (Width.ofCode (fld xlo 0 1)) rm xd xa xb)
  | 10 => do let rm ← RM.ofCode (fld xlo 4 3); chk ((fld xlo 1 3) == 0); .ok (.flt (Width.ofCode (fld xlo 0 1)) rm xd xa xb)
  | 11 => do let rm ← RM.ofCode (fld xlo 4 3); chk ((fld xlo 1 3) == 0); .ok (.fle (Width.ofCode (fld xlo 0 1)) rm xd xa xb)
  | 12 => do chk (xb == 0); let rm ← RM.ofCode (fld xlo 4 3); chk ((fld xlo 1 3) == 0); .ok (.fclass (Width.ofCode (fld xlo 0 1)) rm xd xa)
  | 13 => do let rm ← RM.ofCode (fld xlo 4 3); chk ((fld xlo 1 3) == 0); .ok (.fsgn (Width.ofCode (fld xlo 0 1)) rm xd xa xb)
  | 14 => do let rm ← RM.ofCode (fld xlo 4 3); chk ((fld xlo 1 3) == 0); .ok (.fsgnn (Width.ofCode (fld xlo 0 1)) rm xd xa xb)
  | 15 => do let rm ← RM.ofCode (fld xlo 4 3); chk ((fld xlo 1 3) == 0); .ok (.fsgnx (Width.ofCode (fld xlo 0 1)) rm xd xa xb)
  | 16 => do chk (xb == 0); let rm ← RM.ofCode (fld xlo 4 3); chk ((fld xlo 2 2) == 0); .ok (.frint (Width.ofCode (fld xlo 0 1)) rm ((fld xlo 1 1) == 1) xd xa)
  | 17 => do chk (xb == 0); let rm ← RM.ofCode (fld xlo 4 3); chk ((fld xlo 2 2) == 0); .ok (.fcvt (Width.ofCode (fld xlo 0 1)) rm ((fld xlo 1 1) == 1) xd xa)
  | 18 => do chk (xb == 0); let rm ← RM.ofCode (fld xlo 4 3); chk ((fld xlo 1 3) == 0); .ok (.fcvti (Width.ofCode (fld xlo 0 1)) rm xd xa)
  | 19 => do chk (xb == 0); let rm ← RM.ofCode (fld xlo 4 3); chk ((fld xlo 1 3) == 0); .ok (.fcvtf (Width.ofCode (fld xlo 0 1)) rm xd xa)
  | 20 => do chk (xb == 0); let rm ← RM.ofCode (fld xlo 4 3); chk ((fld xlo 1 3) == 0); .ok (.fmvg (Width.ofCode (fld xlo 0 1)) rm xd xa)
  | 21 => do chk (xb == 0); let rm ← RM.ofCode (fld xlo 4 3); chk ((fld xlo 1 3) == 0); .ok (.fmvf (Width.ofCode (fld xlo 0 1)) rm xd xa)
  | 22 => do let rm ← RM.ofCode (fld xlo 4 3); chk ((fld xlo 1 3) == 0); .ok (.fscale (Width.ofCode (fld xlo 0 1)) rm xd xa xb)
  | 23 => do chk (xb == 0); let rm ← RM.ofCode (fld xlo 4 3); chk ((fld xlo 1 3) == 0); .ok (.fexp (Width.ofCode (fld xlo 0 1)) rm xd xa)
  | 24 => do chk (xb == 0); let rm ← RM.ofCode (fld xlo 4 3); chk ((fld xlo 1 3) == 0); .ok (.fexp2 (Width.ofCode (fld xlo 0 1)) rm xd xa)
  | 25 => do chk (xb == 0); let rm ← RM.ofCode (fld xlo 4 3); chk ((fld xlo 1 3) == 0); .ok (.flog (Width.ofCode (fld xlo 0 1)) rm xd xa)
  | 26 => do chk (xb == 0); let rm ← RM.ofCode (fld xlo 4 3); chk ((fld xlo 1 3) == 0); .ok (.flog2 (Width.ofCode (fld xlo 0 1)) rm xd xa)
  | 27 => do chk (xb == 0); let rm ← RM.ofCode (fld xlo 4 3); chk ((fld xlo 1 3) == 0); .ok (.frcp (Width.ofCode (fld xlo 0 1)) rm xd xa)
  | 28 => do chk (xb == 0); let rm ← RM.ofCode (fld xlo 4 3); chk ((fld xlo 1 3) == 0); .ok (.frsq (Width.ofCode (fld xlo 0 1)) rm xd xa)
  | 29 => do chk (xb == 0); let rm ← RM.ofCode (fld xlo 4 3); chk ((fld xlo 1 3) == 0); .ok (.fsin (Width.ofCode (fld xlo 0 1)) rm xd xa)
  | 30 => do chk (xb == 0); let rm ← RM.ofCode (fld xlo 4 3); chk ((fld xlo 1 3) == 0); .ok (.fcos (Width.ofCode (fld xlo 0 1)) rm xd xa)
  | 31 => do chk (xb == 0); let rm ← RM.ofCode (fld xlo 4 3); chk ((fld xlo 1 3) == 0); .ok (.ftanh (Width.ofCode (fld xlo 0 1)) rm xd xa)
  | 32 => do chk (xb == 0); let rm ← RM.ofCode (fld xlo 4 3); chk ((fld xlo 1 3) == 0); .ok (.ferf (Width.ofCode (fld xlo 0 1)) rm xd xa)
  | _ => .error .unassigned

/-- FP words of layout F-Q (R80, R123). -/
def decodeFq (sel : Nat) (d a b c : BitVec 5) (rmc : BitVec 3) (wc : BitVec 1) : Except DecodeError Instr :=
  match sel with
  | 0 => do let rm ← RM.ofCode rmc; .ok (.fma (Width.ofCode wc) rm d a b c)
  | 1 => do let rm ← RM.ofCode rmc; .ok (.fms (Width.ofCode wc) rm d a b c)
  | 2 => do let rm ← RM.ofCode rmc; .ok (.fnma (Width.ofCode wc) rm d a b c)
  | 3 => do let rm ← RM.ofCode rmc; .ok (.fnms (Width.ofCode wc) rm d a b c)
  | _ => .error .unassigned

/-- VEC words (R81, R220). -/
def decodeVec (op : Nat) (xd xa xb : BitVec 6) (rmc : BitVec 3) (wc : BitVec 1) : Except DecodeError Instr :=
  match op with
  | 0 => do let rm ← RM.ofCode rmc; .ok (.vadd (Width.ofCode wc) rm xd xa xb)
  | 1 => do let rm ← RM.ofCode rmc; .ok (.vsub (Width.ofCode wc) rm xd xa xb)
  | 2 => do let rm ← RM.ofCode rmc; .ok (.vmul (Width.ofCode wc) rm xd xa xb)
  | 3 => do let rm ← RM.ofCode rmc; .ok (.vfma (Width.ofCode wc) rm xd xa xb)
  | 4 => do let rm ← RM.ofCode rmc; .ok (.vfms (Width.ofCode wc) rm xd xa xb)
  | 5 => do let rm ← RM.ofCode rmc; .ok (.vdiv (Width.ofCode wc) rm xd xa xb)
  | 6 => do chk (xb == 0); let rm ← RM.ofCode rmc; .ok (.vsqrt (Width.ofCode wc) rm xd xa)
  | 7 => do let rm ← RM.ofCode rmc; .ok (.vmin (Width.ofCode wc) rm xd xa xb)
  | 8 => do let rm ← RM.ofCode rmc; .ok (.vmax (Width.ofCode wc) rm xd xa xb)
  | 9 => do let rm ← RM.ofCode rmc; .ok (.vand (Width.ofCode wc) rm xd xa xb)
  | 10 => do let rm ← RM.ofCode rmc; .ok (.vor (Width.ofCode wc) rm xd xa xb)
  | 11 => do let rm ← RM.ofCode rmc; .ok (.vxor (Width.ofCode wc) rm xd xa xb)
  | 12 => do let rm ← RM.ofCode rmc; .ok (.vsll (Width.ofCode wc) rm xd xa xb)
  | 13 => do let rm ← RM.ofCode rmc; .ok (.vsrl (Width.ofCode wc) rm xd xa xb)
  | 14 => do let rm ← RM.ofCode rmc; .ok (.vsra (Width.ofCode wc) rm xd xa xb)
  | 15 => do let rm ← RM.ofCode rmc; .ok (.vcmpeq (Width.ofCode wc) rm xd xa xb)
  | 16 => do let rm ← RM.ofCode rmc; .ok (.vcmplt (Width.ofCode wc) rm xd xa xb)
  | 17 => do let rm ← RM.ofCode rmc; .ok (.vcmple (Width.ofCode wc) rm xd xa xb)
  | 18 => do let rm ← RM.ofCode rmc; .ok (.vsel (Width.ofCode wc) rm xd xa xb)
  | 19 => do chk ((fld xb 5 1) == 0); let rm ← RM.ofCode rmc; .ok (.vcvt (Width.ofCode wc) rm ((fld xb 0 1) == 1) xd xa (fld xb 1 4))
  | 20 => do let rm ← RM.ofCode rmc; .ok (.vrsum (Width.ofCode wc) rm xd xa xb)
  | 21 => do let rm ← RM.ofCode rmc; .ok (.vrmax (Width.ofCode wc) rm xd xa xb)
  | 22 => do let rm ← RM.ofCode rmc; .ok (.vrmin (Width.ofCode wc) rm xd xa xb)
  | 23 => do let rm ← RM.ofCode rmc; .ok (.vdot (Width.ofCode wc) rm xd xa xb)
  | 24 => do chk (xb == 0); let rm ← RM.ofCode rmc; .ok (.vbcst (Width.ofCode wc) rm xd (SReg.ofCode xa))
  | 25 => do let rm ← RM.ofCode rmc; .ok (.vext (Width.ofCode wc) rm (SReg.ofCode xd) xa xb)
  | 26 => do let rm ← RM.ofCode rmc; .ok (.vins (Width.ofCode wc) rm xd (SReg.ofCode xa) xb)
  | 27 => do let rm ← RM.ofCode rmc; .ok (.vperm (Width.ofCode wc) rm xd xa xb)
  | 28 => do chk (xb == 0); let rm ← RM.ofCode rmc; .ok (.vmov (Width.ofCode wc) rm xd xa)
  | 29 => do let fn ← TFn.ofCode xb; let rm ← RM.ofCode rmc; .ok (.vfn (Width.ofCode wc) rm xd xa fn)
  | _ => .error .unassigned

/-- MEM words of layout F-M (R82, R145, R146). -/
def decodeMemM (op : Nat) (xd xa : BitVec 5) (ximm : BitVec 12) : Except DecodeError Instr :=
  match op with
  | 0 => .ok (.ldb xd xa ximm)
  | 1 => .ok (.ldbu xd xa ximm)
  | 2 => .ok (.ldh xd xa ximm)
  | 3 => .ok (.ldhu xd xa ximm)
  | 4 => .ok (.ldw xd xa ximm)
  | 5 => .ok (.ldwu xd xa ximm)
  | 6 => .ok (.ldd xd xa ximm)
  | 7 => .ok (.stb xd xa ximm)
  | 8 => .ok (.sth xd xa ximm)
  | 9 => .ok (.stw xd xa ximm)
  | 10 => .ok (.std xd xa ximm)
  | 11 => .ok (.fldw xd xa ximm)
  | 12 => .ok (.fldd xd xa ximm)
  | 13 => .ok (.fstw xd xa ximm)
  | 14 => .ok (.fstd xd xa ximm)
  | 15 => do chk ((fld xd 2 3) == 0); let h ← Hint.ofCode (fld xd 0 2); .ok (.pref h xa ximm)
  | _ => .error .unassigned

/-- MEM words of layout F-MO (R82, R147). -/
def decodeMemO (op : Nat) (xt xa : BitVec 5) (xo xs : BitVec 3) (xb : BitVec 5) (xw : BitVec 1) : Except DecodeError Instr :=
  match op with
  | 16 => do let o ← Ord.ofCode xo; let sc ← Scope.ofCode xs; chk (xb == 0); guardWf (.ldaq (Width.ofCode xw) o sc xt xa)
  | 17 => do let o ← Ord.ofCode xo; let sc ← Scope.ofCode xs; chk (xb == 0); guardWf (.strl (Width.ofCode xw) o sc xt xa)
  | 18 => do let o ← Ord.ofCode xo; let sc ← Scope.ofCode xs; .ok (.amoadd (Width.ofCode xw) o sc xt xb xa)
  | 19 => do let o ← Ord.ofCode xo; let sc ← Scope.ofCode xs; .ok (.amoand (Width.ofCode xw) o sc xt xb xa)
  | 20 => do let o ← Ord.ofCode xo; let sc ← Scope.ofCode xs; .ok (.amoor (Width.ofCode xw) o sc xt xb xa)
  | 21 => do let o ← Ord.ofCode xo; let sc ← Scope.ofCode xs; .ok (.amoxor (Width.ofCode xw) o sc xt xb xa)
  | 22 => do let o ← Ord.ofCode xo; let sc ← Scope.ofCode xs; .ok (.amomin (Width.ofCode xw) o sc xt xb xa)
  | 23 => do let o ← Ord.ofCode xo; let sc ← Scope.ofCode xs; .ok (.amomax (Width.ofCode xw) o sc xt xb xa)
  | 24 => do let o ← Ord.ofCode xo; let sc ← Scope.ofCode xs; .ok (.amominu (Width.ofCode xw) o sc xt xb xa)
  | 25 => do let o ← Ord.ofCode xo; let sc ← Scope.ofCode xs; .ok (.amomaxu (Width.ofCode xw) o sc xt xb xa)
  | 26 => do let o ← Ord.ofCode xo; let sc ← Scope.ofCode xs; .ok (.amoswp (Width.ofCode xw) o sc xt xb xa)
  | 27 => do let o ← Ord.ofCode xo; let sc ← Scope.ofCode xs; .ok (.amocas (Width.ofCode xw) o sc xt xb xa)
  | 28 => do let o ← Ord.ofCode xo; let sc ← Scope.ofCode xs; .ok (.amofadd (Width.ofCode xw) o sc xt xb xa)
  | 29 => do chk (xt == 0); chk (xa == 0); let o ← Ord.ofCode xo; let sc ← Scope.ofCode xs; chk (xb == 0); chk (xw == 0); guardWf (.fence o sc)
  | 30 => do chk (xt == 0); chk (xo == 0); let sc ← Scope.ofCode xs; chk (xb == 0); chk (xw == 0); .ok (.cflush sc xa)
  | 31 => do chk (xt == 0); chk (xo == 0); let sc ← Scope.ofCode xs; chk (xb == 0); chk (xw == 0); .ok (.cinv sc xa)
  | _ => .error .unassigned

/-- MEM words of layout F-MV (R82, R152). -/
def decodeMemV (op : Nat) (xv : BitVec 6) (xb xx : BitVec 5) (xe : BitVec 6) : Except DecodeError Instr :=
  match op with
  | 32 => do chk (xx == 0); .ok (.vld xv xb xe)
  | 33 => do chk (xx == 0); .ok (.vst xv xb xe)
  | 34 => do chk ((fld xe 2 4) == 0); .ok (.vlds (ESz.ofCode (fld xe 0 2)) xv xb xx)
  | 35 => do chk ((fld xe 2 4) == 0); .ok (.vsts (ESz.ofCode (fld xe 0 2)) xv xb xx)
  | 36 => do chk ((fld xe 2 4) == 0); .ok (.vgth (ESz.ofCode (fld xe 0 2)) xv xb xx)
  | 37 => do chk ((fld xe 2 4) == 0); .ok (.vsct (ESz.ofCode (fld xe 0 2)) xv xb xx)
  | _ => .error .unassigned

/-- CTL words of layout F-B (R83). -/
def decodeCtlB (op : Nat) (xa xb : BitVec 5) (xdisp : BitVec 13) : Except DecodeError Instr :=
  match op with
  | 0 => .ok (.beq xa xb xdisp)
  | 1 => .ok (.bne xa xb xdisp)
  | 2 => .ok (.blt xa xb xdisp)
  | 3 => .ok (.bge xa xb xdisp)
  | 4 => .ok (.bltu xa xb xdisp)
  | 5 => .ok (.bgeu xa xb xdisp)
  | 9 => do chk (xdisp == 0); .ok (.jtab xa xb)
  | _ => .error .unassigned

/-- CTL words of the other layouts (R83, R109). -/
def decodeCtlJ (op : Nat) (xx : BitVec 23) : Except DecodeError Instr :=
  match op with
  | 6 => .ok (.jmp xx)
  | 7 => .ok (.call xx)
  | 10 => do chk ((fld xx 20 3) == 0); .ok (.lpad (fld xx 0 20))
  | 11 => guardWf (.lpset (LoopNo.ofCode (fld xx 22 1)) (fld xx 17 5) (fld xx 0 17))
  | 12 => guardWf (.lpseti (LoopNo.ofCode (fld xx 22 1)) (fld xx 12 10) (fld xx 0 12))
  | 13 => do chk ((fld xx 0 22) == 0); .ok (.lpoff (LoopNo.ofCode (fld xx 22 1)))
  | 8 => do chk (xx == 0); .ok (.ret)
  | 14 => do chk (xx == 0); .ok (.done)
  | _ => .error .unassigned

/-- ENG words (R84, R165, R233, R241, R251, R271). -/
def decodeEng (op : Nat) (xd xa xb : BitVec 5) (xlo : BitVec 7) : Except DecodeError Instr :=
  match op with
  | 0 => do chk (xd == 0); chk ((fld xlo 6 1) == 0); .ok (.put xa xb (fld xlo 0 6))
  | 1 => do chk ((fld xlo 6 1) == 0); .ok (.putb xa xb xd (fld xlo 0 6))
  | 2 => do chk (xa == 0); chk (xb == 0); chk ((fld xlo 6 1) == 0); .ok (.cntrd xd (fld xlo 0 6))
  | 3 => do chk (xd == 0); chk (xa == 0); .ok (.cntset ((fld xlo 6 1) == 1) (fld xlo 0 6) xb)
  | 4 => do chk (xa == 0); .ok (.cntadd ((fld xlo 6 1) == 1) xd xb (fld xlo 0 6))
  | 5 => do chk (xa == 0); chk ((fld xlo 6 1) == 0); .ok (.waitc xd xb (fld xlo 0 6))
  | 6 => do chk (xa == 0); chk (xb == 0); chk (xlo == 0); guardWf (.deq xd)
  | 7 => do chk (xa == 0); chk (xb == 0); chk (xlo == 0); .ok (.peek xd)
  | 9 => do chk (xd == 0); chk (xb == 0); chk ((fld xlo 5 2) == 0); .ok (.barcfg (BarMode.ofCode (fld xlo 4 1)) xa (fld xlo 0 4))
  | 10 => do chk (xa == 0); chk (xb == 0); chk ((fld xlo 4 3) == 0); .ok (.bararr xd (fld xlo 0 4))
  | 11 => do chk (xd == 0); chk (xb == 0); chk ((fld xlo 4 3) == 0); .ok (.barwait xa (fld xlo 0 4))
  | 12 => do chk (xb == 0); chk (xlo == 0); .ok (.phase xd xa)
  | 13 => do chk (xb == 0); chk (xlo == 0); .ok (.launch xd xa)
  | 14 => do chk (xb == 0); chk ((fld xlo 2 5) == 0); .ok (.lcancel xd xa (fld xlo 0 2))
  | 15 => do chk (xb == 0); chk ((fld xlo 2 5) == 0); .ok (.lcount xd xa (fld xlo 0 2))
  | 17 => do chk (xd == 0); chk (xa == 0); chk (xb == 0); chk ((fld xlo 3 4) == 0); guardWf (.nap (fld xlo 0 3))
  | 18 => do chk (xb == 0); chk (xlo == 0); guardWf (.cpy xd xa)
  | 19 => do chk (xb == 0); chk (xlo == 0); .ok (.cpys xd xa)
  | 20 => do chk (xb == 0); chk (xlo == 0); .ok (.cpyk xd xa)
  | 21 => do chk ((fld xlo 4 3) == 0); let tier ← Tier.ofCode (fld xlo 0 2); guardWf (.migr tier (fld xlo 2 2) xd xa xb)
  | 22 => do chk ((fld xlo 4 3) == 0); .ok (.repl xd xa xb (fld xlo 0 4))
  | 23 => do chk (xb == 0); chk ((fld xlo 2 5) == 0); guardWf (.strcfg (fld xlo 0 2) xd xa)
  | 24 => do chk (xd == 0); chk (xa == 0); chk (xb == 0); chk ((fld xlo 2 5) == 0); .ok (.strgo (fld xlo 0 2))
  | 25 => do chk (xd == 0); chk (xa == 0); chk (xb == 0); chk ((fld xlo 2 5) == 0); .ok (.strstop (fld xlo 0 2))
  | 26 => do chk ((fld xd 4 1) == 0); chk (xb == 0); chk (xlo == 0); .ok (.tcfg (fld xd 0 4) xa)
  | 28 => do chk ((fld xd 4 1) == 0); chk (xlo == 0); .ok (.tld (fld xd 0 4) xa xb)
  | 29 => do chk (xb == 0); chk ((fld xlo 4 3) == 0); .ok (.tldk xd (fld xlo 0 4) xa)
  | 30 => do chk ((fld xd 4 1) == 0); chk (xlo == 0); .ok (.tst (fld xd 0 4) xa xb)
  | 31 => do chk ((fld xd 4 1) == 0); chk (xa == 0); chk (xb == 0); chk (xlo == 0); .ok (.tz (fld xd 0 4))
  | 32 => do chk ((fld xd 4 1) == 0); chk (xlo == 0); .ok (.tscl (fld xd 0 4) xa xb)
  | 33 => do chk ((fld xd 2 3) == 0); chk ((fld xa 4 1) == 0); chk ((fld xb 4 1) == 0); chk ((fld xlo 5 2) == 0); let rm ← RM.ofCode (fld xlo 2 3); .ok (.mma ((fld xlo 0 1) == 1) ((fld xlo 1 1) == 1) rm (fld xd 0 2) (fld xa 0 4) (fld xb 0 4))
  | 34 => do chk ((fld xd 2 3) == 0); chk (xb == 0); chk (xlo == 0); .ok (.acz (fld xd 0 2) xa)
  | 35 => do chk ((fld xd 2 3) == 0); chk (xlo == 0); .ok (.acld (fld xd 0 2) xa xb)
  | 36 => do chk ((fld xd 2 3) == 0); chk (xlo == 0); .ok (.acst (fld xd 0 2) xa xb)
  | 37 => do chk ((fld xd 4 1) == 0); chk ((fld xa 2 3) == 0); chk (xb == 0); chk ((fld xlo 4 3) == 0); let rm ← RM.ofCode (fld xlo 0 3); .ok (.accv rm ((fld xlo 3 1) == 1) (fld xd 0 4) (fld xa 0 2))
  | 39 => do chk ((fld xd 1 4) == 0); chk (xb == 0); chk (xlo == 0); .ok (.qcfg (fld xd 0 1) xa)
  | 40 => do chk ((fld xd 1 4) == 0); chk (xa == 0); chk (xb == 0); chk (xlo == 0); .ok (.qz (fld xd 0 1))
  | 41 => do chk ((fld xd 1 4) == 0); chk ((fld xa 4 1) == 0); let rm ← RM.ofCode (fld xlo 4 3); .ok (.qapp rm (fld xd 0 1) (fld xa 0 4) xb (fld xlo 0 4))
  | 42 => do chk ((fld xd 2 3) == 0); chk ((fld xa 1 4) == 0); chk (xb == 0); chk ((fld xlo 4 3) == 0); let rm ← RM.ofCode (fld xlo 1 3); .ok (.qapl ((fld xlo 0 1) == 1) rm (fld xd 0 2) (fld xa 0 1))
  | 43 => do chk ((fld xd 2 3) == 0); chk ((fld xa 1 4) == 0); chk (xb == 0); chk ((fld xlo 4 3) == 0); let rm ← RM.ofCode (fld xlo 1 3); .ok (.qapr ((fld xlo 0 1) == 1) rm (fld xd 0 2) (fld xa 0 1))
  | 44 => do chk ((fld xd 1 4) == 0); chk (xa == 0); chk (xb == 0); chk ((fld xlo 3 4) == 0); let rm ← RM.ofCode (fld xlo 0 3); .ok (.qfold rm (fld xd 0 1))
  | 45 => do chk ((fld xa 1 4) == 0); chk (xb == 0); chk (xlo == 0); .ok (.qrd xd (fld xa 0 1))
  | 46 => do chk ((fld xd 1 4) == 0); chk (xb == 0); chk (xlo == 0); .ok (.qld (fld xd 0 1) xa)
  | 47 => do chk ((fld xd 1 4) == 0); chk (xb == 0); chk (xlo == 0); .ok (.qst (fld xd 0 1) xa)
  | 48 => do chk ((fld xd 1 4) == 0); chk ((fld xlo 3 4) == 0); let rm ← RM.ofCode (fld xlo 0 3); .ok (.qform rm (fld xd 0 1) xa xb)
  | 8 => do chk (xd == 0); chk (xa == 0); chk (xb == 0); chk (xlo == 0); .ok (.cbar)
  | 16 => do chk (xd == 0); chk (xa == 0); chk (xb == 0); chk (xlo == 0); .ok (.yield)
  | 38 => do chk (xd == 0); chk (xa == 0); chk (xb == 0); chk (xlo == 0); .ok (.msync)
  | 27 => do
    chk (xb == 0); chk (fld xlo 1 6 == 0)
    if fld xlo 0 1 == 1 then (do chk (fld xa 2 3 == 0); .ok (.trdc xd (.acc (fld xa 0 2))))
    else (do chk (fld xa 4 1 == 0); .ok (.trdc xd (.tile (fld xa 0 4))))
  | _ => .error .unassigned

/-- SYS words of layout F-S (R85, R196). -/
def decodeSysS (op : Nat) (xd xa : BitVec 5) (ximm : BitVec 12) : Except DecodeError Instr :=
  match op with
  | 1 => do chk (xd == 0); chk (xa == 0); .ok (.fmtp (Fmt.ofCode (fld ximm 0 4)) (Fmt.ofCode (fld ximm 4 4)) (Fmt.ofCode (fld ximm 8 4)))
  | 2 => do chk (xd == 0); chk (xa == 0); .ok (.trap ximm)
  | 4 => do chk (xd == 0); chk (xa == 0); .ok (.ebrk ximm)
  | 5 => do chk (xa == 0); .ok (.csrr xd ximm)
  | 6 => .ok (.csrw xd ximm xa)
  | 7 => .ok (.csrs xd ximm xa)
  | 8 => .ok (.csrc xd ximm xa)
  | 10 => do chk ((fld ximm 8 4) == 0); .ok (.ilock xd xa (fld ximm 0 8))
  | 11 => do chk ((fld ximm 8 4) == 0); .ok (.iunlk xd xa (fld ximm 0 8))
  | 0 => do chk (xd == 0); chk (xa == 0); chk (ximm == 0); .ok (.nop)
  | 3 => do chk (xd == 0); chk (xa == 0); chk (ximm == 0); .ok (.rett)
  | 9 => do chk (xd == 0); chk (xa == 0); chk (ximm == 0); .ok (.ifence)
  | _ => .error .unassigned

/-- SYS words of layout F-E (R85, R196). -/
def decodeSysE (op : Nat) (xd xa xb : BitVec 5) (xlo : BitVec 7) : Except DecodeError Instr :=
  match op with
  | 12 => do chk ((fld xlo 4 3) == 0); guardWf (.grant xd xa xb (fld xlo 0 4))
  | 13 => do chk (xlo == 0); .ok (.revoke xd xa xb)
  | 14 => do chk (xlo == 0); guardWf (.free xd xa xb)
  | 15 => do chk (xb == 0); chk (xlo == 0); .ok (.rprobe xd xa)
  | _ => .error .unassigned

/-- The instruction of a 32-bit word (R73, R78 to R85). The L bit is not read: the bundle rules of R67 read it. -/
def decode (w : BitVec 32) : Except DecodeError Instr :=
  let op6 := fldN w 22 6
  let d := fld w 17 5
  let a := fld w 12 5
  let b := fld w 7 5
  let lo := fld w 0 7
  match fldN w 28 3 with
  | 0 => decodeIntR op6 d a b lo
  | 1 => if op6 == 13 || op6 == 14 then decodeIntU op6 d (fld w 0 17) else decodeIntI op6 d a (fld w 0 12)
  | 2 =>
    if fldN w 26 2 == 3 then
      decodeFq (fldN w 24 2) (fld w 19 5) (fld w 14 5) (fld w 9 5) (fld w 4 5) (fld w 1 3) (fld w 0 1)
    else decodeFp op6 d a b lo
  | 3 => decodeVec op6 (fld w 16 6) (fld w 10 6) (fld w 4 6) (fld w 1 3) (fld w 0 1)
  | 4 =>
    if op6 < 16 then decodeMemM op6 d a (fld w 0 12)
    else if op6 < 32 then decodeMemO op6 d a (fld w 9 3) (fld w 6 3) (fld w 1 5) (fld w 0 1)
    else decodeMemV op6 (fld w 16 6) (fld w 11 5) (fld w 6 5) (fld w 0 6)
  | 5 =>
    let op5 := fldN w 23 5
    if op5 < 6 || op5 == 9 then decodeCtlB op5 (fld w 18 5) (fld w 13 5) (fld w 0 13)
    else decodeCtlJ op5 (fld w 0 23)
  | 6 => decodeEng op6 d a b lo
  | _ => if op6 < 12 then decodeSysS op6 d a (fld w 0 12) else decodeSysE op6 d a b lo

/-- A word from four bytes in memory order: little-endian (R3). -/
def wordOfBytes (b0 b1 b2 b3 : Byte) : BitVec 32 := b3 ++ b2 ++ b1 ++ b0

/-- The bytes of a word in memory order (R3). -/
def bytesOfWord (w : BitVec 32) : List Byte := [fld w 0 8, fld w 8 8, fld w 16 8, fld w 24 8]

/-- The instruction at the front of a list of bytes, and the bytes after it. -/
def decodeBytes : List Byte → Except DecodeError (Instr × List Byte)
  | b0 :: b1 :: b2 :: b3 :: rest => (decode (wordOfBytes b0 b1 b2 b3)).map (fun i => (i, rest))
  | _ => .error .short

/-- The instruction the decoder reads from an instruction whose bits are w (bit 0 the least significant of its one word). -/
def decodeTableWord (nbits w : Nat) : Option Instr :=
  if nbits ≤ 32 then ((decodeBytes (bytesOfWord (BitVec.ofNat 32 w))).toOption).map Prod.fst else none

/-- An F-R or F-E word (R73). -/
def wordR (l : BitVec 1) (cls : BitVec 3) (op : BitVec 6) (d a b : BitVec 5) (lo : BitVec 7) : BitVec 32 :=
  l ++ cls ++ op ++ d ++ a ++ b ++ lo

/-- An F-I, F-M or F-S word (R73). -/
def wordI (l : BitVec 1) (cls : BitVec 3) (op : BitVec 6) (d a : BitVec 5) (imm : BitVec 12) : BitVec 32 :=
  l ++ cls ++ op ++ d ++ a ++ imm

/-- An F-U word (R73). -/
def wordU (l : BitVec 1) (cls : BitVec 3) (op : BitVec 6) (d : BitVec 5) (imm : BitVec 17) : BitVec 32 :=
  l ++ cls ++ op ++ d ++ imm

/-- An F-Q word (R73, R80). -/
def wordQ (l : BitVec 1) (sel : BitVec 2) (d a b c : BitVec 5) (rm : BitVec 3) (w : BitVec 1) : BitVec 32 :=
  l ++ 2#3 ++ 3#2 ++ sel ++ d ++ a ++ b ++ c ++ rm ++ w

/-- An F-V word (R73). -/
def wordV (l : BitVec 1) (op : BitVec 6) (d a b : BitVec 6) (rm : BitVec 3) (w : BitVec 1) : BitVec 32 :=
  l ++ 3#3 ++ op ++ d ++ a ++ b ++ rm ++ w

/-- An F-MO word (R73, R75). -/
def wordMO (l : BitVec 1) (op : BitVec 6) (t a : BitVec 5) (o s : BitVec 3) (b : BitVec 5) (w : BitVec 1) : BitVec 32 :=
  l ++ 4#3 ++ op ++ t ++ a ++ o ++ s ++ b ++ w

/-- An F-MV word (R73, R152). -/
def wordMV (l : BitVec 1) (op : BitVec 6) (v : BitVec 6) (b x : BitVec 5) (e : BitVec 6) : BitVec 32 :=
  l ++ 4#3 ++ op ++ v ++ b ++ x ++ e

/-- An F-B word (R73). -/
def wordB (l : BitVec 1) (op : BitVec 5) (a b : BitVec 5) (disp : BitVec 13) : BitVec 32 :=
  l ++ 5#3 ++ op ++ a ++ b ++ disp

/-- An F-J, F-L or F-LI word (R73, R109). -/
def wordJ (l : BitVec 1) (op : BitVec 5) (x : BitVec 23) : BitVec 32 :=
  l ++ 5#3 ++ op ++ x

/-- The word of an instruction, with the given L bit (R67, R73); the steps of the device have none. -/
def encode (l : BitVec 1) : Instr → Option (BitVec 32)
  | .add d a b => some (wordR l 0 0 (d) (a) (b) (0))
  | .sub d a b => some (wordR l 0 1 (d) (a) (b) (0))
  | .and d a b => some (wordR l 0 2 (d) (a) (b) (0))
  | .or d a b => some (wordR l 0 3 (d) (a) (b) (0))
  | .xor d a b => some (wordR l 0 4 (d) (a) (b) (0))
  | .andn d a b => some (wordR l 0 5 (d) (a) (b) (0))
  | .sll d a b => some (wordR l 0 6 (d) (a) (b) (0))
  | .srl d a b => some (wordR l 0 7 (d) (a) (b) (0))
  | .sra d a b => some (wordR l 0 8 (d) (a) (b) (0))
  | .rol d a b => some (wordR l 0 9 (d) (a) (b) (0))
  | .ror d a b => some (wordR l 0 10 (d) (a) (b) (0))
  | .mul d a b => some (wordR l 0 11 (d) (a) (b) (0))
  | .mulh d a b => some (wordR l 0 12 (d) (a) (b) (0))
  | .mulhu d a b => some (wordR l 0 13 (d) (a) (b) (0))
  | .div d a b => some (wordR l 0 14 (d) (a) (b) (0))
  | .divu d a b => some (wordR l 0 15 (d) (a) (b) (0))
  | .rem d a b => some (wordR l 0 16 (d) (a) (b) (0))
  | .remu d a b => some (wordR l 0 17 (d) (a) (b) (0))
  | .min d a b => some (wordR l 0 18 (d) (a) (b) (0))
  | .max d a b => some (wordR l 0 19 (d) (a) (b) (0))
  | .minu d a b => some (wordR l 0 20 (d) (a) (b) (0))
  | .maxu d a b => some (wordR l 0 21 (d) (a) (b) (0))
  | .seq d a b => some (wordR l 0 22 (d) (a) (b) (0))
  | .slt d a b => some (wordR l 0 23 (d) (a) (b) (0))
  | .sltu d a b => some (wordR l 0 24 (d) (a) (b) (0))
  | .sel d a b => some (wordR l 0 25 (d) (a) (b) (0))
  | .clz d a => some (wordR l 0 26 (d) (a) (0) (0))
  | .ctz d a => some (wordR l 0 27 (d) (a) (0) (0))
  | .popc d a => some (wordR l 0 28 (d) (a) (0) (0))
  | .brev d a => some (wordR l 0 29 (d) (a) (0) (0))
  | .bswap d a => some (wordR l 0 30 (d) (a) (0) (0))
  | .addw d a b => some (wordR l 0 31 (d) (a) (b) (0))
  | .subw d a b => some (wordR l 0 32 (d) (a) (b) (0))
  | .mulw d a b => some (wordR l 0 33 (d) (a) (b) (0))
  | .sllw d a b => some (wordR l 0 34 (d) (a) (b) (0))
  | .srlw d a b => some (wordR l 0 35 (d) (a) (b) (0))
  | .sraw d a b => some (wordR l 0 36 (d) (a) (b) (0))
  | .shadd d a b sh => some (wordR l 0 37 (d) (a) (b) (sh ++ 0#4))
  | .addv d a b => some (wordR l 0 38 (d) (a) (b) (0))
  | .subv d a b => some (wordR l 0 39 (d) (a) (b) (0))
  | .xya d a b => some (wordR l 0 40 (d) (a) (b) (0))
  | .xyr d a b => some (wordR l 0 41 (d) (a) (b) (0))
  | .xyrSelf d b => some (wordR l 0 41 (d) (0) (b) (1))
  | .agep d a b => some (wordR l 0 42 (d) (a) (b) (0))
  | .agex d a => some (wordR l 0 43 (d) (a) (0) (0))
  | .addi d a imm => some (wordI l 1 0 (d) (a) (imm))
  | .andi d a imm => some (wordI l 1 1 (d) (a) (imm))
  | .ori d a imm => some (wordI l 1 2 (d) (a) (imm))
  | .xori d a imm => some (wordI l 1 3 (d) (a) (imm))
  | .slli d a sh => some (wordI l 1 4 (d) (a) (0#6 ++ sh))
  | .srli d a sh => some (wordI l 1 5 (d) (a) (0#6 ++ sh))
  | .srai d a sh => some (wordI l 1 6 (d) (a) (0#6 ++ sh))
  | .seqi d a imm => some (wordI l 1 7 (d) (a) (imm))
  | .slti d a imm => some (wordI l 1 8 (d) (a) (imm))
  | .sltui d a imm => some (wordI l 1 9 (d) (a) (imm))
  | .addwi d a imm => some (wordI l 1 10 (d) (a) (imm))
  | .bfx d a pos lenM1 => some (wordI l 1 11 (d) (a) (lenM1 ++ pos))
  | .bfi d a pos lenM1 => some (wordI l 1 12 (d) (a) (lenM1 ++ pos))
  | .lui d imm => some (wordU l 1 13 (d) (imm))
  | .apc d imm => some (wordU l 1 14 (d) (imm))
  | .fadd w rm d a b => some (wordR l 2 0 (d) (a) (b) (rm.code ++ (0#3) ++ w.code))
  | .fsub w rm d a b => some (wordR l 2 1 (d) (a) (b) (rm.code ++ (0#3) ++ w.code))
  | .fmul w rm d a b => some (wordR l 2 2 (d) (a) (b) (rm.code ++ (0#3) ++ w.code))
  | .fdiv w rm d a b => some (wordR l 2 3 (d) (a) (b) (rm.code ++ (0#3) ++ w.code))
  | .fsqrt w rm d a => some (wordR l 2 4 (d) (a) (0) (rm.code ++ (0#3) ++ w.code))
  | .fmin w rm d a b => some (wordR l 2 5 (d) (a) (b) (rm.code ++ (0#3) ++ w.code))
  | .fmax w rm d a b => some (wordR l 2 6 (d) (a) (b) (rm.code ++ (0#3) ++ w.code))
  | .fminm w rm d a b => some (wordR l 2 7 (d) (a) (b) (rm.code ++ (0#3) ++ w.code))
  | .fmaxm w rm d a b => some (wordR l 2 8 (d) (a) (b) (rm.code ++ (0#3) ++ w.code))
  | .feq w rm d a b => some (wordR l 2 9 (d) (a) (b) (rm.code ++ (0#3) ++ w.code))
  | .flt w rm d a b => some (wordR l 2 10 (d) (a) (b) (rm.code ++ (0#3) ++ w.code))
  | .fle w rm d a b => some (wordR l 2 11 (d) (a) (b) (rm.code ++ (0#3) ++ w.code))
  | .fclass w rm d a => some (wordR l 2 12 (d) (a) (0) (rm.code ++ (0#3) ++ w.code))
  | .fsgn w rm d a b => some (wordR l 2 13 (d) (a) (b) (rm.code ++ (0#3) ++ w.code))
  | .fsgnn w rm d a b => some (wordR l 2 14 (d) (a) (b) (rm.code ++ (0#3) ++ w.code))
  | .fsgnx w rm d a b => some (wordR l 2 15 (d) (a) (b) (rm.code ++ (0#3) ++ w.code))
  | .frint w rm x d a => some (wordR l 2 16 (d) (a) (0) (rm.code ++ (0#2 ++ BitVec.ofBool x) ++ w.code))
  | .fcvt w rm sat d a => some (wordR l 2 17 (d) (a) (0) (rm.code ++ (0#2 ++ BitVec.ofBool sat) ++ w.code))
  | .fcvti w rm d a => some (wordR l 2 18 (d) (a) (0) (rm.code ++ (0#3) ++ w.code))
  | .fcvtf w rm d a => some (wordR l 2 19 (d) (a) (0) (rm.code ++ (0#3) ++ w.code))
  | .fmvg w rm d a => some (wordR l 2 20 (d) (a) (0) (rm.code ++ (0#3) ++ w.code))
  | .fmvf w rm d a => some (wordR l 2 21 (d) (a) (0) (rm.code ++ (0#3) ++ w.code))
  | .fscale w rm d a b => some (wordR l 2 22 (d) (a) (b) (rm.code ++ (0#3) ++ w.code))
  | .fexp w rm d a => some (wordR l 2 23 (d) (a) (0) (rm.code ++ (0#3) ++ w.code))
  | .fexp2 w rm d a => some (wordR l 2 24 (d) (a) (0) (rm.code ++ (0#3) ++ w.code))
  | .flog w rm d a => some (wordR l 2 25 (d) (a) (0) (rm.code ++ (0#3) ++ w.code))
  | .flog2 w rm d a => some (wordR l 2 26 (d) (a) (0) (rm.code ++ (0#3) ++ w.code))
  | .frcp w rm d a => some (wordR l 2 27 (d) (a) (0) (rm.code ++ (0#3) ++ w.code))
  | .frsq w rm d a => some (wordR l 2 28 (d) (a) (0) (rm.code ++ (0#3) ++ w.code))
  | .fsin w rm d a => some (wordR l 2 29 (d) (a) (0) (rm.code ++ (0#3) ++ w.code))
  | .fcos w rm d a => some (wordR l 2 30 (d) (a) (0) (rm.code ++ (0#3) ++ w.code))
  | .ftanh w rm d a => some (wordR l 2 31 (d) (a) (0) (rm.code ++ (0#3) ++ w.code))
  | .ferf w rm d a => some (wordR l 2 32 (d) (a) (0) (rm.code ++ (0#3) ++ w.code))
  | .fma w rm d a b c => some (wordQ l 0 d a b c rm.code w.code)
  | .fms w rm d a b c => some (wordQ l 1 d a b c rm.code w.code)
  | .fnma w rm d a b c => some (wordQ l 2 d a b c rm.code w.code)
  | .fnms w rm d a b c => some (wordQ l 3 d a b c rm.code w.code)
  | .vadd w rm d a b => some (wordV l 0 (d) (a) (b) rm.code w.code)
  | .vsub w rm d a b => some (wordV l 1 (d) (a) (b) rm.code w.code)
  | .vmul w rm d a b => some (wordV l 2 (d) (a) (b) rm.code w.code)
  | .vfma w rm d a b => some (wordV l 3 (d) (a) (b) rm.code w.code)
  | .vfms w rm d a b => some (wordV l 4 (d) (a) (b) rm.code w.code)
  | .vdiv w rm d a b => some (wordV l 5 (d) (a) (b) rm.code w.code)
  | .vsqrt w rm d a => some (wordV l 6 (d) (a) (0) rm.code w.code)
  | .vmin w rm d a b => some (wordV l 7 (d) (a) (b) rm.code w.code)
  | .vmax w rm d a b => some (wordV l 8 (d) (a) (b) rm.code w.code)
  | .vand w rm d a b => some (wordV l 9 (d) (a) (b) rm.code w.code)
  | .vor w rm d a b => some (wordV l 10 (d) (a) (b) rm.code w.code)
  | .vxor w rm d a b => some (wordV l 11 (d) (a) (b) rm.code w.code)
  | .vsll w rm d a b => some (wordV l 12 (d) (a) (b) rm.code w.code)
  | .vsrl w rm d a b => some (wordV l 13 (d) (a) (b) rm.code w.code)
  | .vsra w rm d a b => some (wordV l 14 (d) (a) (b) rm.code w.code)
  | .vcmpeq w rm d a b => some (wordV l 15 (d) (a) (b) rm.code w.code)
  | .vcmplt w rm d a b => some (wordV l 16 (d) (a) (b) rm.code w.code)
  | .vcmple w rm d a b => some (wordV l 17 (d) (a) (b) rm.code w.code)
  | .vsel w rm d a b => some (wordV l 18 (d) (a) (b) rm.code w.code)
  | .vcvt w rm sat d a part => some (wordV l 19 (d) (a) (0#1 ++ part ++ BitVec.ofBool sat) rm.code w.code)
  | .vrsum w rm d a b => some (wordV l 20 (d) (a) (b) rm.code w.code)
  | .vrmax w rm d a b => some (wordV l 21 (d) (a) (b) rm.code w.code)
  | .vrmin w rm d a b => some (wordV l 22 (d) (a) (b) rm.code w.code)
  | .vdot w rm d a b => some (wordV l 23 (d) (a) (b) rm.code w.code)
  | .vbcst w rm d rs => some (wordV l 24 (d) (rs.code) (0) rm.code w.code)
  | .vext w rm rd a lane => some (wordV l 25 (rd.code) (a) (lane) rm.code w.code)
  | .vins w rm d rs lane => some (wordV l 26 (d) (rs.code) (lane) rm.code w.code)
  | .vperm w rm d a b => some (wordV l 27 (d) (a) (b) rm.code w.code)
  | .vmov w rm d a => some (wordV l 28 (d) (a) (0) rm.code w.code)
  | .vfn w rm d a fn => some (wordV l 29 (d) (a) (fn.code) rm.code w.code)
  | .ldb t b disp => some (wordI l 4 0 (t) (b) (disp))
  | .ldbu t b disp => some (wordI l 4 1 (t) (b) (disp))
  | .ldh t b disp => some (wordI l 4 2 (t) (b) (disp))
  | .ldhu t b disp => some (wordI l 4 3 (t) (b) (disp))
  | .ldw t b disp => some (wordI l 4 4 (t) (b) (disp))
  | .ldwu t b disp => some (wordI l 4 5 (t) (b) (disp))
  | .ldd t b disp => some (wordI l 4 6 (t) (b) (disp))
  | .stb t b disp => some (wordI l 4 7 (t) (b) (disp))
  | .sth t b disp => some (wordI l 4 8 (t) (b) (disp))
  | .stw t b disp => some (wordI l 4 9 (t) (b) (disp))
  | .std t b disp => some (wordI l 4 10 (t) (b) (disp))
  | .fldw t b disp => some (wordI l 4 11 (t) (b) (disp))
  | .fldd t b disp => some (wordI l 4 12 (t) (b) (disp))
  | .fstw t b disp => some (wordI l 4 13 (t) (b) (disp))
  | .fstd t b disp => some (wordI l 4 14 (t) (b) (disp))
  | .pref h b disp => some (wordI l 4 15 (0#3 ++ h.code) (b) (disp))
  | .ldaq w o sc t a => some (wordMO l 16 (t) (a) (o.code) (sc.code) (0) (w.code))
  | .strl w o sc t a => some (wordMO l 17 (t) (a) (o.code) (sc.code) (0) (w.code))
  | .amoadd w o sc t b a => some (wordMO l 18 (t) (a) (o.code) (sc.code) (b) (w.code))
  | .amoand w o sc t b a => some (wordMO l 19 (t) (a) (o.code) (sc.code) (b) (w.code))
  | .amoor w o sc t b a => some (wordMO l 20 (t) (a) (o.code) (sc.code) (b) (w.code))
  | .amoxor w o sc t b a => some (wordMO l 21 (t) (a) (o.code) (sc.code) (b) (w.code))
  | .amomin w o sc t b a => some (wordMO l 22 (t) (a) (o.code) (sc.code) (b) (w.code))
  | .amomax w o sc t b a => some (wordMO l 23 (t) (a) (o.code) (sc.code) (b) (w.code))
  | .amominu w o sc t b a => some (wordMO l 24 (t) (a) (o.code) (sc.code) (b) (w.code))
  | .amomaxu w o sc t b a => some (wordMO l 25 (t) (a) (o.code) (sc.code) (b) (w.code))
  | .amoswp w o sc t b a => some (wordMO l 26 (t) (a) (o.code) (sc.code) (b) (w.code))
  | .amocas w o sc t b a => some (wordMO l 27 (t) (a) (o.code) (sc.code) (b) (w.code))
  | .amofadd w o sc t b a => some (wordMO l 28 (t) (a) (o.code) (sc.code) (b) (w.code))
  | .fence o sc => some (wordMO l 29 (0) (0) (o.code) (sc.code) (0) (0))
  | .cflush sc a => some (wordMO l 30 (0) (a) (0) (sc.code) (0) (0))
  | .cinv sc a => some (wordMO l 31 (0) (a) (0) (sc.code) (0) (0))
  | .vld v b disp => some (wordMV l 32 (v) (b) (0) (disp))
  | .vst v b disp => some (wordMV l 33 (v) (b) (0) (disp))
  | .vlds e v b x => some (wordMV l 34 (v) (b) (x) (0#4 ++ e.code))
  | .vsts e v b x => some (wordMV l 35 (v) (b) (x) (0#4 ++ e.code))
  | .vgth e v b x => some (wordMV l 36 (v) (b) (x) (0#4 ++ e.code))
  | .vsct e v b x => some (wordMV l 37 (v) (b) (x) (0#4 ++ e.code))
  | .beq a b disp => some (wordB l 0 (a) (b) (disp))
  | .bne a b disp => some (wordB l 1 (a) (b) (disp))
  | .blt a b disp => some (wordB l 2 (a) (b) (disp))
  | .bge a b disp => some (wordB l 3 (a) (b) (disp))
  | .bltu a b disp => some (wordB l 4 (a) (b) (disp))
  | .bgeu a b disp => some (wordB l 5 (a) (b) (disp))
  | .jmp disp => some (wordJ l 6 (disp))
  | .call disp => some (wordJ l 7 (disp))
  | .jtab a b => some (wordB l 9 (a) (b) (0))
  | .lpad label => some (wordJ l 10 (0#3 ++ label))
  | .lpset n c off => some (wordJ l 11 (n.code ++ c ++ off))
  | .lpseti n count off => some (wordJ l 12 (n.code ++ count ++ off))
  | .lpoff n => some (wordJ l 13 (n.code ++ 0#22))
  | .put a b n => some (wordR l 6 0 (0) (a) (b) (0#1 ++ n))
  | .putb a b d n => some (wordR l 6 1 (d) (a) (b) (0#1 ++ n))
  | .cntrd d n => some (wordR l 6 2 (d) (0) (0) (0#1 ++ n))
  | .cntset rel n b => some (wordR l 6 3 (0) (0) (b) (BitVec.ofBool rel ++ n))
  | .cntadd rel d b n => some (wordR l 6 4 (d) (0) (b) (BitVec.ofBool rel ++ n))
  | .waitc d b n => some (wordR l 6 5 (d) (0) (b) (0#1 ++ n))
  | .deq d => some (wordR l 6 6 (d) (0) (0) (0))
  | .peek d => some (wordR l 6 7 (d) (0) (0) (0))
  | .barcfg m a n => some (wordR l 6 9 (0) (a) (0) (0#2 ++ m.code ++ n))
  | .bararr d n => some (wordR l 6 10 (d) (0) (0) (0#3 ++ n))
  | .barwait a n => some (wordR l 6 11 (0) (a) (0) (0#3 ++ n))
  | .phase d a => some (wordR l 6 12 (d) (a) (0) (0))
  | .launch d a => some (wordR l 6 13 (d) (a) (0) (0))
  | .lcancel d a lvl => some (wordR l 6 14 (d) (a) (0) (0#5 ++ lvl))
  | .lcount d a lvl => some (wordR l 6 15 (d) (a) (0) (0#5 ++ lvl))
  | .nap m => some (wordR l 6 17 (0) (0) (0) (0#4 ++ m))
  | .cpy d a => some (wordR l 6 18 (d) (a) (0) (0))
  | .cpys d a => some (wordR l 6 19 (d) (a) (0) (0))
  | .cpyk d a => some (wordR l 6 20 (d) (a) (0) (0))
  | .migr tier die d a b => some (wordR l 6 21 (d) (a) (b) (0#3 ++ die ++ tier.code))
  | .repl d a b m => some (wordR l 6 22 (d) (a) (b) (0#3 ++ m))
  | .strcfg p v a => some (wordR l 6 23 (v) (a) (0) (0#5 ++ p))
  | .strgo p => some (wordR l 6 24 (0) (0) (0) (0#5 ++ p))
  | .strstop p => some (wordR l 6 25 (0) (0) (0) (0#5 ++ p))
  | .tcfg k a => some (wordR l 6 26 (0#1 ++ k) (a) (0) (0))
  | .trdc d r => some (wordR l 6 27 (d) (r.code) (0) (0#6 ++ r.flag))
  | .tld k a b => some (wordR l 6 28 (0#1 ++ k) (a) (b) (0))
  | .tldk d k a => some (wordR l 6 29 (d) (a) (0) (0#3 ++ k))
  | .tst k a b => some (wordR l 6 30 (0#1 ++ k) (a) (b) (0))
  | .tz k => some (wordR l 6 31 (0#1 ++ k) (0) (0) (0))
  | .tscl k a b => some (wordR l 6 32 (0#1 ++ k) (a) (b) (0))
  | .mma ta tb rm ad ka kb => some (wordR l 6 33 (0#3 ++ ad) (0#1 ++ ka) (0#1 ++ kb) (0#2 ++ rm.code ++ BitVec.ofBool tb ++ BitVec.ofBool ta))
  | .acz ad a => some (wordR l 6 34 (0#3 ++ ad) (a) (0) (0))
  | .acld ad a b => some (wordR l 6 35 (0#3 ++ ad) (a) (b) (0))
  | .acst ad a b => some (wordR l 6 36 (0#3 ++ ad) (a) (b) (0))
  | .accv rm sat k aa => some (wordR l 6 37 (0#1 ++ k) (0#3 ++ aa) (0) (0#3 ++ BitVec.ofBool sat ++ rm.code))
  | .qcfg q a => some (wordR l 6 39 (0#4 ++ q) (a) (0) (0))
  | .qz q => some (wordR l 6 40 (0#4 ++ q) (0) (0) (0))
  | .qapp rm q k b col => some (wordR l 6 41 (0#4 ++ q) (0#1 ++ k) (b) (rm.code ++ col))
  | .qapl t rm ad q => some (wordR l 6 42 (0#3 ++ ad) (0#4 ++ q) (0) (0#3 ++ rm.code ++ BitVec.ofBool t))
  | .qapr t rm ad q => some (wordR l 6 43 (0#3 ++ ad) (0#4 ++ q) (0) (0#3 ++ rm.code ++ BitVec.ofBool t))
  | .qfold rm q => some (wordR l 6 44 (0#4 ++ q) (0) (0) (0#4 ++ rm.code))
  | .qrd d q => some (wordR l 6 45 (d) (0#4 ++ q) (0) (0))
  | .qld q a => some (wordR l 6 46 (0#4 ++ q) (a) (0) (0))
  | .qst q a => some (wordR l 6 47 (0#4 ++ q) (a) (0) (0))
  | .qform rm q a b => some (wordR l 6 48 (0#4 ++ q) (a) (b) (0#4 ++ rm.code))
  | .fmtp f1 f2 fd => some (wordI l 7 1 (0) (0) (fd.code ++ f2.code ++ f1.code))
  | .trap n => some (wordI l 7 2 (0) (0) (n))
  | .ebrk n => some (wordI l 7 4 (0) (0) (n))
  | .csrr d csr => some (wordI l 7 5 (d) (0) (csr))
  | .csrw d csr a => some (wordI l 7 6 (d) (a) (csr))
  | .csrs d csr a => some (wordI l 7 7 (d) (a) (csr))
  | .csrc d csr a => some (wordI l 7 8 (d) (a) (csr))
  | .ilock d a nM1 => some (wordI l 7 10 (d) (a) (0#4 ++ nM1))
  | .iunlk d a nM1 => some (wordI l 7 11 (d) (a) (0#4 ++ nM1))
  | .grant d a b rights => some (wordR l 7 12 (d) (a) (b) (0#3 ++ rights))
  | .revoke d a b => some (wordR l 7 13 (d) (a) (b) (0))
  | .free d a b => some (wordR l 7 14 (d) (a) (b) (0))
  | .rprobe d a => some (wordR l 7 15 (d) (a) (0) (0))
  | .unassignedOpcode _ => none
  | .ret => some (wordJ l 8 (0))
  | .done => some (wordJ l 14 (0))
  | .cbar => some (wordR l 6 8 (0) (0) (0) (0))
  | .yield => some (wordR l 6 16 (0) (0) (0) (0))
  | .msync => some (wordR l 6 38 (0) (0) (0) (0))
  | .nop => some (wordI l 7 0 (0) (0) (0))
  | .rett => some (wordI l 7 3 (0) (0) (0))
  | .ifence => some (wordI l 7 9 (0) (0) (0))
  | .deferredTrap => none
  | .engineAccept => none
  | .vectorOpComplete => none
  | .matrixService => none
  | .matrixOpComplete => none
  | .copyLine => none
  | .copyEnd => none
  | .putDelivery => none
  | .waitcSatisfied => none
  | .deqWake => none
  | .crewBarrierComplete => none
  | .barwaitWake => none
  | .phaseComplete => none
  | .napWake => none
  | .msyncComplete => none
  | .lcancelComplete => none
  | .cpykComplete => none
  | .freeResult => none
  | .grantPerformed => none
  | .revocationCut => none
  | .coreCut => none
  | .cutAcknowledge => none
  | .revokeDone => none
  | .migrationLineCopy => none
  | .migrDone => none
  | .replDone => none
  | .sequencerWrite => none
  | .sealedBufferMove => none
  | .faultRecord => none
  | .dispatch => none
  | .crewDone => none
  | .launchComplete => none
  | .dependenceTest => none
  | .promotion => none
  | .coreReservation => none
  | .watchdogExpiry => none
  | .leaderChange => none
  | .graceExpiry => none
  | .drainEnd => none
  | .functionLevelReset => none
  | .coldReset => none
  | .sensorAlarm => none
  | .tamperMeshBroken => none
  | .threadRegisterError => none
  | .engineRegisterError => none
  | .icacheError => none
  | .correctedError => none
  | .instructionFill => none
  | .textKeySwitch => none
  | .flitReceive => none
  | .sublinkRekey => none
  | .expanderLinkDown => none
  | .powerSample => none
  | .identify => none
  | .attest => none
  | .ctxCreate => none
  | .ctxCreateRootEntry => none
  | .ctxCreateRemoveRoot => none
  | .ctxDestroy => none
  | .jobStart => none
  | .jobCancel => none
  | .preempt => none
  | .restore => none
  | .checkpoint => none
  | .checkpointRecover => none
  | .setQos => none
  | .setQosConfigRecord => none
  | .dirtyLogCfg => none
  | .readCounter => none
  | .rasLog => none
  | .keyUpdate => none
  | .keyUpdateAllowList => none
  | .getVersion => none
  | .getCapabilities => none
  | .negotiateAlgorithms => none
  | .getDigests => none
  | .getCertificate => none
  | .challenge => none
  | .getMeasurements => none
  | .keyExchange => none
  | .finish => none
  | .spdmKeyUpdate => none
  | .heartbeat => none
  | .endSession => none
  | .lockInterfaceRequest => none
  | .getDeviceInterfaceReport => none
  | .getDeviceInterfaceState => none
  | .startInterfaceRequest => none
  | .stopInterfaceRequest => none
  | .resolve => none
  | .reject => none
  | .fqstRead => none
  | .dirtyLogReset => none
  | .dlconsWrite => none
  | .tlbi => none
  | .invalidationDone => none
  | .apertureAccess => none
  | .registerWrite => none
  | .bandwidthWindowEnd => none
  | .interfaceError => none
  | .memoryManagerMove => none
  | .streamFetchAhead => none

end Sys2Proof
end

