-- ==== Sys2Proof/Machine/Layout.lean ====
section
/-! DEFINITION. The layout record of a copy and the bytes that its elements name (spec/11_copy_engine.md R242, R245). -/

namespace Sys2Proof.Machine

/-! ### The layout record (R242) -/

/-- A layout record. -/
abbrev Layout := BitVec 768

/-- A record from its words. -/
def Layout.ofWords (ws : List Word) : Layout := BitVec.ofNat 768 (ws.foldr (fun w a => w.toNat + 2 ^ 64 * a) 0)
/-- SRC. -/
def Layout.src (r : Layout) : Word := fld r 0 64
/-- DST. -/
def Layout.dst (r : Layout) : Word := fld r 64 64
/-- The extent of a dimension. -/
def Layout.e (r : Layout) (k : Nat) : Nat := fldN r (128 + 16 * k) 16
/-- The source stride of dimension 1, 2 or 3, in bytes. -/
def Layout.s (r : Layout) (k : Nat) : Int := (fld r (128 + 64 * k) 40).toInt
/-- The window origin of a dimension. -/
def Layout.o (r : Layout) (k : Nat) : Nat := fldN r (384 + 16 * k) 16
/-- The window size of a dimension. -/
def Layout.n (r : Layout) (k : Nat) : Nat := fldN r (448 + 16 * k) 16
/-- D1. -/
def Layout.d1 (r : Layout) : Int := (fld r 512 32).toInt
/-- D2. -/
def Layout.d2 (r : Layout) : Int := (fld r 544 32).toInt
/-- SF. -/
def Layout.sf (r : Layout) : Fmt := Fmt.ofCode (fld r 576 4)
/-- DF. -/
def Layout.df (r : Layout) : Fmt := Fmt.ofCode (fld r 580 4)
/-- The code of RM. -/
def Layout.rmCode (r : Layout) : Nat := fldN r 584 3
/-- RM. -/
def Layout.rm (r : Layout) : RM := (RM.ofCode (fld r 584 3)).toOption.getD .rne
/-- SAT. -/
def Layout.sat (r : Layout) : Bool := bitAt r 587
/-- GR. -/
def Layout.gr (r : Layout) : Nat := fldN r 588 4
/-- IM. -/
def Layout.im (r : Layout) : Nat := fldN r 592 2
/-- FILL. -/
def Layout.fill (r : Layout) : Nat := fldN r 640 64
/-- CNT. -/
def Layout.cnt (r : Layout) : Nat := fldN r 704 6
/-- POST. -/
def Layout.post (r : Layout) : Bool := bitAt r 712
/-- INC. -/
def Layout.inc (r : Layout) : Bool := bitAt r 713
/-- TAG. -/
def Layout.tag (r : Layout) : Nat := fldN r 752 16
/-- Elements of the window. -/
def Layout.total (r : Layout) : Nat := r.n 0 * r.n 1 * r.n 2 * r.n 3
/-- Half-bytes of a source element. -/
def Layout.ssz (r : Layout) : Nat := r.sf.store / 4
/-- Half-bytes of a destination element. -/
def Layout.dsz (r : Layout) : Nat := r.df.store / 4

/-! ### Elements (R245) -/

/-- The byte, from DST, of a window element, before its half for formats of half a byte (R245). -/
def Layout.dstOff (r : Layout) (j0 j1 j2 j3 : Nat) : Int :=
  let x : Int := j0 * r.dsz / 2 + j1 * r.d1 + j2 * r.d2 + j3 * r.d2 * r.n 2
  match r.im with
  | 1 =>
    let b : Int := 2 ^ (r.gr + 5)
    let low := (x % b).toNat
    x - x % b + (low ^^^ ((j1 % 32) <<< r.gr) : Nat)
  | 2 => x + j1 * 2 ^ r.gr
  | _ => x

/-- The layout of a copy. -/
def CopyOp.layout (p : CopyOp) : Layout := Layout.ofWords p.words

/-- The window indices of element i (R245). -/
def Layout.index (r : Layout) (i : Nat) : Nat × Nat × Nat × Nat :=
  (i % r.n 0, i / r.n 0 % r.n 1, i / r.n 0 / r.n 1 % r.n 2, i / r.n 0 / r.n 1 / r.n 2)

/-- The destination pointer of element i, and whether it is the high half of its byte. -/
def Layout.dstPtr (r : Layout) (i : Nat) : Word × Bool :=
  let (j0, j1, j2, j3) := r.index i
  (r.dst + BitVec.ofInt 64 (r.dstOff j0 j1 j2 j3), r.dsz == 1 && j0 % 2 == 1)

/-- The row of source elements that element i stands in, and its index there; none for a filled element. -/
def Layout.srcRow (r : Layout) (i : Nat) : Option (Word × Nat) :=
  let (j0, j1, j2, j3) := r.index i
  let x0 := r.o 0 + j0
  let x1 := r.o 1 + j1
  let x2 := r.o 2 + j2
  let x3 := r.o 3 + j3
  if x0 ≥ r.e 0 ∨ x1 ≥ r.e 1 ∨ x2 ≥ r.e 2 ∨ x3 ≥ r.e 3 then none
  else some (r.src + BitVec.ofInt 64 (x1 * r.s 1 + x2 * r.s 2 + x3 * r.s 3), x0)

/-- The source pointer of an element of a row, for a format whose elements have a size. -/
def Layout.srcPtr (r : Layout) (row : Word) (x0 : Nat) : Word := row + BitVec.ofNat 64 (x0 * r.ssz / 2)

/-- The pointer of the 64-byte line that holds a byte. -/
def lineOf (p : Word) : Word := setFld p 0 6 0

/-- The offset of a byte in its line. -/
def inLine (p : Word) : Nat := fldN p 0 6

/-! ### What a copy has still to do -/

/-- Elements from one on stand in the destination line that the one before it stands in (R248). -/
def CopyOp.midLine (p : CopyOp) : Bool :=
  let r := p.layout
  decide (0 < p.next) && decide (p.next < r.total) && lineOf (r.dstPtr p.next).1 == lineOf (r.dstPtr (p.next - 1)).1

/-- Some element that has still to be moved, or a byte that has still to be written, stands in a destination line (R321). -/
def CopyOp.needsDst (p : CopyOp) (line : Word) : Bool :=
  let r := p.layout
  let first := if p.buf.isEmpty then p.next else p.next - 1
  (List.range (r.total - first)).any (fun k => lineOf (r.dstPtr (first + k)).1 == line)

/-- Some element that has still to be moved is read from a source line (R321); of a Shale row, whose blocks have no fixed place, from any
that its blocks up to the element's could reach at 46 bytes each. -/
def CopyOp.needsSrc (p : CopyOp) (line : Word) : Bool :=
  let r := p.layout
  (List.range (r.total - p.next)).any (fun k => match r.srcRow (p.next + k) with
    | some (row, x0) =>
      if r.sf = .e4m3sh then decide ((line - lineOf row).toNat < 46 * (x0 / 32 + 1) + inLine row)
      else lineOf (r.srcPtr row x0) == line
    | none => false)

end Sys2Proof.Machine
end

