-- ==== Sys2Proof/Machine/Access.lean ====
section
/-! DEFINITION. The access check: regions (spec/01_machine_state.md R26 to R32), translation (spec/16_memory_hierarchy.md R295,
R301 to R306), rights (spec/17_rights_hardware.md R312, R317) and the order of spec/06_memory_access.md R142 to R144. -/

namespace Sys2Proof.Machine

/-! ### Outcomes of an operation -/

/-- What an operation of a step ends in: a value with the state so far, a trap, a wait (the step has had no effect and issues
again), or a stop of the machine. -/
inductive Res (α : Type)
  | ok (s : State) (x : α)
  | trap (s : State) (i : TrapInfo)
  | wait (s : State) (w : Wait)
  | stop (f : Fault)
  deriving DecidableEq, Repr

/-- An operation followed by another. -/
def Res.bind {α β : Type} : Res α → (State → α → Res β) → Res β
  | .ok s x, k => k s x
  | .trap s i, _ => .trap s i
  | .wait s w, _ => .wait s w
  | .stop f, _ => .stop f

/-- The code of a cause (R198). -/
def Cause.code : Cause → Nat
  | .illins => 0x01 | .illbun => 0x02 | .illpfx => 0x03 | .priv => 0x04 | .trap => 0x05 | .ebrk => 0x06 | .ovf => 0x07
  | .fpx => 0x08 | .ialign => 0x09 | .jbound => 0x0A | .lpadx => 0x0B | .lpnest => 0x0C | .vwin => 0x0D
  | .align => 0x10 | .vaddr => 0x11 | .spaddr => 0x12 | .pfault => 0x13 | .rights => 0x14 | .stale => 0x15
  | .poison => 0x16 | .aliasamo => 0x17 | .amohost => 0x18 | .range => 0x19
  | .msglen => 0x20 | .inboxq => 0x21 | .inboxe => 0x22 | .barmem => 0x23 | .barbusy => 0x24 | .bardup => 0x25
  | .barovf => 0x26 | .lrec => 0x27 | .lqfull => 0x28
  | .mcfg => 0x30 | .mshape => 0x31 | .shfmt => 0x32 | .qovf => 0x33 | .resfld => 0x34 | .strflt => 0x35

/-- The trap of a cause with its taddr and tval (R197). -/
def Cause.info (c : Cause) (taddr tval : Word := 0) : TrapInfo := { cause := BitVec.ofNat 64 c.code, taddr, tval }

/-- The FETCH flag of tcause (R197, R198). -/
def TrapInfo.fetch (i : TrapInfo) : TrapInfo := { i with cause := setBit i.cause 8 true }

/-- The DEF flag of tcause (R197, R201). -/
def TrapInfo.deferred (i : TrapInfo) : TrapInfo := { i with cause := setBit i.cause 9 true }

/-! ### Pointers and regions -/

/-- The virtual address of a pointer (R26). -/
def vaOf (p : Word) : Nat := fldN p 0 56
/-- The age of a pointer (R26). -/
def ageOf (p : Word) : BitVec 8 := fld p 56 8

/-- The regions of R27. -/
inductive Region | glob | spad | dev | reserved
  deriving DecidableEq, Repr

/-- The region of a virtual address (R27). -/
def regionOf (va : Nat) : Region :=
  if va / 2 ^ 52 < 0xE then .glob
  else if va / 2 ^ 48 = 0xF8 then .spad
  else if va / 2 ^ 48 = 0xFC then .dev
  else .reserved

/-- A range lies within one region of R27 (R211, R313). -/
def oneRegion (va len : Nat) : Bool := regionOf va == .glob && va / 2 ^ 52 == (va + len - 1) / 2 ^ 52

/-- The physical core and byte offset that a scratchpad-window pointer names for a core of a context, or none for SPADDR
(R31, R32). -/
def State.spadTarget (s : State) (c : Nat) (p : Word) : Option (Nat × Nat) :=
  let mode := fldN p 46 2
  let x := fldN p 40 6
  let y := fldN p 35 5
  let k := s.ctx (s.ownerOf c)
  let own := k.coords c
  if mode = 3 ∨ fldN p 18 17 ≠ 0 ∨ y > 23 then none
  else
    let t : Option (Nat × Nat) :=
      if mode = 0 then some (x, y)
      else if mode = 1 then some ((own.1 + x) % 64, (own.2 + y) % 24)
      else if x ≠ 0 ∨ y ≠ 0 then none else some own
    t.bind (fun t => (k.coreAt t.1 t.2).map (fun c' => (c', fldN p 0 18)))

/-! ### Storage (R295) -/

/-- Bytes of all HBM stacks (R295). -/
def hbmBytes : Nat := 12 * 0xC00000000
/-- Bytes of an expander (R295). -/
def expBytes : Nat := 0x18000000000
/-- First local address of the second tier (R295). -/
def expBase : Nat := 0x080000000000
/-- First local address of host memory (R295). -/
def hostBase : Nat := 0x180000000000
/-- Bytes of the checkpoint region that leaves may not name: the least it holds (R302, R311; log 8). -/
def ckBytes : Nat := 600 * 2 ^ 30

/-- What stores a byte. -/
inductive Home | hbm | exp (e : Nat) | host | peer (dev : Nat) | hole
  deriving DecidableEq, Repr

/-- The storage of a local address (R295). -/
def localHome (a : Nat) : Home :=
  if a < hbmBytes then .hbm
  else if expBase ≤ a ∧ a < expBase + 8 * expBytes then .exp ((a - expBase) / expBytes)
  else if hostBase ≤ a ∧ a < 2 ^ 45 then .host
  else .hole

/-- The device number of an SPA (R295). -/
def spaDev (spa : Nat) : Nat := spa / 2 ^ 45
/-- The local address of an SPA (R295). -/
def spaLocal (spa : Nat) : Nat := spa % 2 ^ 45

/-- The storage of an SPA (R295). -/
def State.home (s : State) (spa : Nat) : Home :=
  if spaDev spa = s.dev.devnum.toNat then localHome (spaLocal spa) else .peer (spaDev spa)

/-- The SPA of the device's own local address (R295). -/
def State.own (s : State) (a : Nat) : Nat := s.dev.devnum.toNat * 2 ^ 45 + a

/-- The home die of a local line (R295): the die beside its HBM stack, or that of its expander; of a line of host memory, which has none, die
0 (DESIGN CHOICE, log 46). -/
def homeDie (spa : Nat) : Nat :=
  match localHome (spaLocal spa) with
  | .hbm => spaLocal spa / 0xC00000000 / 3
  | .exp e => e / 2
  | _ => 0

/-! ### The die caches (R298) -/

/-- Lines of a die cache of 64 MiB. -/
def dieLines : Nat := 2 ^ 20

/-- A line is homed at a die cache: a line of the device's HBM or second tier. -/
def State.dieHomed (s : State) (line : Nat) : Bool :=
  match s.home (line * 64) with
  | .hbm | .exp _ => true
  | _ => false

/-- The home die cache of a line holds it. -/
def State.dieHolds (s : State) (line : Nat) : Bool :=
  s.dieHomed line && (Map.getD s.dies (homeDie (line * 64)) []).contains line

/-- The home die cache of a line holds it from now on; the line used longest ago goes where it is full, its copy written back
(log 7). -/
def State.dieTouch (s : State) (line : Nat) : State :=
  if s.dieHomed line then
    let d := homeDie (line * 64)
    let ls := line :: (Map.getD s.dies d []).filter (· != line)
    { s with dies := Map.put s.dies d (ls.take dieLines), stored := (ls.drop dieLines).foldl Map.del s.stored }
  else s

/-- The die-cache copy of a line is written back to its backing memory (R151). -/
def State.dieWriteBack (s : State) (line : Nat) : State := { s with stored := s.stored.del line }

/-! ### Where an access is performed -/

/-- The place of a byte of a page that is being migrated (R307): the destination below the progress pointer, the source from
it on. -/
def State.redirect (s : State) (spa : Nat) : Nat :=
  let go (acc : Nat) (m : MigEntry) : Nat :=
    let size := m.lines * 64
    if m.src ≤ acc ∧ acc < m.src + size then
      (if (acc - m.src) / 64 < m.p then m.dst + (acc - m.src) else acc)
    else if m.dst ≤ acc ∧ acc < m.dst + size then
      (if (acc - m.dst) / 64 < m.p then acc else m.src + (acc - m.dst))
    else acc
  s.hub.mig.foldl (fun acc e => go acc e.2) spa

/-- The local replica of a frame on a die (R309). -/
def State.replica (s : State) (die spa : Nat) : Option Nat :=
  (Map.find? s.hub.replicas (die * 2 ^ 48 + spaLocal spa / 2 ^ 16)).map
    (fun f => s.own (f * 2 ^ 16 + spa % 2 ^ 16))

/-- A function reaches a peer over one of its sub-links (R401, R402): one that is up and not about to be rekeyed, since what it
carries from its third tag failure on is lost with its replay buffer (log 2). -/
def State.reaches (s : State) (fn dev : Nat) : Bool :=
  decide (dev < 400000) && s.hub.links.any (fun l => l.2.owner == some fn && l.2.up && decide (l.2.tagFails < 3))

/-- The home can be reached by a function's accesses (R397, R401). -/
def State.homeUp (s : State) (fn spa : Nat) : Bool :=
  match s.home spa with
  | .peer d => s.reaches fn d
  | .exp e => !(s.hub.expDown.contains e)
  | _ => true

/-- The expander of an SPA whose link is down (R397). -/
def State.downExp (s : State) (spa : Nat) : Bool :=
  match s.home spa with
  | .exp e => s.hub.expDown.contains e
  | _ => false

/-- A byte of a range stands in an expander whose link is down (R397). -/
def State.rangeDown (s : State) (a len : Nat) : Bool :=
  s.hub.expDown.any (fun e =>
    let b := s.own (expBase + e * expBytes)
    decide (a < b + expBytes) && decide (b < a + len))

/-- A read of a line that its home die cache does not hold finds a MAC that does not match (R370, R373), or its transfer fails its tag
twice (R371). -/
def State.macFails (s : State) (spa : Nat) : Bool :=
  (s.hub.macBad.contains (spa / 64) || s.hub.linkBad.contains (spa / 64)) && !s.dieHolds (spa / 64)

/-- A read of a line counts as a read of a poisoned line (R356, R370, R373, R397, R401). -/
def State.readPoison (s : State) (fn spa : Nat) : Bool :=
  s.poison.contains (spa / 64) || s.macFails spa || !s.homeUp fn spa

/-- An access to an expander whose link is down writes a RAS record of UNIT 1 (R397). -/
def State.rasDown (s : State) (owner spa : Nat) : State :=
  if s.downExp spa then s.ras 1 3 (BitVec.ofNat 64 spa) owner else s

/-- What a read of a line does beside answering: the home die cache holds the line (R298), unless its MAC fails; a MAC failure of HBM is
recorded as a level-1 alarm, one of a sealed buffer without an alarm (R370, R371, R373); so is a read of an expander that is down (R397). -/
def State.noteRead (s : State) (owner spa : Nat) : State :=
  let s := s.rasDown owner spa
  if s.macFails spa then
    let s := match s.home spa with
      | .exp _ => s.ras 1 3 (BitVec.ofNat 64 spa) owner
      | _ => s.ras 0 5 (BitVec.ofNat 64 spa) owner
    { s with hub := { s.hub with linkBad := s.hub.linkBad.filter (fun l => l != spa / 64) } }
  else s.dieTouch (spa / 64)

/-- The home die cache of a line reads it in before a part of it is written: one whose MAC or transfer fails is poisoned from then on, as
a partial write leaves a poisoned line (R356, R370, R371). -/
def State.dieFetch (s : State) (line : Nat) : State :=
  if s.macFails (line * 64) then
    let s := s.noteRead 0 (line * 64)
    { s with
      poison := line :: s.poison.filter (· != line)
      hub := { s.hub with macBad := s.hub.macBad.filter (· != line) } }
  else s

/-- The die-cache copy of a line is about to be written, in part unless said otherwise: backing memory keeps what it holds. -/
def State.dieDirty (s : State) (line : Nat) (whole : Bool := false) : State :=
  let s := (if whole then s else s.dieFetch line).dieTouch line
  if s.dieHomed line && (Map.find? s.stored line).isNone then
    { s with stored := Map.put s.stored line (s.mem.bytes (line * 64) 64) }
  else s

/-- A number written through the home die cache of its line (R298). -/
def State.putLe (s : State) (a n x : Nat) : State :=
  let s := s.dieDirty (a / 64)
  { s with mem := s.mem.setLe a n x }

/-! ### Page tables (R301, R302) -/

/-- V. -/
def pteV (e : Word) : Bool := bitAt e 63
/-- LF. -/
def pteLF (e : Word) : Bool := bitAt e 62
/-- MX. -/
def pteMX (e : Word) : Bool := bitAt e 61
/-- RP. -/
def pteRP (e : Word) : Bool := bitAt e 60
/-- D. -/
def pteD (e : Word) : Bool := bitAt e 59
/-- A. -/
def pteA (e : Word) : Bool := bitAt e 58
/-- The SPA that an entry names. -/
def pteSpa (e : Word) : Nat := fldN e 0 49 * 2 ^ 15

/-- Where a read by a core of a die is served (R307, R309). -/
def State.readAt (s : State) (die : Nat) (pte : Word) (spa : Nat) : Nat :=
  if pteRP pte then (s.replica die spa).getD (s.redirect spa) else s.redirect spa

/-- The index of a level (R302). -/
def pteIndex (lvl va : Nat) : Nat :=
  match lvl with
  | 1 => va / 2 ^ 40 % 4096
  | 2 => va / 2 ^ 28 % 4096
  | _ => va / 2 ^ 16 % 4096

/-- Bytes that an entry of a level covers. -/
def pteSpan (lvl : Nat) : Nat :=
  match lvl with
  | 1 => 2 ^ 40
  | 2 => 2 ^ 28
  | _ => 2 ^ 16

/-- Bytes of storage that a leaf of a level names (R301, R310). -/
def leafBytes (e : Word) (lvl : Nat) : Nat := if pteMX e then 2 ^ 15 else pteSpan lvl

/-- The storage address of a byte under a leaf (R301); for an MX alias, the data byte of its element (R310). -/
def leafSpa (e : Word) (lvl va : Nat) : Nat :=
  if pteMX e then pteSpa e + va % 2 ^ 16 / 2 else pteSpa e + va % pteSpan lvl

/-- The frame key table entry of a frame (R369). -/
def State.frameKey (s : State) (spa : Nat) : FrameKey := Map.getD s.hub.fkt (spa / 2 ^ 16) {}

/-- A leaf of a level names a misaligned frame (R301). -/
def misalignedLeaf (e : Word) (lvl : Nat) : Bool :=
  if pteMX e then false else pteSpa e % pteSpan lvl != 0

/-- A leaf names any part of the checkpoint region while CKBASE ≠ 0 (R302). -/
def State.namesCheckpoint (s : State) (e : Word) (lvl : Nat) : Bool :=
  let ck := s.dev.ckbase.toNat
  let a := spaLocal (pteSpa e)
  ck != 0 && spaDev (pteSpa e) == s.dev.devnum.toNat && decide (a < ck + ckBytes) && decide (ck < a + leafBytes e lvl)

/-- An entry is malformed at a level (R301, R302), or names a keyed frame that is bound elsewhere (R369). -/
def State.malformed (s : State) (e : Word) (lvl va : Nat) : Bool :=
  let a := pteSpa e
  if fldN e 49 9 != 0 then true
  else if (lvl == 0 || lvl == 1) && pteLF e then true
  else if lvl == 3 && !pteLF e then true
  else if pteMX e && !(lvl == 3 && pteLF e) then true
  else if !pteLF e then s.home a != .hbm
  else if misalignedLeaf e lvl then true
  else if pteMX e && !(spaDev a == s.dev.devnum.toNat && decide (s.dev.mxbase.toNat ≤ spaLocal a)
      && decide (spaLocal a + 2 ^ 15 ≤ s.dev.mxlim.toNat)) then true
  else if pteRP e && s.home a != .hbm then true
  else if s.namesCheckpoint e lvl then true
  else
    let k := s.frameKey (leafSpa e lvl va)
    k.kslot != 0 && k.vab != va / 2 ^ 16

/-- How a walk ends: at a leaf of a level, or in a fault with its reason and level (R302, R305). -/
inductive WalkRes
  | leaf (e : Word) (lvl : Nat)
  | fault (reason : BitVec 4) (lvl : Nat)
  deriving DecidableEq, Repr

/-- The non-leaf entry of a level that a die's page-walk unit keeps for an address (R303). -/
def State.walkKept (s : State) (die lvl va : Nat) : Option Word :=
  (List.find? (fun w : WalkEntry => w.lvl == lvl && w.va == va / pteSpan lvl * pteSpan lvl)
    (Map.getD s.walks die [])).map (·.e)

/-- A page-walk unit keeps a non-leaf entry it has read (R303). -/
def State.keepWalk (s : State) (die lvl va : Nat) (e : Word) : State :=
  { s with walks := Map.put s.walks die ({ lvl, va := va / pteSpan lvl * pteSpan lvl, e } :: Map.getD s.walks die []) }

/-- Frames hold zeros, without poison, in a die cache and in memory (R369, R411). -/
def State.zeroFrames (s : State) (fs : List Nat) : State :=
  { s with
    mem := s.mem.filter (fun c => !(fs.contains (c.1 / 2 ^ 16)))
    poison := s.poison.filter (fun l => !(fs.contains (l / 1024)))
    stored := s.stored.filter (fun l => !(fs.contains (l.1 / 1024)))
    hub := { s.hub with
      macBad := s.hub.macBad.filter (fun l => !(fs.contains (l / 1024)))
      linkBad := s.hub.linkBad.filter (fun l => !(fs.contains (l / 1024))) } }

/-! ### Keyed frames (R369) -/

/-- An entry covers some line of a range. -/
def REntry.meets (e : REntry) (b n : Nat) : Bool := decide (e.base < b + n) && decide (b < e.base + e.len)

/-- A frame's frame key table entry (R369): a frame whose key slot changes is rewritten with zeros. -/
def State.setFrameKey (s : State) (spa : Nat) (k : FrameKey) : State :=
  let s := if (s.frameKey spa).kslot = k.kslot then s else s.zeroFrames [spa / 2 ^ 16]
  { s with hub := { s.hub with fkt := Map.put s.hub.fkt (spa / 2 ^ 16) k } }

/-- The key slot of a virtual page's data: that of the protected context one of whose root entries covers a line of it; 0 where there is
none (R368, R369; DESIGN CHOICE, log 61). -/
def State.pageSlot (s : State) (page : Nat) : Nat :=
  (s.ctxs.findSome? (fun k =>
    if k.2.prot && k.2.save != .gone && k.2.rights.any (fun e => e.pgid == 0 && e.meets (page * 1024) 1024) then some k.2.keySlot else none)).getD 0

/-- The frames that hold the data of a page's frame: it, the other end of a migration of it, and its replicas. -/
def State.sameFrames (s : State) (spa : Nat) : List Nat :=
  let other (m : MigEntry) : Option Nat :=
    if m.src ≤ spa ∧ spa < m.src + 64 * m.lines then some (m.dst + (spa - m.src))
    else if m.dst ≤ spa ∧ spa < m.dst + 64 * m.lines then some (m.src + (spa - m.dst)) else none
  spa :: s.hub.mig.filterMap (fun e => other e.2) ++ (List.range 4).filterMap (fun d => s.replica d spa)

/-- A page's frame of HBM that no key slot has yet is bound to the page and takes the slot of the page's data, rewritten with zeros (R369;
DESIGN CHOICE, log 61). -/
def State.keyPage (s : State) (page spa : Nat) : State :=
  let x := s.pageSlot page
  if x = 0 ∨ (s.frameKey spa).kslot ≠ 0 then s
  else ((s.sameFrames spa).filter (fun f => s.home f == .hbm)).foldl (fun s f => s.setFrameKey f { vab := page, kslot := x }) s

/-- The frames that a leaf names are keyed as the data of their pages; a leaf of an MX alias, whose storage other pages share, is not
(log 61). -/
def State.keyLeaf (s : State) (e : Word) (lvl va : Nat) : State :=
  if pteMX e || s.home (pteSpa e) != .hbm || !s.ctxs.any (fun k => k.2.prot) then s
  else
    let first := va / pteSpan lvl * pteSpan lvl / 2 ^ 16
    (List.range (pteSpan lvl / 2 ^ 16)).foldl (fun s i => s.keyPage (first + i) (pteSpa e + i * 2 ^ 16)) s

/-! ### Walks (R302, R411) -/

/-- The second-tier frames of a range are zeroed where they are first mapped or handed out since the cold reset (R411). -/
def State.freshen (s : State) (spa len : Nat) : State :=
  match s.home spa with
  | .exp _ =>
    let fs := ((List.range ((len + 2 ^ 16 - 1) / 2 ^ 16)).map (spa / 2 ^ 16 + ·)).filter (fun f => !s.hub.seen.contains f)
    if fs.isEmpty then s
    else
      let s := s.zeroFrames fs
      { s with hub := { s.hub with seen := fs ++ s.hub.seen } }
  | _ => s

/-- An entry of a table read through its home die cache (R302); one whose line is poisoned or fails its MAC is read as zero, which is not
valid (DESIGN CHOICE, log 63: R356 names no effect of a poisoned table). -/
def State.readEntry (s : State) (a : Nat) : State × Word :=
  (s.noteRead 0 a, if s.readPoison 0 a then 0 else BitVec.ofNat 64 (s.mem.le a 8))

/-- The walk of R302 from an entry of a level on, with k levels left; at is where the entry was read. Accessed, and dirty for a
write, are set in the leaf indivisibly. -/
def State.walkFrom (s : State) (die va : Nat) (wr : Bool) (e : Word) (lvl at_ : Nat) : Nat → State × WalkRes
  | 0 => (s, .fault 1 lvl)
  | k + 1 =>
    if !pteV e then (s, .fault 0 lvl)
    else if s.malformed e lvl va then (s, .fault 1 lvl)
    else if pteLF e then
      let s := (s.freshen (pteSpa e) (leafBytes e lvl)).keyLeaf e lvl va
      if !pteA e || (wr && !pteD e) then
        let e' := setBit (if wr then setBit e 59 true else e) 58 true
        (s.putLe at_ 8 e'.toNat, .leaf e' lvl)
      else (s, .leaf e lvl)
    else
      let s := if lvl = 0 then s else s.keepWalk die lvl va e
      let a := pteSpa e + 8 * pteIndex (lvl + 1) va
      match s.walkKept die (lvl + 1) va with
      | some e' => s.walkFrom die va wr e' (lvl + 1) a k
      | none =>
        let (s, e') := s.readEntry a
        s.walkFrom die va wr e' (lvl + 1) a k

/-- The walk of R302. -/
def State.walk (s : State) (die va : Nat) (wr : Bool) : State × WalkRes :=
  s.walkFrom die va wr (Map.getD s.dev.ttroot (va / 2 ^ 52) 0) 0 0 4

/-- A TLB holds a translation that serves an access (R303): a write needs one with D set. -/
def tlbHit (wr : Bool) (va : Nat) (t : TlbEntry) : Bool :=
  decide (t.va ≤ va) && decide (va < t.va + t.size) && (!wr || pteD t.leaf)

/-- A TLB with a translation filled: an older one of the same range goes, and the oldest beyond the capacity (log 7). -/
def tlbFill (cap : Nat) (t : TlbEntry) (l : List TlbEntry) : List TlbEntry :=
  (t :: l.filter (fun u => u.va != t.va)).take cap

/-- Translation for a core: its TLB, its cluster's, then a walk by its die's unit (R302, R303). -/
def State.translate (s : State) (c va : Nat) (wr : Bool) : State × WalkRes :=
  let lvlOf (t : TlbEntry) : Nat := if t.size = 2 ^ 28 then 2 else 3
  match List.find? (tlbHit wr va) (s.core c).tlb with
  | some t => (s, .leaf t.leaf (lvlOf t))
  | none =>
    match List.find? (tlbHit wr va) (s.cluster (clusterOf c)).tlb with
    | some t =>
      let k := s.core c
      (s.setCore c { k with tlb := tlbFill 64 t k.tlb }, .leaf t.leaf (lvlOf t))
    | none =>
      match s.walk (dieOf c) va wr with
      | (s, .fault r l) => (s, .fault r l)
      | (s, .leaf e l) =>
        let t : TlbEntry := { va := va / pteSpan l * pteSpan l, size := pteSpan l, leaf := e }
        let k := s.core c
        let s := s.setCore c { k with tlb := tlbFill 64 t k.tlb }
        let q := s.cluster (clusterOf c)
        (s.setCluster (clusterOf c) { q with tlb := tlbFill 4096 t q.tlb }, .leaf e l)

/-! ### Faults (R305, R306) -/

/-- The resident pages of the aligned span of 2^k bytes that holds va, within its level-3 node (R306). -/
def State.residentIn (s : State) (node va k : Nat) : Nat :=
  let n := 2 ^ (k - 16)
  let first := va / 2 ^ k * 2 ^ k / 2 ^ 16 % 4096
  ((List.range n).filter (fun i => pteV (BitVec.ofNat 64 (s.mem.le (node + 8 * (first + i)) 8)))).length

/-- SPANLOG2 of a fault (R306): the span grows while enough of the doubled span is resident. -/
def State.spanFrom (s : State) (node va blk thr : Nat) : Nat → Nat → Nat
  | 0, k => k
  | fuel + 1, k =>
    if k < blk ∧ 16 * s.residentIn node va (k + 1) > thr * 2 ^ (k + 1 - 16) then s.spanFrom node va blk thr fuel (k + 1)
    else k

/-- The node that a walk reads at level 3. -/
def State.nodeOf (s : State) (va : Nat) : Nat :=
  let e1 := BitVec.ofNat 64 (s.mem.le (pteSpa (Map.getD s.dev.ttroot (va / 2 ^ 52) 0) + 8 * pteIndex 1 va) 8)
  let e2 := BitVec.ofNat 64 (s.mem.le (pteSpa e1 + 8 * pteIndex 2 va) 8)
  pteSpa e2

/-- SPANLOG2 (R306). -/
def State.spanLog2 (s : State) (va : Nat) (reason : BitVec 4) (lvl : Nat) : Nat :=
  let cfg := s.dev.npcfg
  let blk := fldN cfg 8 5
  let blk := if blk < 16 ∨ blk > 28 then 16 else blk
  if bitAt cfg 63 && reason == 0 && lvl == 3 then s.spanFrom (s.nodeOf va) va blk (fldN cfg 0 4) 12 16 else 16

/-- A fault record of the page, unless one is outstanding or waits already (R305, R396). -/
def State.addFault (s : State) (p : Word) (reason : BitVec 4) (lvl : Nat) (kind : BitVec 2) (fetch : Bool) (owner : Nat) :
    State :=
  let page := vaOf p / 2 ^ 16
  if s.hub.faults.any (fun f => f.page == page) then s
  else
    let f : FaultRec :=
      { page, p, reason, level := BitVec.ofNat 2 lvl, kind, fetch, owner, fn := (s.ctx owner).fn
        span := s.spanLog2 (vaOf p) reason lvl }
    { s with hub := { s.hub with faults := s.hub.faults ++ [f] } }

/-! ### Cuts (R320) -/

/-- A PLB loses its entries of owners over a range (R318). -/
def purge (owners : List Nat) (b n : Nat) (l : List PlbEntry) : List PlbEntry :=
  l.filter (fun e => !(owners.contains e.owner && e.e.meets b n))

/-- A port without the elements it has read ahead in a range (R320 item 4). -/
def Port.forget (q : Port) (b n : Nat) : Port :=
  { q with ahead := q.ahead.filter (fun e =>
      let l := vaOf (q.base + BitVec.ofNat 64 (e.1 % fldN q.d1 0 16) * (fld q.d2 0 32).signExtend 64
        + BitVec.ofNat 64 (e.1 / fldN q.d1 0 16 % fldN q.d1 16 16) * (fld q.d2 32 32).signExtend 64
        + BitVec.ofNat 64 (e.1 / fldN q.d1 0 16 / fldN q.d1 16 16) * (fld q.d3 0 32).signExtend 64) / 64
      !(decide (b ≤ l) && decide (l < b + n))) }

/-- A checked target lies in a range of lines. -/
def Target.inLines (t : Target) (b n : Nat) : Bool :=
  match t with
  | .glob va _ _ => decide (b ≤ va / 64) && decide (va / 64 < b + n)
  | _ => false

/-- The accesses of an operation on a range of lines that have passed their check and are not performed (R321). -/
def QOp.held (q : QOp) (b n : Nat) : List (Nat × Word) :=
  match q with
  | .vec v => (v.stores.filter (fun x => x.1.inLines b n)).map (fun x => (v.seq, x.2.2))
  | .mat m => (m.lines.filter (fun x => x.2.inLines b n)).map (fun x => (m.seq, x.1))
  | .copy p =>
    ((p.srcLines.filter (fun x => x.2.inLines b n && p.needsSrc x.1)) ++ p.dstLines.filter (fun x => x.2.inLines b n && p.needsDst x.1)).map
      (fun x => (p.seq, x.1))

/-- The accesses of a core's operations on a range that have passed their check and are not performed (R320 item 4, R321). -/
def Core.held (k : Core) (b n : Nat) : List (Nat × Word) :=
  k.threads.flatMap (fun t => t.2.queue.flatMap (fun q => q.held b n))
    ++ k.mx.flatMap (fun e => (QOp.mat e.2).held b n) ++ k.vx.flatMap (fun e => (QOp.vec e.2).held b n)
    ++ k.cps.flatMap (fun e => (QOp.copy e.2).held b n)

/-- A core takes its cut of cut i, if it has still to (R320 item 4): its PLB and its ports lose what they hold over the range, and its
accesses that have passed their check and are not performed are recorded. -/
def State.takeCut (s : State) (c i : Nat) : State :=
  match s.hub.cuts[i]? with
  | none => s
  | some x =>
    if !x.toCut.contains c then s
    else
      let k := s.core c
      let s := s.setCore c { k with
        plb := purge x.owners x.base x.lines k.plb
        threads := k.threads.mapV (fun _ t => { t with ports := t.ports.map (fun q => q.forget x.base x.lines) }) }
      let x' := { x with
        toCut := x.toCut.erase c, toAck := x.toAck ++ [c], held := Map.put x.held c (k.held x.base x.lines) }
      { s with hub := { s.hub with cuts := s.hub.cuts.set i x' } }

/-- A core whose lookup of a line for an owner leaves its PLB takes the cuts over that line that it has still to take: the walk reads
the changed table, and no later access may pass on what the PLB held (R318, R323; log 2). -/
def State.cutsBefore (s : State) (c owner line : Nat) : State :=
  (List.range s.hub.cuts.length).foldl (fun s i =>
    match s.hub.cuts[i]? with
    | some x => if x.owners.contains owner && decide (x.base ≤ line) && decide (line < x.base + x.lines) then s.takeCut c i else s
    | none => s) s

/-- The cuts that a core took between two states of the cuts under way. -/
def cutsTaken (c : Nat) (old new : List Cut) : List Cut :=
  ((old.zip new).filter (fun e => e.1.toCut.contains c && !e.2.toCut.contains c)).map (·.1)

/-- A thread whose ports lose what they hold over the ranges of cuts (R320 item 4). -/
def Thread.forget (t : Thread) (xs : List Cut) : Thread :=
  if xs.isEmpty then t else { t with ports := t.ports.map (fun q => xs.foldl (fun q x => q.forget x.base x.lines) q) }

/-- The current thread as it was in s0, but for the cuts that its core has taken since (R320, R323). -/
def State.thBefore (s s0 : State) : Thread := s0.th.forget (cutsTaken s0.cur.1 s0.hub.cuts s.hub.cuts)

/-- A device as it was before accesses that have no effect, with what they have left all the same: RAS records and their message, alarms,
transfers that have failed, and the cuts that cores have taken (R316, R320, R358, R371). -/
def State.keepRecords (s0 r : State) : State :=
  let s := (List.range s0.hub.cuts.length).foldl (fun s i =>
    match s0.hub.cuts[i]?, r.hub.cuts[i]? with
    | some x, some y => (x.toCut.filter (fun c => !y.toCut.contains c)).foldl (fun s c => s.takeCut c i) s
    | _, _ => s) s0
  let s := if r.hub.ras.length + r.hub.rasLost = s.hub.ras.length + s.hub.rasLost then s
    else s.setFn 0 { s.fnc 0 with pend := (r.fnc 0).pend, sent := (r.fnc 0).sent }
  { s with hub := { s.hub with
      ras := r.hub.ras, rasLost := r.hub.rasLost, alarms := r.hub.alarms, linkBad := r.hub.linkBad } }

/-- The same with the fault records that the accesses have written (R305). -/
def State.keepNotes (s0 r : State) : State :=
  let s := s0.keepRecords r
  { s with hub := { s.hub with faults := r.hub.faults } }

/-! ### Rights (R312, R317) -/

/-- An entry covers a line. -/
def REntry.covers (e : REntry) (line : Nat) : Bool := decide (e.base ≤ line) && decide (line < e.base + e.len)

/-- The line of an owner's rights table that holds the entry over a line fails its MAC (R316): two entries stand in a line. Which
other lines a walk reads the spec leaves open (log 18). -/
def State.badTableLine (s : State) (owner line : Nat) : Bool :=
  let k := s.ctx owner
  k.badRights.contains ((k.rights.takeWhile (fun e => !e.covers line)).length / 2)

/-- A walk of an owner's rights table for a line (R312). One that reads a table line whose MAC fails finds no entry, and a level-2 alarm is
due (R316). -/
def State.tableEntry (s : State) (owner line : Nat) : State × Option REntry :=
  match List.find? (fun e : REntry => e.covers line) (s.ctx owner).rights with
  | none => (s, none)
  | some e =>
    if s.badTableLine owner line then ({ s with hub := { s.hub with alarms := s.hub.alarms ++ [owner] } }, none) else (s, some e)

/-- Rights(owner, p) for a core: its PLB, its cluster's, then the owner's table (R317); a hit in a farther place fills the
nearer ones. -/
def State.rightsOf (s : State) (c owner va : Nat) : State × Option REntry :=
  let line := va / 64
  let hit (e : PlbEntry) : Bool := e.owner == owner && e.e.covers line
  match List.find? hit (s.core c).plb with
  | some e => (s, some e.e)
  | none =>
    let s := s.cutsBefore c owner line
    let fill (s : State) (e : PlbEntry) : State :=
      let k := s.core c
      s.setCore c { k with plb := (e :: k.plb).take 64 }
    match List.find? hit (s.cluster (clusterOf c)).plb with
    | some e => (fill s e, some e.e)
    | none =>
      match s.tableEntry owner line with
      | (s, none) => (s, none)
      | (s, some e) =>
        let q := s.cluster (clusterOf c)
        let s := s.setCluster (clusterOf c) { q with plb := ({ owner, e } :: q.plb).take 2048 }
        (fill s { owner, e }, some e)

/-- An entry admits an access (R142, R198): its age equals the pointer's and it is not dormant, and it carries the right. -/
def rightsCheck (e : Option REntry) (p : Word) (rd wr fetch : Bool) : Option Cause :=
  match e with
  | none => some .rights
  | some e =>
    if e.dm || e.age != ageOf p then some .stale
    else if fetch && !bitAt e.rights 2 then some .rights
    else if !fetch && rd && !bitAt e.rights 0 then some .rights
    else if wr && !bitAt e.rights 1 then some .rights
    else none

/-! ### The check (R142) -/

/-- An access to be checked: core, owner, privilege, pointer, size, kind; whether the instruction is an AMO and, if so,
whether host memory admits it (R144); whether the device register window admits the instruction (R144); a fetch (R198). -/
structure Req where
  c : Nat
  owner : Nat
  sLevel : Bool
  p : Word
  n : Nat
  rd : Bool
  wr : Bool
  amo : Option Bool := none
  devOk : Bool := false
  fetch : Bool := false
  deriving DecidableEq, Repr

/-- tval of an access trap (R142): 1 for a read, 2 for a write, 3 for both. -/
def Req.tval (q : Req) : Nat := (if q.rd then 1 else 0) + (if q.wr then 2 else 0)

/-- The trap of a cause at an access (R142), with FETCH for a fetch (R198). -/
def Req.info (q : Req) (c : Cause) : TrapInfo :=
  let i := c.info q.p (BitVec.ofNat 64 q.tval)
  if q.fetch then i.fetch else i

/-- The part of the check that depends on what the page maps, and the rights check, for global space (R142). -/
def State.checkGlobal (s : State) (q : Req) : Res Target :=
  let va := vaOf q.p
  match s.translate q.c va q.wr with
  | (s, .fault reason lvl) =>
    .wait (s.addFault q.p reason lvl (BitVec.ofNat 2 q.tval) q.fetch q.owner) (.fault q.p q.fetch (q.info .pfault))
  | (s, .leaf e lvl) =>
    if pteMX e && q.amo.isSome then .trap s (q.info .aliasamo)
    else if s.home (leafSpa e lvl va) == .host && q.amo == some false then .trap s (q.info .amohost)
    else
      match s.rightsOf q.c q.owner va with
      | (s, r) =>
        match rightsCheck r q.p q.rd q.wr q.fetch with
        | some c => .trap s (q.info c)
        | none => .ok s (.glob va e (leafSpa e lvl va))

/-- Access(p, n, kind) of R142, in its order. -/
def State.check (s : State) (q : Req) : Res Target :=
  let va := vaOf q.p
  match regionOf va with
  | .reserved => .trap s (q.info .vaddr)
  | .dev =>
    if !q.sLevel then .trap s (q.info .priv)
    else if !q.devOk || q.wr || va % 2 ^ 48 ≥ 0x1000 then .trap s (q.info .vaddr)
    else if va % q.n ≠ 0 then .trap s (q.info .align)
    else .ok s (.dev (va % 2 ^ 48))
  | .spad =>
    if va % q.n ≠ 0 then .trap s (q.info .align)
    else
      match s.spadTarget q.c q.p with
      | none => .trap s (q.info .spaddr)
      | some (c, off) => .ok s (.spad c off)
  | .glob => if va % q.n ≠ 0 then .trap s (q.info .align) else s.checkGlobal q

/-- The request of the current thread's step (R142). -/
def State.req (s : State) (p : Word) (n : Nat) (rd wr : Bool) : Req :=
  { c := s.cur.1, owner := s.ownerOf s.cur.1, sLevel := bitAt s.th.status 0, p, n, rd, wr }

end Sys2Proof.Machine
end

