-- ==== Sys2Proof/Machine/Pages.lean ====
section
/-! DEFINITION. Pages and frames: free-frame rings (spec/16_memory_hierarchy.md R299), invalidation (R304), moving a page's frame
(R307), and moving a sealed buffer back into HBM (spec/22_confidential_code.md R373). -/

namespace Sys2Proof.Machine

/-- A number put into a rising list without repeats. -/
def insertNat (x : Nat) : List Nat → List Nat
  | [] => [x]
  | y :: t => if x < y then x :: y :: t else if x = y then y :: t else y :: insertNat x t

/-- The numbers of a list in rising order, each once. -/
def sortNats (l : List Nat) : List Nat := l.foldl (fun acc x => insertNat x acc) []

/-- Register m of the free-frame ring of tier t (R299): 0 base, 1 size, 2 head, 3 tail. Head and tail count freely (log 15). -/
def State.ffr (s : State) (t m : Nat) : Nat := (Map.getD s.dev.ffr (4 * t + m) 0).toNat

/-- The device with a free-frame-ring register. -/
def State.setFfr (s : State) (t m v : Nat) : State :=
  { s with dev := { s.dev with ffr := Map.put s.dev.ffr (4 * t + m) (BitVec.ofNat 64 v) } }

/-- The address of the ring's entry i. -/
def State.ffrSlot (s : State) (t i : Nat) : Nat := s.ffr t 0 + 8 * (i % s.ffr t 1)

/-- The ring's entry i, if its line can be read (R370, R397). -/
def State.ringEntry (s : State) (t i : Nat) : Option Nat :=
  let a := s.ffrSlot t i
  if s.readPoison 0 a then none else some (s.mem.le a 8)

/-- Entries of a ring from i on are read (R298, R370). -/
def State.noteRing (s : State) (t i n : Nat) : State := (List.range n).foldl (fun s j => s.noteRead 0 (s.ffrSlot t (i + j))) s

/-- The entries at the head whose lines cannot be read go, up to n of them (log 63). -/
def State.dropUnread (s : State) (t : Nat) : Nat → State
  | 0 => s
  | n + 1 =>
    let h := s.ffr t 2
    if h = s.ffr t 3 ∨ (s.ringEntry t h).isSome then s else ((s.noteRing t h 1).setFfr t 2 (h + 1)).dropUnread t n

/-- A free frame taken from a tier's ring: the first from the head that stands on the die asked for; the head's entry takes its
place (R299, log 15). An entry whose line cannot be read gives none (log 63). -/
def State.takeFrame (s : State) (t : Nat) (die : Option Nat) : Option (State × Nat) :=
  if s.ffr t 1 = 0 then none
  else
    let s := s.dropUnread t (s.ffr t 3 - s.ffr t 2)
    let h := s.ffr t 2
    let n := s.ffr t 3 - h
    let ok (i : Nat) : Bool := match s.ringEntry t i with
      | some f => (match die with
        | some d => homeDie f == d
        | none => true)
      | none => false
    (((List.range n).map (h + ·)).find? ok).bind fun i =>
      (s.ringEntry t i).map fun f =>
        let first := (s.ringEntry t h).getD 0
        let s := s.noteRing t h (i + 1 - h)
        let s := if i = h then s else s.putLe (s.ffrSlot t i) 8 first
        ((s.setFfr t 2 (h + 1)).freshen f (2 ^ 16), f)

/-- A frame returned to its tier's ring at the tail (R307). -/
def State.returnFrame (s : State) (t f : Nat) : State :=
  if s.ffr t 1 = 0 then s
  else (s.putLe (s.ffrSlot t (s.ffr t 3)) 8 f).setFfr t 3 (s.ffr t 3 + 1)

/-- The tier number of an SPA (R241, R299). -/
def State.tierOf (s : State) (spa : Nat) : Nat :=
  match s.home spa with
  | .hbm => 0
  | .exp _ => 1
  | _ => 2

/-- The frames that a ring offers, from the head on: those whose entries can be read (log 63). -/
def State.ringFrames (s : State) (t : Nat) : List Nat :=
  if s.ffr t 1 = 0 then []
  else (List.range (s.ffr t 3 - s.ffr t 2)).filterMap (fun i => s.ringEntry t (s.ffr t 2 + i))

/-- A ring that has been read and whose frames at the head's side are now these; the tail stays (R299). -/
def State.setRing (s : State) (t : Nat) (fs : List Nat) : State :=
  let s := s.noteRing t (s.ffr t 2) (s.ffr t 3 - s.ffr t 2)
  let h := s.ffr t 3 - fs.length
  (((List.range fs.length).zip fs).foldl (fun s e => s.putLe (s.ffrSlot t (h + e.1)) 8 e.2) s).setFfr t 2 h

/-- A frame for a page of a size taken from a tier's ring (R307): for a page of 256 MiB, an aligned run of its frames. -/
def State.takeFrames (s : State) (t : Nat) (die : Option Nat) (size : Nat) : Option (State × Nat) :=
  if size = 2 ^ 16 then s.takeFrame t die
  else
    let fs := s.ringFrames t
    let run (f : Nat) : List Nat := (List.range (size / 2 ^ 16)).map (fun i => f + i * 2 ^ 16)
    let ok (f : Nat) : Bool := f % size == 0 && (run f).all fs.contains && (match die with
      | some d => homeDie f == d
      | none => true)
    (fs.find? ok).map (fun f => ((s.setRing t (fs.filter (fun x => !(run f).contains x))).freshen f size, f))

/-- The frames of a page returned to their tier's ring (R307). -/
def State.returnFrames (s : State) (f size : Nat) : State :=
  (List.range (size / 2 ^ 16)).foldl (fun s i => s.returnFrame (s.tierOf f) (f + i * 2 ^ 16)) s

/-- No TLB, cluster TLB or page-walk unit holds an entry that overlaps a range (R304). -/
def State.invalidate (s : State) (va len : Nat) : State :=
  let clear (b n : Nat) : Bool := decide (b + n ≤ va) || decide (va + len ≤ b)
  let keep (l : List TlbEntry) : List TlbEntry := l.filter (fun t => clear t.va t.size)
  { s with
    cores := s.cores.mapV (fun _ k => { k with tlb := keep k.tlb })
    clusters := s.clusters.mapV (fun _ k => { k with tlb := keep k.tlb })
    walks := s.walks.mapV (fun _ l => l.filter (fun w => clear w.va (pteSpan w.lvl))) }

/-- Where the leaf of an address stands, with it and its level; k levels are left. -/
def State.leafFrom (s : State) (va : Nat) (e : Word) (lvl at_ : Nat) : Nat → Option (Nat × Word × Nat)
  | 0 => none
  | k + 1 =>
    if !pteV e || s.malformed e lvl va then none
    else if pteLF e then some (at_, e, lvl)
    else
      let a := pteSpa e + 8 * pteIndex (lvl + 1) va
      s.leafFrom va (BitVec.ofNat 64 (s.mem.le a 8)) (lvl + 1) a k

/-- Where the leaf of an address stands, with it and its level, if it has one. -/
def State.leafOf (s : State) (va : Nat) : Option (Nat × Word × Nat) :=
  s.leafFrom va (Map.getD s.dev.ttroot (va / 2 ^ 52) 0) 0 0 4

/-- The frames of HBM that the pages of a range of lines have now are keyed as their pages' data (R369; log 61). -/
def State.keyRange (s : State) (line lines : Nat) : State :=
  (List.range ((line + lines + 1023) / 1024 - line / 1024)).foldl (fun s i =>
    let page := line / 1024 + i
    match s.leafOf (page * 2 ^ 16) with
    | some (_, e, lvl) => if pteMX e || s.home (pteSpa e) != .hbm then s else s.keyPage page (leafSpa e lvl (page * 2 ^ 16))
    | none => s) s

/-- The leaf at an address written (R307, R309). -/
def State.setLeaf (s : State) (at_ : Nat) (e : Word) : State := s.putLe at_ 8 e.toNat

/-- A leaf that names another frame. -/
def leafAt (e : Word) (spa : Nat) : Word := setFld e 0 49 (spa / 2 ^ 15)

/-- The bytes of a range of memory copied to another, unlisted ones included. -/
def Mem.copy (m : Mem) (src dst len : Nat) : Mem :=
  let moved := (m.filter (fun c => decide (src ≤ c.1) && decide (c.1 < src + len))).map (fun c => (c.1 - src + dst, c.2))
  let rest := m.filter (fun c => !(decide (dst ≤ c.1) && decide (c.1 < dst + len)))
  moved.foldl (fun m c => Mem.set m c.1 c.2) rest

/-- The numbers of lines that stand in one range moved to another. -/
def moveLines (src dst len : Nat) (l : List Nat) : List Nat :=
  (l.filter (fun x => decide (src ≤ x * 64) && decide (x * 64 < src + len))).map (fun x => x - src / 64 + dst / 64)
    ++ l.filter (fun x => !(decide (dst ≤ x * 64) && decide (x * 64 < dst + len)))

/-- Bytes copied from one range to another through the die caches, which read the source whole; poison follows the bytes. The
destination's backing memory takes them (R307; log 6). -/
def State.copyRange (s : State) (src dst len : Nat) : State :=
  let inDst (l : Nat) : Bool := decide (dst ≤ l * 64) && decide (l * 64 < dst + len)
  { s with
    mem := s.mem.copy src dst len
    poison := moveLines src dst len s.poison
    stored := s.stored.filter (fun e => !inDst e.1)
    hub := { s.hub with macBad := s.hub.macBad.filter (fun l => !inDst l), linkBad := s.hub.linkBad.filter (fun l => !inDst l) } }

/-- Lines of one range, each end of which stands in one place, copied to another for an owner, through the die caches. -/
def State.copyPart (s : State) (owner src dst len : Nat) : State :=
  let inSrc (l : Nat) : Bool := decide (src ≤ l * 64) && decide (l * 64 < src + len)
  let bad := if s.downExp src then (List.range (len / 64)).map (src / 64 + ·)
    else sortNats ((s.hub.macBad ++ s.hub.linkBad).filter (fun l => inSrc l && s.macFails (l * 64)))
  let s := bad.foldl (fun s l => s.noteRead owner (l * 64)) s
  if s.downExp dst then s.rasDown owner dst
  else
    let s := s.copyRange src dst len
    { s with poison := bad.foldl (fun l x => let y := x - src / 64 + dst / 64; y :: l.filter (· != y)) s.poison }

/-- Lines of one range copied to another for an owner, through the die caches (R307): lines whose MAC or transfer fails are recorded,
and so is an access to an expander that is down; what is read there is poisoned, what is written there is discarded (R356, R370, R371,
R397). -/
def State.copyLines (s : State) (owner src dst len : Nat) : State :=
  if s.hub.expDown.isEmpty then s.copyPart owner src dst len
  else (List.range (len / 64)).foldl (fun s i => s.copyPart owner (src + 64 * i) (dst + 64 * i) 64) s

/-- The frames of a page. -/
def framesOf (spa size : Nat) : List Nat := (List.range ((size + 2 ^ 16 - 1) / 2 ^ 16)).map (fun i => spa + i * 2 ^ 16)

/-- The destination frames of the page at an address are bound before data come into them (R369): as the source frames are, or, in HBM, as
the data of their page where no source frame has a key slot; x is the sealed buffer that holds them, 0 for none. -/
def State.bindFrames (s : State) (va src dst size x : Nat) : State :=
  (framesOf dst size).foldl (fun s f =>
    let k := s.frameKey (f - dst + src)
    let page := (va + (f - dst)) / 2 ^ 16
    let slot := s.pageSlot page
    if k.kslot = 0 ∧ s.home f = .hbm ∧ slot ≠ 0 then s.setFrameKey f { vab := page, vidx := x, kslot := slot }
    else s.setFrameKey f { k with vidx := x }) s

/-- A page's frames are bound no longer: those of a key slot other than 0 are rewritten with zeros (R369). -/
def State.unbindFrames (s : State) (spa size : Nat) : State := (framesOf spa size).foldl (fun s f => s.setFrameKey f {}) s

/-- One page's bytes, poison and frame keys moved to another frame for an owner, the leaf following (R307); the source frame is
returned. -/
def State.movePage (s : State) (owner va src dst size : Nat) : State :=
  let s := ((s.bindFrames (va / size * size) src dst size 0).copyLines owner src dst size).unbindFrames src size
  let s := match s.leafOf va with
    | some (a, e, _) => s.setLeaf a (leafAt e dst)
    | none => s
  (s.invalidate (va / size * size) size).returnFrames src size

/-- The frames of sealed buffer x moved into HBM of a die, page by page (R373). -/
def State.unsealPages (s : State) (owner x die : Nat) : List Nat → Option State
  | [] => some s
  | f :: t =>
    let src := s.own (f * 2 ^ 16)
    let key := s.frameKey src
    -- a frame that has moved with its page belongs to the buffer no longer
    if key.vidx ≠ x then State.unsealPages s owner x die t
    else
      let va := key.vab * 2 ^ 16
      let size := match s.leafOf va with
        | some (_, _, lvl) => pteSpan lvl
        | none => 2 ^ 16
      (s.takeFrames 0 (some die) size).bind (fun r =>
        State.unsealPages (r.1.movePage owner va (src / size * size) r.2 size) owner x die t)

/-- A move is still writing pages of a sealed buffer (R373), or a page of it is being migrated (R307). -/
def State.forming (s : State) (x : Nat) : Bool :=
  let spas := (Map.getD s.hub.vtab x {}).frames.map (fun f => s.own (f * 2 ^ 16))
  s.hub.pageReqs.any (fun q => q.sbuf == some x && !q.ended)
    || s.hub.mig.any (fun m => spas.any (fun a => (decide (m.2.src ≤ a) && decide (a < m.2.src + 64 * m.2.lines))
      || (decide (m.2.dst ≤ a) && decide (a < m.2.dst + 64 * m.2.lines))))

/-- A write to a sealed buffer moves the whole buffer into HBM of the home die of its first page and frees its entry (R373);
none while the move that forms it goes on, or no free frame stands ready. -/
def State.unseal (s : State) (x : Nat) : Option State :=
  let v := Map.getD s.hub.vtab x {}
  let die := match v.frames with
    | f :: _ => homeDie (f * 2 ^ 16)
    | [] => 0
  if s.forming x then none
  else (s.unsealPages v.owner x die v.frames).map (fun s =>
    { s with hub := { s.hub with vtab := Map.put s.hub.vtab x { v with kind := 0, owner := 0, frames := [] } } })

end Sys2Proof.Machine
end

