-- ==== Sys2Proof/Machine/Memory.lean ====
section
/-! DEFINITION. Performing checked accesses at their homes: storage with its migration redirects, replicas, die caches, poison and
links (spec/16_memory_hierarchy.md R298, R307, R309; spec/20_preemption_faults.md R356; spec/22_confidential_code.md R370, R371,
R373; spec/23_host_fabric_partitions.md R397, R401, R402, R404 to R406), the MX alias (spec/02_number_formats.md R60 to R64), the
writes the device makes for a launch (spec/07_sync_messages_work.md R190), and reports to threads (spec/08_system_traps_rights.md
R201). -/

namespace Sys2Proof.Machine

/-! ### Writing at home -/

/-- Bytes written at their home within one line, as offset and byte, through its die cache; a write of a whole line clears its
poison (R356), and the line's MAC is made anew (R370). -/
def State.putLine (s : State) (line : Nat) (bs : List (Nat × Byte)) : State :=
  let whole := bs.length = 64
  let s := s.dieDirty line whole
  { s with
    mem := bs.foldl (fun m b => m.set (line * 64 + b.1) b.2) s.mem
    poison := if whole then s.poison.filter (fun l => l != line) else s.poison
    hub := if whole then
        { s.hub with macBad := s.hub.macBad.filter (fun l => l != line), linkBad := s.hub.linkBad.filter (fun l => l != line) }
      else s.hub }

/-- The replicas of a line (R309). -/
def State.replicaLines (s : State) (line : Nat) : List Nat :=
  (List.range 4).filterMap (fun d => (s.replica d (line * 64)).map (fun a => a / 64))

/-- A write to a line at home and in every replica (R309); one to an unreachable home is discarded (R397, R401). -/
def State.putHome (s : State) (owner spa : Nat) (bs : List (Nat × Byte)) : State :=
  let a := s.redirect spa
  if !s.homeUp (s.ctx owner).fn a then s.rasDown owner a
  else (s.replicaLines (spa / 64)).foldl (fun s l => s.putLine l bs) (s.putLine (a / 64) bs)

/-! ### Sealed buffers (R373) -/

/-- The version-table entry of the sealed buffer that holds a byte where it stands now, if one does (R307, R369, R373). -/
def State.sealedIn (s : State) (spa : Nat) : Option Nat :=
  let x := (s.frameKey (s.redirect spa)).vidx
  if x ≠ 0 ∧ (Map.getD s.hub.vtab x {}).kind = 2 then some x else none

/-! ### The MX alias (R60 to R64, R310) -/

/-- The local address of the scale byte of a data block (R310). -/
def State.mxScaleAt (s : State) (spa : Nat) : Nat :=
  s.own (s.dev.mxscale.toNat + (spaLocal spa - s.dev.mxbase.toNat) / 32)

/-- One element read through the alias: its BF16 bits and whether it became an infinity (R61). -/
def mxReadElem (scale q : Nat) : Nat × Bool :=
  if scale = 255 then (Fmt.bf16.defaultNaN, false)
  else
    match Fmt.e4m3.val q with
    | .nan _ n => (if n then 0xFFC0 else 0x7FC0, false)
    | .inf n => (if n then 0xFF80 else 0x7F80, false)
    | .num x =>
      let (b, l) := convertFp .bf16 ⟨8, 7, 127, true⟩ .rne false (.num (x.scale ((scale : Int) - 127))) {}
      (b, l.flags &&& fOF != 0)

/-- One element written through the alias under a scale: its E4M3 bits and whether it saturated (R62, R63). -/
def mxWriteElem (scale x : Nat) : Nat × Bool :=
  match Fmt.bf16.val x with
  | .nan _ n => (if n then 0xFF else 0x7F, false)
  | .inf n => (if n then 0xFE else 0x7E, true)
  | .num y =>
    let (b, l) := convertFp .e4m3 ⟨4, 3, 7, false⟩ .rne true (.num (y.scale (127 - (scale : Int)))) {}
    (b, l.flags &&& fSAT != 0)

/-- The scale code of a whole-block write (R62): from the exponent of the block's largest finite magnitude. -/
def mxScaleFor (xs : List Nat) : Nat :=
  let exps : List Int := xs.filterMap (fun x =>
    match Fmt.bf16.val x with
    | .num y => if y.m = 0 then none else some ((y.m.log2 : Int) + y.e)
    | _ => none)
  let s : Int := match exps with
    | [] => -124
    | e :: t => t.foldl (fun a b => if a < b then b else a) e - 8
  let s := if s < -124 then -124 else if s > 127 then 127 else s
  (s + 127).toNat

/-- An owner's alias saturation count rises (R61 to R63, R65). -/
def State.aliasSatAdd (s : State) (owner n : Nat) : State :=
  if n = 0 then s
  else
    let k := s.ctx owner
    s.setCtx owner { k with aliasSat := k.aliasSat + BitVec.ofNat 64 n }

/-- n bytes read through the alias from byte off of a 64-byte alias block whose data begins at spa; the count rises for each
element that the access reads and that became an infinity (R61). -/
def State.mxRead (s : State) (owner spa off n : Nat) : State × List Byte :=
  let scale := (s.mem.get (s.mxScaleAt spa)).toNat
  let elems := (List.range 32).map (fun j => mxReadElem scale (s.mem.get (spa + j)).toNat)
  let touched := (elems.drop (off / 2)).take ((off + n + 1) / 2 - off / 2)
  let bytes := elems.flatMap (fun e => leBytes 2 e.1)
  (s.aliasSatAdd owner (touched.filter (·.2)).length, (bytes.drop off).take n)

/-- A list with bytes put at offsets. -/
def patch (base : List Byte) (bs : List (Nat × Byte)) : List Byte :=
  bs.foldl (fun l b => l.set b.1 b.2) base

/-- The BF16 elements of alias bytes. -/
def bf16s : List Byte → List Nat
  | a :: b :: t => (a.toNat + 256 * b.toNat) :: bf16s t
  | _ => []

/-- Bytes written through the alias into a 64-byte block (R62, R63): a whole block takes a new scale; a part keeps the scale and quantises
the written elements. Under the NaN scale a part write stores no byte and counts no saturation (DESIGN CHOICE, log 49: R63 says only that
the block stays NaN). A store of one byte of an element takes the other byte from the element as read through the alias, and then
quantises it (DESIGN CHOICE, log 49: R63 speaks of elements). -/
def State.mxWrite (s : State) (owner spa : Nat) (bs : List (Nat × Byte)) : State :=
  let old := (s.mxRead 0 spa 0 64).2
  let xs := bf16s (patch old bs)
  let whole := bs.length == 64
  let scaleAt := s.mxScaleAt spa
  let scale := if whole then mxScaleFor xs else (s.mem.get scaleAt).toNat
  if !whole && scale == 255 then s
  else
    let touched (j : Nat) : Bool := bs.any (fun b => b.1 / 2 == j)
    let step (a : Mem × Nat) (j : Nat) : Mem × Nat :=
      if touched j then
        let (q, sat) := mxWriteElem scale (xs.getD j 0)
        (a.1.set (spa + j) (BitVec.ofNat 8 q), if sat then a.2 + 1 else a.2)
      else a
    let s := s.dieDirty (spa / 64)
    let s := if whole then s.dieDirty (scaleAt / 64) else s
    let (m, n) := (List.range 32).foldl step (s.mem, 0)
    let m := if whole then m.set scaleAt (BitVec.ofNat 8 scale) else m
    { s with mem := m }.aliasSatAdd owner n

/-! ### Home accesses of a checked target -/

/-- n bytes within one line read at their home for an owner by a core of a die, and whether a line read was poisoned. -/
def State.readHome (s : State) (owner die va : Nat) (pte : Word) (spa n : Nat) : State × List Byte × Bool :=
  if pteMX pte then
    let block := spa / 32 * 32
    let scale := s.mxScaleAt block
    let p := s.readPoison (s.ctx owner).fn block || s.readPoison (s.ctx owner).fn scale
    let (s, bs) := ((s.noteRead owner block).noteRead owner scale).mxRead owner block (va % 64) n
    (s, bs, p)
  else
    let a := s.readAt die pte spa
    (s.noteRead owner a, s.mem.bytes a n, s.readPoison (s.ctx owner).fn a)

/-- Bytes within one line written at their home by an owner: offsets are from the line's (or alias block's) first byte. A write
through the alias whose data or scale stand in an expander that is down is discarded (R397). -/
def State.writeHome (s : State) (owner : Nat) (pte : Word) (spa : Nat) (bs : List (Nat × Byte)) : State :=
  if pteMX pte then
    let block := spa / 32 * 32
    if s.downExp block || s.downExp (s.mxScaleAt block) then (s.rasDown owner block).rasDown owner (s.mxScaleAt block)
    else s.mxWrite owner block bs
  else s.putHome owner spa bs

/-- Bytes with their offsets from a line's first byte on. -/
def offsets (off : Nat) : List Byte → List (Nat × Byte)
  | [] => []
  | b :: t => (off, b) :: offsets (off + 1) t

/-- Bytes cut at line boundaries from an address on; n bounds the pieces. -/
def lineCuts : Nat → Nat → List Byte → List (Nat × List Byte)
  | 0, _, _ => []
  | n + 1, a, bs =>
    if bs.isEmpty then []
    else
      let k := 64 - a % 64
      (a, bs.take k) :: lineCuts n (a + k) (bs.drop k)

/-- Bytes written at their home from an SPA on, line by line (R356, R397). -/
def State.putBytes (s : State) (owner at_ : Nat) (bs : List Byte) : State :=
  (lineCuts (bs.length / 64 + 2) at_ bs).foldl (fun s x => s.putHome owner x.1 (offsets (x.1 % 64) x.2)) s

/-- The writes to replicated pages are performed, in the sequencer's order (R163, R309). -/
def State.drainSeq (s : State) : State :=
  let s' := s.hub.seqQ.foldl (fun s w => s.putHome (s.ownerOf w.core) w.spa (offsets (w.spa % 64) w.data)) s
  { s' with hub := { s'.hub with seqQ := [] } }

/-- The writes of a core to replicated pages are performed before it goes on, if it has any (R158, R309). -/
def State.settleSeq (s : State) (c : Nat) : State :=
  if s.hub.seqQ.any (fun w => w.core == c) then s.drainSeq else s

/-! ### Limits (R404 to R406) -/

/-- Bytes a limit in GB/s admits in a window of 4,096 cycles of 940 MHz (R404). -/
def windowBytes (gbps : Nat) : Nat := gbps * 4096 * 1000 / 940

/-- A function's QoS word (R403). -/
def Func.qos (f : Func) : Word := BitVec.ofNat 64 (f.cfg.le 24 8)

/-- A request of a function for n bytes at a home stays within its bandwidth limits (R404). -/
def State.bandwidthOk (s : State) (fn spa n : Nat) : Bool :=
  let f := s.fnc fn
  match s.home spa with
  | .hbm => let b := fldN f.qos 8 16; b == 0 || decide (f.hbmUsed + n ≤ windowBytes b)
  | .exp _ => let b := fldN f.qos 24 16; b == 0 || decide (f.expUsed + n ≤ windowBytes b)
  | _ => true

/-- A bandwidth limit of a function admits no further line in the window under way (R404). -/
def Func.limited (f : Func) : Bool :=
  (fldN f.qos 8 16 != 0 && decide (f.hbmUsed + 64 > windowBytes (fldN f.qos 8 16)))
    || (fldN f.qos 24 16 != 0 && decide (f.expUsed + 64 > windowBytes (fldN f.qos 24 16)))

/-- A wait is one that a limit or the dirty-log throttle imposes on a core's request (R339, R404, R406): so is one for a write-back while a
limit admits none. -/
def State.withholds (s : State) (c : Nat) (w : Wait) : Bool :=
  w == .bandwidth || w == .dirtyLog || (w == .flush && (s.fnc (s.ctx (s.ownerOf c)).fn).limited)

/-- A request of a function counts against its limits (R404). -/
def State.bandwidthUse (s : State) (fn spa n : Nat) : State :=
  let f := s.fnc fn
  match s.home spa with
  | .hbm => if fldN f.qos 8 16 = 0 then s else s.setFn fn { f with hbmUsed := f.hbmUsed + n }
  | .exp _ => if fldN f.qos 24 16 = 0 then s else s.setFn fn { f with expUsed := f.expUsed + n }
  | _ => s

/-- The dirty log is enabled (R405). -/
def Func.dlEn (f : Func) : Bool := bitAt f.dlCtl 63
/-- The log2 of the dirty-log ring's entries (R391). -/
def Func.dlSize (f : Func) : Nat := fldN f.dlCtl 0 5
/-- The dirty log has overflowed (R391). -/
def Func.dlOvf (f : Func) : Bool := bitAt f.dlCtl 61
/-- Entries that stand in the dirty log. -/
def Func.dlCount (f : Func) : Nat := (f.dlProd - f.dlCons).toNat

/-- The dirty-log throttle holds (R406). -/
def Func.throttled (f : Func) : Bool := decide (8 * f.dlCount ≥ 7 * 2 ^ f.dlSize)

/-- The SPA of a host address (R295). -/
def State.hostSpa (s : State) (a : Nat) : Nat := s.own (hostBase + a % 2 ^ 43)

/-- The dirty-log entry of a page that an owner writes, before the write (R405); a full ring overflows (R406). -/
def State.logDirty (s : State) (owner va : Nat) : State :=
  let fn := (s.ctx owner).fn
  let f := s.fnc fn
  if !f.dlEn || f.dlOvf then s
  else if f.dlCount ≥ 2 ^ f.dlSize then (s.setFn fn { f with dlCtl := setBit f.dlCtl 61 true }).msix fn 2
  else
    let a := s.hostSpa (f.dlBase.toNat + 8 * (f.dlProd.toNat % 2 ^ f.dlSize))
    let s := s.putLe a 8 (va / 2 ^ 16 % 2 ^ 40 * 2 ^ 16 + owner)
    let f := { f with dlProd := f.dlProd + 1 }
    let s := s.setFn fn f
    if 8 * f.dlCount = 7 * 2 ^ f.dlSize then s.msix fn 2 else s

/-! ### Reports to threads (R201) -/

/-- A report of a thread's engine operation (R201): held until its step boundary; a fifth is counted and marks the fourth, which then
stands for it. -/
def Thread.report (t : Thread) (i : TrapInfo) : Thread :=
  if t.reports.length < 4 then { t with reports := t.reports ++ [i] }
  else
    { t with
      reports := t.reports.take 3 ++ (t.reports.drop 3).map (fun r => { r with cause := setBit r.cause 11 true, mat := r.mat || i.mat })
      merged := t.merged + 1 }

/-! ### Writes the device makes for a launch (R190) -/

/-- A write by the device for an owner may be made under R142 at this moment, with the pointer's age (R190): its table's entry admits it. A
write that needs no check may. -/
def State.devAdmits (s : State) (w : DevWrite) : State × Bool :=
  if w.checked then
    let (s, e) := s.tableEntry w.owner (vaOf w.ptr / 64)
    (s, (rightsCheck e w.ptr false true false).isNone)
  else (s, true)

/-- A write of the device as its page stands: made, or dropped where its check fails (R190), or not yet, where the page faults (R305),
its limit withholds it (R404), or its page stands in a sealed buffer that is not ready to move (R373). It reaches memory at once and is in
the dirty log (R405). -/
def State.performDev (s : State) (w : DevWrite) : State × Bool :=
  let va := vaOf w.ptr
  match s.walk 0 va true with
  | (s, .fault r lvl) => (s.addFault w.ptr r lvl (if w.incr then 3 else 2) false w.owner, false)
  | (s, .leaf e lvl) =>
    match s.devAdmits w with
    | (s, false) => (s, true)
    | (s, true) =>
      let spa := leafSpa e lvl va
      let ready : Option State := match s.sealedIn spa with
        | some x => s.unseal x
        | none => some s
      match ready with
      | none => (s, false)
      | some s =>
        let (e, spa) := match s.leafOf va with
          | some (_, e, lvl) => (e, leafSpa e lvl va)
          | none => (e, spa)
        let fn := (s.ctx w.owner).fn
        let lines := if w.incr then 1 else (w.data.length + 63) / 64
        if !s.bandwidthOk fn (s.redirect spa) (64 * lines) then (s, false)
        else
          let s := s.bandwidthUse fn (s.redirect spa) (64 * lines)
          let put (s : State) (off : Nat) (bs : List Byte) : State :=
            (s.logDirty w.owner va).writeHome w.owner e (spa + off) (offsets ((va + off) % 64) bs)
          if w.incr then
            let r := s.readHome w.owner 0 va e spa 8
            (put r.1 0 (leBytes 8 (leNat r.2.1 + 1)), true)
          else ((List.range lines).foldl (fun s i => put s (64 * i) ((w.data.drop (64 * i)).take 64)) s, true)

/-- A write of the device is made, in order with those of its owner that wait (R190, R305). -/
def State.pushDev (s : State) (w : DevWrite) : State :=
  let waits (s : State) : State := { s with hub := { s.hub with devQ := s.hub.devQ ++ [w] } }
  if s.hub.devQ.any (fun x => x.owner == w.owner) then waits s
  else
    match s.performDev w with
    | (s, true) => s
    | (s, false) => waits s

/-- The first write that each owner waits with. -/
def firstDevs : List DevWrite → List DevWrite
  | [] => []
  | w :: t => w :: (firstDevs t).filter (fun x => x.owner != w.owner)

/-- A write of the device that waits is tried again, once no fault record of its page stands: it is made or dropped, or a new record is
written (R190, R305). -/
def State.retryDev (s : State) : Option State :=
  (firstDevs s.hub.devQ).findSome? (fun w =>
    if s.hub.faults.any (fun f => f.page == vaOf w.ptr / 2 ^ 16) then none
    else
      match s.performDev w with
      | (s', true) => some { s' with hub := { s'.hub with devQ := s'.hub.devQ.erase w } }
      | (s', false) => if s'.hub.faults.length = s.hub.faults.length then none else some s')

/-- The writes of the device that wait on a page whose record the memory manager rejects fail their check, and are not made (R142, R190,
R305). -/
def State.rejectDevs (s : State) (page : Nat) : State :=
  let gone := (firstDevs s.hub.devQ).filter (fun w => vaOf w.ptr / 2 ^ 16 == page)
  { s with hub := { s.hub with devQ := gone.foldl List.erase s.hub.devQ } }

/-- A write by the device for an owner: one that lies outside global space or is misaligned fails its check (R142, R190). -/
def State.deviceWrite (s : State) (w : DevWrite) : State :=
  let n := if w.incr then 8 else w.data.length
  if regionOf (vaOf w.ptr) ≠ .glob ∨ vaOf w.ptr % n ≠ 0 then s else s.pushDev w

/-- A write of the device for an owner waits. -/
def State.devWaits (s : State) (owner : Nat) : Bool := s.hub.devQ.any (fun w => w.owner == owner)

/-- A number written to a HW field of a launch's record, at a byte offset (R186, R190). -/
def State.launchField (s : State) (l : Launch) (off n x : Nat) : State :=
  s.deviceWrite { owner := l.owner, ptr := l.ptr + BitVec.ofNat 64 off, data := leBytes n x }

/-- A launch takes STATE 4 with its first error (R191). -/
def State.failLaunch (s : State) (num : Nat) (cause crew : Word) : State :=
  match s.launch? num with
  | none => s
  | some l =>
    let first := l.ecause == 0
    let l' := { l with
      state := 4
      ecause := if first then cause else l.ecause
      failCrew := if first then crew else l.failCrew }
    let s := (s.setLaunch num l').launchField l' 80 1 4
    if first then (s.launchField l' 88 8 cause.toNat).launchField l' 96 8 crew.toNat else s

/-- A report of an engine for a thread (R201): held, or recorded in the launch of a thread that has ended; one whose DONE only
waits for its vector operations counts as ended (DESIGN CHOICE, log 50). -/
def State.report (s : State) (c sl : Nat) (i : TrapInfo) : State :=
  let t := s.thread c sl
  if t.live && t.wait != .ending then s.setThread c sl (t.report i.deferred)
  else s.failLaunch t.id.launch.toNat i.deferred.cause t.id.crew

end Sys2Proof.Machine
end

