-- ==== Sys2Proof/Machine/Cache.lean ====
section
/-! DEFINITION. The L1 of a core: what it holds, its fills and write-backs (spec/06_memory_access.md R157;
spec/16_memory_hierarchy.md R297), and the loads and stores of checked targets through it (spec/06_memory_access.md R143 to R149,
R154; spec/16_memory_hierarchy.md R300). -/

namespace Sys2Proof.Machine

/-! ### The L1 (R157, R297) -/

/-- The byte an L1 holds. -/
def l1Find (l : List L1Byte) (va : Nat) : Option L1Byte := List.find? (fun b => b.va == va) l

/-- The L1 with a byte. -/
def l1Put (l : List L1Byte) (b : L1Byte) : List L1Byte := b :: l.filter (fun x => x.va != b.va)

/-- The L1 with bytes from an address on, each as a first one says. -/
def l1PutAll (l : List L1Byte) (x : L1Byte) : List Byte → List L1Byte
  | [] => l
  | b :: t => l1PutAll (l1Put l { x with b }) { x with va := x.va + 1 } t

/-- The L1 with a line filled from its home: its dirty bytes stay (R157), every other byte of it is the home's, so that what a read
finds of the line outside the core's own stores was read there at one time (R143). -/
def l1Fill (l : List L1Byte) (va : Nat) (line : List Byte) : List L1Byte :=
  let keep := l.filter (fun b => b.dirty || b.va / 64 != va / 64)
  let own (a : Nat) : Bool := keep.any (fun b => b.va == a)
  (((List.range line.length).zip line).filter (fun e => !own (va + e.1))).map
    (fun e => { va := va + e.1, b := e.2, dirty := false }) ++ keep

/-- The lines that an L1 holds, each once. -/
def l1Lines (l : List L1Byte) : List Nat := sortNats (l.map (fun b => b.va / 64))

/-- The bytes of an L1 from an address on, if it holds all n. -/
def l1Bytes (l : List L1Byte) (va : Nat) : Nat → Option (List Byte)
  | 0 => some []
  | n + 1 => (l1Find l va).bind (fun b => (l1Bytes l (va + 1) n).map (b.b :: ·))

/-! ### Write-backs -/

/-- The lines that hold dirty bytes, each once, in address order. -/
def dirtyLines (l : List L1Byte) : List Nat :=
  sortNats ((l.filter (·.dirty)).map (fun b => b.va / 64))

/-- The stores whose bytes a write-back loses report POISON, each once (R401). -/
def State.loseBytes (s : State) (c : Nat) : List L1Byte → State
  | [] => s
  | b :: t =>
    let same (x : L1Byte) : Bool := x.slot == b.slot && x.ptr == b.ptr && x.pc == b.pc
    let s := State.loseBytes s c t
    if t.any same then s else s.report c b.slot (Cause.poison.info b.ptr b.pc)

/-- The dirty bytes of one line of a core's L1 reach memory; they stay valid and clean (R151, R157). They stay dirty while the walk
for them faults, which writes a fault record (R305) and a new one after a REJECT (DESIGN CHOICE, log 28), while their limit withholds the request (R404), or while their sealed buffer is
not ready to move (R373). Bytes of a peer that cannot be reached are lost (R401). -/
def State.writeBackLine (s : State) (c line : Nat) : State :=
  let dirty := (s.core c).l1.filter (fun b => b.va / 64 == line && b.dirty)
  match dirty with
  | [] => s
  | first :: _ =>
    let owner := s.ownerOf c
    let fn := (s.ctx owner).fn
    let bytes : List (Nat × Byte) := dirty.map (fun b => (b.va % 64, b.b))
    match s.walk (dieOf c) (line * 64) true with
    | (s, .fault r lvl) => s.addFault first.ptr r lvl 2 false owner
    | (s, .leaf e lvl) =>
      let ready : Option State := match s.sealedIn (leafSpa e lvl (line * 64)) with
        | some x => s.unseal x
        | none => some s
      match ready with
      | none => s
      | some s =>
        let (e, spa) := match s.leafOf (line * 64) with
          | some (_, e, lvl) => (e, leafSpa e lvl (line * 64))
          | none => (e, leafSpa e lvl (line * 64))
        let home := s.redirect spa
        if !s.bandwidthOk fn home 64 then s
        else
          let s := match s.home home with
            | .peer d => if s.reaches fn d then s.writeHome owner e spa bytes
                else s.loseBytes c dirty
            | _ => (s.bandwidthUse fn home 64).writeHome owner e spa bytes
          let k := s.core c
          s.setCore c { k with l1 := k.l1.map (fun b => if b.va / 64 == line then { b with dirty := false } else b) }

/-- Every dirty byte of a core's L1 that can reach memory does (R157). -/
def State.writeBack (s : State) (c : Nat) : State :=
  (dirtyLines (s.core c).l1).foldl (fun s l => s.writeBackLine c l) s

/-- Every dirty byte of a core's L1 in a range of lines that can reach memory does (R215). -/
def State.writeBackRange (s : State) (c base lines : Nat) : State :=
  ((dirtyLines (s.core c).l1).filter (fun l => decide (base ≤ l) && decide (l < base + lines))).foldl
    (fun s l => s.writeBackLine c l) s

/-- No byte of a line of a core's L1 is dirty. -/
def State.lineClean (s : State) (c line : Nat) : Bool := (s.core c).l1.all (fun b => !b.dirty || b.va / 64 != line)

/-- No byte of a core's L1 in a range of lines is dirty. -/
def State.rangeClean (s : State) (c base lines : Nat) : Bool :=
  (s.core c).l1.all (fun b => !b.dirty || decide (b.va / 64 < base) || decide (base + lines ≤ b.va / 64))

/-- No byte of a core's L1 is dirty. -/
def State.l1Clean (s : State) (c : Nat) : Bool := (s.core c).l1.all (fun b => !b.dirty)

/-- The clean bytes of a core's L1 go (R157). -/
def State.dropClean (s : State) (c : Nat) : State :=
  let k := s.core c
  s.setCore c { k with l1 := k.l1.filter (·.dirty) }

/-- The clean bytes of one line go. -/
def State.dropCleanLine (s : State) (c line : Nat) : State :=
  let k := s.core c
  s.setCore c { k with l1 := k.l1.filter (fun b => b.dirty || b.va / 64 != line) }

/-- An L1 gives up a line (R157; log 7): its dirty bytes reach memory first. -/
def State.evictLine (s : State) (c line : Nat) : State := (s.writeBackLine c line).dropCleanLine c line

/-- An L1 has room for a line: it holds the line, or fewer than the 1,024 lines of 64 KiB (R297). -/
def State.hasRoom (s : State) (c line : Nat) : Bool :=
  (s.core c).l1.any (fun b => b.va / 64 == line) || decide ((l1Lines (s.core c).l1).length < 1024)

/-- Room is made for a line in a full L1: the line of the byte that was placed first goes (log 7). -/
def State.makeRoom (s : State) (c line : Nat) : State :=
  if s.hasRoom c line then s
  else
    match (s.core c).l1.getLast? with
    | some b => s.evictLine c (b.va / 64)
    | none => s

/-! ### The device register window's thread block (R300) -/

/-- The 8-byte value at an 8-aligned offset of the thread block. -/
def State.threadBlock (s : State) (c off : Nat) : Word :=
  let k := s.ctx (s.ownerOf c)
  match off with
  | 0x0000 => s.dev.devnum.setWidth 64
  | 0x0008 => BitVec.ofNat 64 (k.tab.foldl (fun a e => a ||| 2 ^ e.1) 0)
  | 0x0010 => match k.job with
    | some j => j.sched
    | none => 0
  | 0x0018 => BitVec.ofNat 64 k.phases
  | _ => 0

/-- n bytes of the thread block. -/
def State.devBytes (s : State) (c off n : Nat) : List Byte :=
  ((leBytes 8 (s.threadBlock c (off / 8 * 8)).toNat).drop (off % 8)).take n

/-! ### Loads and stores of a checked target -/

/-- n bytes of a scratchpad within one line, and whether the line is poisoned (R357). -/
def State.spadRead (s : State) (c off n : Nat) : List Byte × Bool :=
  ((s.core c).spad.bytes off n, (s.core c).spadPoison.contains (off / 64))

/-- Bytes written to a scratchpad within one line; a whole line clears its poison (R356, R357). -/
def State.spadWrite (s : State) (c off : Nat) (bs : List Byte) : State :=
  let k := s.core c
  s.setCore c { k with
    spad := k.spad.setBytes off bs
    spadPoison := if bs.length = 64 then k.spadPoison.filter (fun l => l != off / 64) else k.spadPoison }

/-- A global target stands at a local address that the map leaves unpopulated, of the device or of a peer that its owner's function
reaches (R295). -/
def State.holeAt (s : State) (owner spa : Nat) : Bool :=
  match s.home spa with
  | .hole => true
  | .peer d => localHome (spaLocal spa) == .hole && s.reaches (s.ctx owner).fn d
  | _ => false

/-- A load of n bytes within one line through a core's L1 (R157): bytes the L1 holds are read there; otherwise the line is
filled from its home. The result carries whether the line read was poisoned (R356): a line of which the L1 holds only a part, stored
there, reads as its home does. An MX alias block is read at its home (log 7). -/
def State.loadGlob (s : State) (c va : Nat) (pte : Word) (spa n : Nat) : Res (List Byte × Bool) :=
  let owner := s.ownerOf c
  let fn := (s.ctx owner).fn
  if s.holeAt owner spa then .stop (.unpopulated spa)
  else
    let s := if pteRP pte then s.settleSeq c else s
    if pteMX pte then
      if !s.bandwidthOk fn spa 64 then .wait s .bandwidth
      else
        match (s.bandwidthUse fn spa 64).readHome owner (dieOf c) va pte spa n with
        | (s, bs, p) => .ok s (bs, p)
    else
      match l1Bytes (s.core c).l1 va n with
      | some bs =>
        if s.poison.contains (s.readAt (dieOf c) pte spa / 64) && (l1Bytes (s.core c).l1 (va / 64 * 64) 64).isNone then
          .ok s (leBytes n 0, true)
        else .ok s (bs, false)
      | none =>
        let a := s.readAt (dieOf c) pte spa
        if !s.bandwidthOk fn a 64 then .wait s .bandwidth
        else
          let s := s.makeRoom c (va / 64)
          if !s.hasRoom c (va / 64) then .wait s .flush
          else
            match (s.bandwidthUse fn a 64).readHome owner (dieOf c) (va / 64 * 64) pte (spa / 64 * 64) 64 with
            | (s, _, true) => .ok s (leBytes n 0, true)
            | (s, line, false) =>
              let k := s.core c
              let l1 := l1Fill k.l1 (va / 64 * 64) line
              .ok (s.setCore c { k with l1 }) ((l1Bytes l1 va n).getD [], false)

/-- A load of n bytes within one line from a checked target. -/
def State.load (s : State) (c : Nat) (t : Target) (n : Nat) : Res (List Byte × Bool) :=
  match t with
  | .glob va pte spa => s.loadGlob c va pte spa n
  | .spad c' off => .ok s (s.spadRead c' off n)
  | .dev off => .ok s (s.devBytes c off n, false)

/-- A checked write may issue: the dirty log does not throttle it, its limit admits it and its home is not a sealed buffer (R373,
R404, R406). -/
def State.writeReady (s : State) (c : Nat) (t : Target) : Option Wait :=
  match t with
  | .glob _ _ spa =>
    let fn := (s.ctx (s.ownerOf c)).fn
    if (s.fnc fn).throttled then some .dirtyLog
    else if !s.bandwidthOk fn spa 64 then some .bandwidth
    else (s.sealedIn spa).map Wait.sealed
  | _ => none

/-- The home of a global target is a peer that its owner's function cannot reach (R401, R402). -/
def State.lost (s : State) (owner spa : Nat) : Bool :=
  match s.home (s.redirect spa) with
  | .peer d => !s.reaches (s.ctx owner).fn d
  | _ => false

/-- The place of a byte for R207. -/
def spadPlace (c off : Nat) : Nat := 2 ^ 56 * (1 + c) + off

/-- Bytes that a thread is about to store: what stands there is kept for its fetches, until its next IFENCE (R116, R207). -/
def State.noteStore (s : State) (c sl place : Nat) (old : List Byte) : State :=
  let k := s.core c
  let new (i : Nat) : Bool := !k.unfenced.any (fun u => u.slot == sl && u.place == place + i)
  let more := ((List.range old.length).zip old).filter (fun e => new e.1)
  if more.isEmpty then s
  else s.setCore c { k with unfenced := more.map (fun e => { slot := sl, place := place + e.1, old := e.2 }) ++ k.unfenced }

/-- The bytes that stand at a target's place in memory or scratchpad are kept before a thread stores there. -/
def State.noteTarget (s : State) (c sl : Nat) (t : Target) (n : Nat) : State :=
  match t with
  | .glob va pte spa => s.noteStore c sl va (if pteMX pte then (s.mxRead 0 (spa / 32 * 32) (va % 64) n).2
      else s.mem.bytes (s.readAt (dieOf c) pte spa) n)
  | .spad c' off => s.noteStore c sl (spadPlace c' off) ((s.core c').spad.bytes off n)
  | .dev _ => s

/-- A store of bytes within one line of a global page (R157): into the L1, dirty; to a replicated page also to the sequencer and
never dirty (R297); to an MX alias block at its home. One to an unreachable peer is not performed and reports POISON to the
storing thread (R401). -/
def State.storeGlob (s : State) (c sl va : Nat) (pte : Word) (spa : Nat) (bs : List Byte) (p pc : Word) : Res Unit :=
  let owner := s.ownerOf c
  if s.holeAt owner spa then .stop (.unpopulated spa)
  else if s.lost owner spa then .ok (s.report c sl (Cause.poison.info p pc)) ()
  else if pteMX pte then
    .ok (((s.logDirty owner va).bandwidthUse (s.ctx owner).fn spa 64).writeHome owner pte spa (offsets (va % 64) bs)) ()
  else
    let s := s.makeRoom c (va / 64)
    if !s.hasRoom c (va / 64) then .wait s .flush
    else
      let s := s.logDirty owner va
      let k := s.core c
      let s := s.setCore c { k with l1 := l1PutAll k.l1 { va, b := 0, dirty := !pteRP pte, slot := sl, ptr := p, pc } bs }
      if pteRP pte then
        let s := s.bandwidthUse (s.ctx owner).fn spa 64
        .ok { s with hub := { s.hub with seqQ := s.hub.seqQ ++ [{ core := c, spa, data := bs }] } } ()
      else .ok s ()

/-- A store of bytes within one line to a checked target, by the thread of a slot (R145). -/
def State.store (s : State) (c sl : Nat) (t : Target) (bs : List Byte) (p pc : Word) : Res Unit :=
  let s := s.noteTarget c sl t bs.length
  match t with
  | .glob va pte spa => s.storeGlob c sl va pte spa bs p pc
  | .spad c' off => .ok (s.spadWrite c' off bs) ()
  | .dev _ => .ok s ()

/-- A store performed at its home at once (a release store beyond the core, an engine's store): L1 bytes of the core follow. -/
def State.storeHome (s : State) (c : Nat) (t : Target) (bs : List Byte) : Res Unit :=
  match t with
  | .glob va pte spa =>
    let owner := s.ownerOf c
    if s.holeAt owner spa then .stop (.unpopulated spa)
    else if let some x := s.sealedIn spa then .wait s (.sealed x)
    else
      let s := ((s.logDirty owner va).settleSeq c).bandwidthUse (s.ctx owner).fn spa 64
      let s := s.writeHome owner pte spa (offsets (if pteMX pte then va % 64 else spa % 64) bs)
      let k := s.core c
      .ok (s.setCore c { k with l1 := k.l1.filter (fun b => !(decide (va ≤ b.va) && decide (b.va < va + bs.length))) }) ()
  | .spad c' off => .ok (s.spadWrite c' off bs) ()
  | .dev _ => .ok s ()

/-- A read and write performed as one at the home (R149, R158), or at the scratchpad's bank (R144): f answers the new bytes, if
it writes. A poisoned line is not written (R356). -/
def State.rmw (s : State) (c : Nat) (t : Target) (n : Nat) (f : Nat → Option Nat) : Res (Nat × Bool) :=
  match t with
  | .glob va pte spa =>
    let owner := s.ownerOf c
    let fn := (s.ctx owner).fn
    if s.holeAt owner spa then .stop (.unpopulated spa)
    else if !s.bandwidthOk fn spa 64 then .wait s .bandwidth
    else
      let s := ((s.settleSeq c).writeBackLine c (va / 64)).dropCleanLine c (va / 64)
      if !s.lineClean c (va / 64) then .wait s .flush
      else
        match (s.bandwidthUse fn spa 64).readHome owner (dieOf c) va pte spa n with
        | (s, _, true) => .ok s (0, true)
        | (s, bs, false) =>
          let old := leNat bs
          match f old with
          | none => .ok s (old, false)
          | some new =>
            let s := s.logDirty owner va
            .ok (s.writeHome owner pte spa (offsets (spa % 64) (leBytes n new))) (old, false)
  | .spad c' off =>
    match s.spadRead c' off n with
    | (_, true) => .ok s (0, true)
    | (bs, false) =>
      let old := leNat bs
      match f old with
      | none => .ok s (old, false)
      | some new => .ok (s.spadWrite c' off (leBytes n new)) (old, false)
  | .dev _ => .ok s (0, false)

end Sys2Proof.Machine
end

