-- ==== Sys2Proof/Machine/Ops.lean ====
section
/-! DEFINITION. The shared operations of a step: registers, the next PC and the loop end test (spec/04_integer_control.md R111),
taking a trap and returning from one (spec/01_machine_state.md R14; spec/08_system_traps_rights.md R199 to R204), the end of a
thread (R191), the writes the device makes for a launch (spec/07_sync_messages_work.md R190), and memory access by a thread. -/

namespace Sys2Proof.Machine

/-- What an instruction's meaning answers. -/
abbrev Out := Host.Outcome State Fault Refusal

/-! ### Registers (R8) -/

/-- A general register of a thread; g0 reads zero. -/
def Thread.gr (t : Thread) (r : Reg) : Word := if r = 0 then 0 else t.g[r.toNat]'r.isLt
/-- A thread with a general register written; a write of g0 is discarded. -/
def Thread.setGr (t : Thread) (r : Reg) (x : Word) : Thread := if r = 0 then t else { t with g := t.g.set r.toNat x r.isLt }
/-- A floating register of a thread. -/
def Thread.fr (t : Thread) (r : Reg) : Word := t.f[r.toNat]'r.isLt
/-- A thread with a floating register written. -/
def Thread.setFr (t : Thread) (r : Reg) (x : Word) : Thread := { t with f := t.f.set r.toNat x r.isLt }
/-- A vector register of a thread. -/
def Thread.vr (t : Thread) (r : VReg) : V512 := t.v[r.toNat]'r.isLt
/-- A thread with a vector register written. -/
def Thread.setVr (t : Thread) (r : VReg) (x : V512) : Thread := { t with v := t.v.set r.toNat x r.isLt }

/-- A general register of the current thread. -/
def State.g (s : State) (r : Reg) : Word := s.th.gr r
/-- The device with a general register of the current thread written. -/
def State.setG (s : State) (r : Reg) (x : Word) : State := s.setTh (s.th.setGr r x)
/-- A floating register of the current thread. -/
def State.f (s : State) (r : Reg) : Word := s.th.fr r
/-- The device with a floating register of the current thread written. -/
def State.setF (s : State) (r : Reg) (x : Word) : State := s.setTh (s.th.setFr r x)
/-- A vector register of the current thread. -/
def State.v (s : State) (r : VReg) : V512 := s.th.vr r
/-- The device with a vector register of the current thread written. -/
def State.setV (s : State) (r : VReg) (x : V512) : State := s.setTh (s.th.setVr r x)

/-- The privilege level is S (R12). -/
def Thread.sLevel (t : Thread) : Bool := bitAt t.status 0
/-- IT of status (R12). -/
def Thread.inTrap (t : Thread) : Bool := bitAt t.status 1
/-- PP of status (R12). -/
def Thread.pp (t : Thread) : Bool := bitAt t.status 16
/-- PF of status (R12). -/
def Thread.pf (t : Thread) : BitVec 12 := fld t.status 4 12
/-- The thread with PP and PF of status (R87). -/
def Thread.setPrefix (t : Thread) (pp : Bool) (pf : BitVec 12) : Thread :=
  { t with status := setBit (setFld t.status 4 12 pf.toNat) 16 pp }

/-! ### Loops and the next PC (R111) -/

/-- Loop 0 or 1 is active (R11). -/
def Thread.la (t : Thread) (n : LoopNo) : Bool :=
  match n with
  | .l0 => bitAt t.status 2
  | .l1 => bitAt t.status 3

/-- The thread with LA0 or LA1. -/
def Thread.setLa (t : Thread) (n : LoopNo) (b : Bool) : Thread :=
  match n with
  | .l0 => { t with status := setBit t.status 2 b }
  | .l1 => { t with status := setBit t.status 3 b }

/-- lcN. -/
def Loops.lc (l : Loops) : LoopNo → Word
  | .l0 => l.lc0 | .l1 => l.lc1
/-- lsN. -/
def Loops.ls (l : Loops) : LoopNo → Word
  | .l0 => l.ls0 | .l1 => l.ls1
/-- leN. -/
def Loops.le (l : Loops) : LoopNo → Word
  | .l0 => l.le0 | .l1 => l.le1

/-- The loop registers with lcN. -/
def Loops.setLc (l : Loops) (n : LoopNo) (x : Word) : Loops :=
  match n with
  | .l0 => { l with lc0 := x }
  | .l1 => { l with lc1 := x }

/-- The loop registers with lsN and leN; bits 2:0 of both read zero (R11). -/
def Loops.setBody (l : Loops) (n : LoopNo) (ls le : Word) : Loops :=
  match n with
  | .l0 => { l with ls0 := setFld ls 0 3 0, le0 := setFld le 0 3 0 }
  | .l1 => { l with ls1 := setFld ls 0 3 0, le1 := setFld le 0 3 0 }

/-- Loop registers of any bits as the loop registers hold them: bits 2:0 of lsN and leN read zero (R11). -/
def Loops.aligned (l : Loops) : Loops :=
  { l with ls0 := setFld l.ls0 0 3 0, le0 := setFld l.le0 0 3 0, ls1 := setFld l.ls1 0 3 0, le1 := setFld l.le1 0 3 0 }

/-- The end test of one loop at an address (R111): the thread, and the address it wraps to if it does. -/
def endTest1 (t : Thread) (n : LoopNo) (next : Word) : Thread × Option Word :=
  if t.la n && next == t.loops.le n + 8 then
    if t.loops.lc n > 1 then ({ t with loops := t.loops.setLc n (t.loops.lc n - 1) }, some (t.loops.ls n))
    else ({ t with loops := t.loops.setLc n 0 }.setLa n false, none)
  else (t, none)

/-- EndTest of R111: the inner loop first. -/
def endTest (t : Thread) (next : Word) : Thread × Word :=
  match endTest1 t .l1 next with
  | (t, some a) => (t, a)
  | (t, none) =>
    match endTest1 t .l0 next with
    | (t, some a) => (t, a)
    | (t, none) => (t, next)

/-- A transfer leaves a loop whose body does not hold the target (R111). -/
def leaveLoop (t : Thread) (n : LoopNo) (target : Word) : Thread :=
  if t.la n && (decide (target < t.loops.ls n) || decide (target ≥ t.loops.le n + 8)) then t.setLa n false else t

/-- The thread after a step that completed: the next PC chosen as R111 says. -/
def Thread.advance (t : Thread) (d : Disp) (next : Word) : Thread :=
  match d with
  | .seq => let (t, a) := endTest t next; { t with pc := a }
  | .xfer a => { leaveLoop (leaveLoop t .l0 a) .l1 a with pc := a }
  | .goto a => { t with pc := a }
  | .stay => t

/-- A thread has a vector operation that has not completed (R223). -/
def Core.vecBusy (k : Core) (sl : Nat) : Bool :=
  k.vx.any (fun e => e.1 == sl) || (k.thread sl).queue.any (fun q => match q with
    | .vec _ => true
    | _ => false)

/-- A core whose slot's thread has ended: its arrivals go, a vote it gave to the open phase stays counted (R178, R184), and no
store of it is kept apart for its fetches (R207). -/
def Core.leave (k : Core) (sl : Nat) : Core :=
  let t := k.thread sl
  let k := (k.dropInbox sl).setThread sl { t with
    live := false, ports := .replicate 4 {}, wait := .none, reports := [], stopped := false, trapDue := false
    cbarArrived := false, cbarDone := false, vote := none, phaseRes := none }
  { k with
    unfenced := k.unfenced.filter (fun u => u.slot != sl)
    endedOr := k.endedOr ||| t.vote.getD 0
    endedSum := k.endedSum + t.vote.getD 0 }

/-- The end of a thread (R115, R173, R191): it leaves the live set, its ports stop, its inbox entries go; a failure is recorded in
its launch. Reports that it still holds, as a thread in a trap may, are dropped (DESIGN CHOICE, log 50: R201 speaks of a report for a
thread that has ended). -/
def State.endThread (s : State) (c sl : Nat) (fail : Option Word) : State :=
  let t := s.thread c sl
  let s := s.setCore c ((s.core c).leave sl)
  match fail with
  | some cause => s.failLaunch t.id.launch.toNat cause t.id.crew
  | none => s

/-! ### Traps (R14, R199) -/

/-- A cause may be taken at the U-level vector (R198). -/
def routeU (i : TrapInfo) : Bool :=
  let c := fldN i.cause 0 8
  c != 0x06 && c != 0x13 && c != 0x16

/-- Trap entry of R14: loop state and status into the trap frame; LA0, LA1, PP and PF cleared, IT set, PL as routed; the trap
registers written; execution continues at the vector. -/
def Thread.enterTrap (t : Thread) (i : TrapInfo) (tpc : Word) (sLevel : Bool) : Thread :=
  let st := setBit (setBit (setBit t.status 2 false) 3 false) 1 true
  { t with
    tr := { t.tr with
      tfLoops := t.loops, tfStatus := t.status, tcause := i.cause, taddr := i.taddr, tpc, tval := i.tval }
    status := setBit st 0 sLevel }.setPrefix false 0

/-- A trap of the current thread, routed by R199; tpc is the address it will hold. A trap that reaches no vector, or arises inside
a trap, ends the thread. -/
def State.takeTrap (s : State) (i : TrapInfo) (tpc : Word) : State :=
  let t := s.th
  let s := { s with iss := { s.iss with trap := some i, disp := .stay } }
  if t.inTrap then s.endThread s.cur.1 s.cur.2 (some (setBit i.cause 10 true))
  else if !t.sLevel && routeU i && t.tr.uvec != 0 then
    (s.setTh (t.enterTrap i tpc false)).setDisp (.goto (setFld t.tr.uvec 0 3 0))
  else if t.tr.tvec != 0 then
    (s.setTh (t.enterTrap i tpc true)).setDisp (.goto (setFld t.tr.tvec 0 3 0))
  else s.endThread s.cur.1 s.cur.2 (some i.cause)

/-- A precise trap: tpc is the address of the step (R201). -/
def State.raise (s : State) (i : TrapInfo) : State := s.takeTrap i s.th.pc

/-- The current thread waits: its step has had no effect and issues again. -/
def State.waitOn (s : State) (w : Wait) : State := (s.setTh { s.th with wait := w }).setDisp .stay

/-- What a thread waits for once its wait has been woken: its step issues again; an IFENCE goes on with the lines that are left (R207). -/
def Wait.woken (w : Wait) : Wait := if w = .refill then .refillOk else .none

/-- The threads of chosen owners whose wait a predicate names wait no longer. -/
def State.wakeWhere (s : State) (own : Nat → Bool) (w : Wait → Bool) : State :=
  { s with cores := s.cores.mapV (fun _ k =>
      if own k.owner.toNat then
        { k with threads := k.threads.mapV (fun _ t => if w t.wait then { t with wait := t.wait.woken } else t) }
      else k) }

/-- The return from a trap (R204): loop registers and the whole of status from the trap frame, whose addresses may hold any bits (R13); the
PC goes to tpc with no end test. -/
def State.returnTrap (s : State) : State :=
  let t := s.th
  (s.setTh { t with loops := t.tr.tfLoops.aligned, status := t.tr.tfStatus }).setDisp (.goto t.tr.tpc)

/-- What an operation of the current thread's step, which began in s0, becomes: a step that traps or waits changes nothing of the
thread but what the trap or the wait, and a cut that its core takes (R323), does (R72). -/
def Res.out (r : Res Unit) (s0 : State) : Out :=
  match r with
  | .ok s _ => .next s
  | .trap s i => .next ((s.setTh (s.thBefore s0)).raise i)
  | .wait s w => .next ((s.setTh (s.thBefore s0)).waitOn w)
  | .stop f => .fault f

/-- ILLINS, ILLBUN or ILLPFX of a word: tval holds the word, with bit 32 for slot A, taddr its address (R72). -/
def wordInfo (c : Cause) (slotA : Bool) (addr : Word) (w : BitVec 32) : TrapInfo :=
  c.info addr (BitVec.ofNat 64 ((if slotA then 2 ^ 32 else 0) + w.toNat))

/-- A trap of the executing word (R72). -/
def State.badWord (s : State) (c : Cause) : TrapInfo := wordInfo c s.iss.slotA s.iss.addr s.iss.word

/-- An operation with its number. -/
def QOp.numbered (q : QOp) (n : Nat) : QOp :=
  match q with
  | .vec v => .vec { v with seq := n }
  | .mat m => .mat { m with seq := n }
  | .copy p => .copy { p with seq := n }

/-- An operation enters the current thread's queue (R222). -/
def State.enqueue (s : State) (q : QOp) : State :=
  let k := s.cpu
  let t := s.th
  (s.setCpu { k with ops := k.ops + 1 }).setTh { t with queue := t.queue ++ [q.numbered k.ops] }

/-- Flags and seed of the current thread, for arithmetic to start from: no flag raised yet. -/
def State.fl (s : State) : Fl := { flags := 0, seed := s.th.srseed }

/-! ### Memory by the current thread -/

/-- A read of n bytes at a target by the current thread is an off-core reference (R334): its data come neither from the core's own
scratchpad nor from its L1. -/
def State.offCore (s : State) (t : Target) (n : Nat) : Bool :=
  match t with
  | .glob va pte _ => pteMX pte || (l1Bytes s.cpu.l1 va n).isNone
  | .spad c _ => c != s.cur.1
  | .dev _ => true

/-- The current thread made an off-core reference, or did not: a leader's ends its leadership with the cycle (R334). -/
def State.noteRef (s : State) (off : Bool) : State :=
  if off && s.cpu.leader == some s.cur.2 then s.setCpu { s.cpu with passes := true } else s

/-- A checked read of n bytes by the current thread (R142): the bytes, or POISON (R356). -/
def State.readMem (s : State) (p : Word) (n : Nat) (devOk : Bool) : Res (List Byte) :=
  let q := { s.req p n true false with devOk }
  (s.check q).bind fun s t =>
    ((s.noteRef (s.offCore t n)).load s.cur.1 t n).bind fun s r =>
      if r.2 then .trap s (q.info .poison) else .ok s r.1

/-- A check of a write of n bytes by the current thread and its readiness to issue (R142, R373, R404, R406). -/
def State.checkWrite (s : State) (p : Word) (n : Nat) : Res Target :=
  (s.check (s.req p n false true)).bind fun s t =>
    match s.writeReady s.cur.1 t with
    | some w => .wait s w
    | none => .ok s t

/-- A checked write of bytes by the current thread through its L1 (R145, R157). -/
def State.writeMem (s : State) (p : Word) (bs : List Byte) : Res Unit :=
  (s.checkWrite p bs.length).bind fun s t => s.store s.cur.1 s.cur.2 t bs p s.th.pc

/-- A release by a core at a scope (R157): at one wider than core every dirty byte of its L1 is written, and its writes to
replicated pages are performed. It waits while a dirty byte cannot reach memory yet. -/
def State.release (s : State) (c : Nat) (sc : Scope) : Res Unit :=
  let s := s.settleSeq c
  if sc = .core then .ok s ()
  else
    let s := s.writeBack c
    if s.l1Clean c then .ok s () else .wait s .flush

/-- An acquire by a core at a scope (R157): at one wider than core every clean byte of its L1 goes. -/
def State.acquire (s : State) (c : Nat) (sc : Scope) : State := if sc = .core then s else s.dropClean c

/-- The ordering releases (R160). -/
def ordRel : Ord → Bool
  | .rel | .ar | .sc => true
  | .rlx | .acq => false

/-- The ordering acquires (R160). -/
def ordAcq : Ord → Bool
  | .acq | .ar | .sc => true
  | .rlx | .rel => false

/-- The release part of an ordering at a scope. -/
def State.relPart (s : State) (o : Ord) (sc : Scope) : Res Unit := if ordRel o then s.release s.cur.1 sc else .ok s ()
/-- The acquire part of an ordering at a scope. -/
def State.acqPart (s : State) (o : Ord) (sc : Scope) : State := if ordAcq o then s.acquire s.cur.1 sc else s

/-- A word from bytes, zero-extended. -/
def zext (bs : List Byte) : Word := BitVec.ofNat 64 (leNat bs)
/-- A word from bytes, sign-extended from n bytes. -/
def sext (n : Nat) (bs : List Byte) : Word := (BitVec.ofNat (8 * n) (leNat bs)).signExtend 64

end Sys2Proof.Machine
end

