-- ==== Sys2Proof/Machine/Fetch.lean ====
section
/-! DEFINITION. Instruction fetch: the instruction cache, the fetch check and program text under a window key
(spec/08_system_traps_rights.md R198, R207, R208; spec/22_confidential_code.md R377, R379; spec/20_preemption_faults.md R355,
R356). -/

namespace Sys2Proof.Machine

/-- The pointer of the 128-byte line that holds a byte (R208). -/
def linePtr (p : Word) : Word := setFld p 0 7 0
/-- The half of its line that a byte lies in. -/
def halfOf (p : Word) : Nat := fldN p 6 1

/-- The request of a fetch by a core (R198): a read of 4 bytes with X in place of R. -/
def State.fetchReq (s : State) (c : Nat) (sLevel : Bool) (p : Word) : Req :=
  { c, owner := s.ownerOf c, sLevel, p, n := 4, rd := true, wr := false, fetch := true }

/-- A text window holds an address (R377). -/
def TextWin.holds (w : TextWin) (va : Nat) : Bool :=
  w.valid && decide (vaOf w.textBase ≤ va) && decide (va < vaOf w.textBase + w.len.toNat)

/-- The windows of a core's context as its fills use them (R377, R381): a core that has still to take a KEY_UPDATE's boundary uses the
window as it was. -/
def State.windowsFor (s : State) (c : Nat) : Map TextWin :=
  let k := s.ctx (s.ownerOf c)
  match (s.core c).textSwitch, k.oldWin with
  | some w, some (w', old, _) => if w = w' ∧ !(s.core c).switchBegun then Map.put k.wins w old else k.wins
  | _, _ => k.wins

/-- The window that holds an address, as a core's fills use it. -/
def State.windowFor (s : State) (c va : Nat) : Option TextWin :=
  (List.find? (fun e : Nat × TextWin => e.2.holds va) (s.windowsFor c)).map (·.2)

/-- The halves that may issue: the one that was checked, and the other if it passes its check too (R198), which starts no fault
resolution; where it fails, what its accesses have left stays (R316). -/
def State.okHalves (s : State) (c : Nat) (sLevel : Bool) (p : Word) : State × BitVec 2 :=
  let one := BitVec.ofNat 2 (2 ^ halfOf p)
  match s.check (s.fetchReq c sLevel (setFld (linePtr p) 6 1 (1 - halfOf p))) with
  | .ok _ _ => (s, 3)
  | .trap r _ | .wait r _ => (s.keepRecords r, one)
  | .stop _ => (s, one)

/-! ### Lines (R207, R208) -/

/-- The place of the line of a pointer in a core's instruction cache (R208): its virtual address without the age, or its place in a
scratchpad, so that the ages and forms of the pointers that name a line do not tell it apart (DESIGN CHOICE, log 51: the spec does not
say what identifies a locked line). -/
def State.lineKey (s : State) (c : Nat) (p : Word) : Nat :=
  if regionOf (vaOf p) = .spad then
    match s.spadTarget c (linePtr p) with
    | some (c', off) => spadPlace c' off
    | none => vaOf (linePtr p)
  else vaOf (linePtr p)

/-- The line of a core's instruction cache at a pointer's place. -/
def State.iline (s : State) (c : Nat) (p : Word) : Option ILine :=
  List.find? (fun l => l.key == s.lineKey c p) (s.core c).icache

/-- A line answers the fetches of a pointer: its check was made through that pointer, which in a scratchpad no age distinguishes. -/
def ILine.answers (l : ILine) (p : Word) : Bool := l.ptr == linePtr p || decide (l.key ≥ 2 ^ 56)

/-- The word at an offset of a line. -/
def ILine.word (l : ILine) (p : Word) : BitVec 32 := BitVec.ofNat 32 (leNat ((l.bytes.drop (fldN p 0 7)).take 4))

/-- The instruction cache with a line placed: 512 lines at most, the oldest unlocked one going first (log 7). -/
def icachePut (ic : List ILine) (l : ILine) : List ILine :=
  let rest := ic.filter (fun x => x.key != l.key)
  if rest.length < 512 then l :: rest
  else
    match (rest.reverse.find? (fun x => !x.locked)) with
    | some old => l :: rest.filter (fun x => x.key != old.key)
    | none => rest

/-- The device with a line placed in a core's instruction cache. -/
def State.putIline (s : State) (c : Nat) (l : ILine) : State :=
  let k := s.core c
  s.setCore c { k with icache := icachePut k.icache l }

/-- Bytes from a place on as the fetches of a slot's thread find them (R116, R207): what it has stored since its last IFENCE is not
there. -/
def Core.beforeStores (k : Core) (sl : Option Nat) (place : Nat) (bs : List Byte) : List Byte :=
  if k.unfenced.isEmpty then bs
  else
    ((List.range bs.length).zip bs).map (fun e =>
      match List.find? (fun u : Unfenced => some u.slot == sl && u.place == place + e.1) k.unfenced with
      | some u => u.old
      | none => e.2)

/-- A slot's thread has stored in a range of places since its last IFENCE (R207). -/
def Core.storedIn (k : Core) (sl place n : Nat) : Bool :=
  k.unfenced.any (fun u => u.slot == sl && decide (place ≤ u.place) && decide (u.place < place + n))

/-! ### Fills (R198, R379) -/

/-- A line of clear text read at its home (R377) for a slot's thread, with the halves that memory holds poisoned (R356). -/
def State.clearLine (s : State) (c : Nat) (sl : Option Nat) (sLevel : Bool) (p : Word) (pte : Word) (spa : Nat) : State × ILine :=
  let base := vaOf (linePtr p)
  let at_ (h : Nat) : Nat := if pteMX pte then leafSpa pte 3 (base + 64 * h) else spa - vaOf p % 128 + 64 * h
  let owner := s.ownerOf c
  match s.okHalves c sLevel p with
  | (s, ok) =>
  match s.readHome owner (dieOf c) base pte (at_ 0) 64 with
  | (s, lo, p0) =>
    match s.readHome owner (dieOf c) (base + 64) pte (at_ 1) 64 with
    | (s, hi, p1) =>
      (s, { ptr := linePtr p, key := base, bytes := (s.core c).beforeStores sl base (lo ++ hi), ok
            bad := BitVec.ofNat 2 ((if p0 then 1 else 0) + (if p1 then 2 else 0)) })

/-- The pointer of the tag of a pointer's line (R379). -/
def TextWin.tagPtr (w : TextWin) (p : Word) : Word :=
  w.tagBase + BitVec.ofNat 64 (16 * ((vaOf (linePtr p) - vaOf w.textBase) / 128))

/-- A line of a window decrypted under its tag (R379): a failing tag poisons the line for issue. -/
def State.sealedLine (s : State) (c : Nat) (sl : Option Nat) (sLevel : Bool) (p : Word) (w : TextWin) (ct : ILine) : Res ILine :=
  let owner := s.ownerOf c
  let ta := w.tagPtr p
  (s.check (s.fetchReq c sLevel ta)).bind fun s t =>
    let read : State × List Byte × Bool := match t with
      | .glob va pte spa =>
        match s.readHome owner (dieOf c) va pte spa 16 with
        | (s, tag, bad) => (s, (s.core c).beforeStores sl va tag, bad)
      | .spad c' off =>
        match s.spadRead c' off 16 with
        | (tag, bad) => (s, (s.core c).beforeStores sl (spadPlace c' off) tag, bad)
      | .dev _ => (s, [], true)
    match read with
    | (s, tag, poisoned) =>
      let iv := leBytes 8 (vaOf (linePtr p)) ++ leBytes 4 w.epoch.toNat
      let aad := leBytes 2 owner ++ [0, 0]
      if poisoned then .ok s { ct with bad := 3 }
      else
        match gcmOpen w.key iv aad ct.bytes tag with
        | some pt => .ok s { ct with bytes := pt }
        | none => .ok s { ct with bad := 3, tagBad := true }

/-- A line of a scratchpad window for a slot's thread (R208): the bytes and poison of its two halves. -/
def State.spadLine (s : State) (c : Nat) (sl : Option Nat) (p : Word) : ILine :=
  match s.spadTarget c (linePtr p) with
  | some (c', off) =>
    let k := s.core c'
    let bad (i : Nat) : Nat := if k.spadPoison.contains (off / 64 + i) then 2 ^ i else 0
    { ptr := linePtr p, key := spadPlace c' off, bytes := (s.core c).beforeStores sl (spadPlace c' off) (k.spad.bytes off 128)
      bad := BitVec.ofNat 2 (bad 0 + bad 1) }
  | none => { ptr := linePtr p, key := vaOf (linePtr p), bytes := leBytes 128 0, bad := 3 }

/-- The check of a fetch by a core (R198): a protected context fetches from its windows only (R377). -/
def State.checkFetch (s : State) (c : Nat) (sLevel : Bool) (p : Word) : Res Target :=
  let q := s.fetchReq c sLevel p
  (s.check q).bind fun s t =>
    let inWindow : Bool := match t with
      | .glob va _ _ => (s.windowFor c va).isSome
      | _ => false
    if (s.ctx (s.ownerOf c)).prot && !inWindow then .trap s (q.info .rights) else .ok s t

/-- The fill of the line that holds a fetched word, for a slot's thread or for none (R198, R377, R379): the check of the word's pointer,
then the line. -/
def State.fill (s : State) (c : Nat) (sl : Option Nat) (sLevel : Bool) (p : Word) : Res ILine :=
  (s.checkFetch c sLevel p).bind fun s t =>
    let k := s.ctx (s.ownerOf c)
    match t with
    | .spad _ _ => .ok s (s.spadLine c sl p)
    | .dev _ => .trap s ((s.fetchReq c sLevel p).info .vaddr)
    | .glob va pte spa =>
      if s.holeAt (s.ownerOf c) spa then .stop (.unpopulated spa)
      else if !s.bandwidthOk k.fn spa 128 then .wait s .bandwidth
      else
        match (s.bandwidthUse k.fn spa 128).clearLine c sl sLevel p pte spa with
        | (s, l) =>
          match (if k.prot then s.windowFor c va else none) with
          | some w => s.sealedLine c sl sLevel p w l
          | none => .ok s l

/-- A filled line whose memory holds an error in a half that is not issued (R355): LATENT and RETIRE records, of the second tier for a
page that stands there, else of HBM. -/
def State.noteLatent (s : State) (c : Nat) (l : ILine) : State :=
  if l.bad = 0 ∨ l.tagBad ∨ l.key ≥ 2 ^ 56 then s
  else
    let unit : Nat := match s.leafOf l.key with
      | some (_, e, lvl) =>
        match s.home (leafSpa e lvl l.key) with
        | .exp _ => 1
        | _ => 0
      | none => 0
    (s.ras unit 2 l.ptr (s.ownerOf c)).ras unit 4 l.ptr (s.ownerOf c)

/-! ### Locked lines that are filled again (R207, R210, R381) -/

/-- LL is set in the status of every live thread of an owner (R210). -/
def State.setLL (s : State) (o : Nat) : State :=
  { s with cores := s.cores.mapV (fun _ k =>
      if k.owner.toNat = o then
        { k with threads := k.threads.mapV (fun _ t => if t.live then { t with status := setBit t.status 19 true } else t) }
      else k) }

/-- The fill of a locked line has failed: the line stays locked and poisoned for issue (R207); one that a restore locks again loses its
lock, and LL is set (R210). -/
def State.refillFails (s : State) (c : Nat) (l : ILine) : State :=
  if l.relock then
    let k := s.core c
    (s.setCore c { k with icache := k.icache.filter (fun x => x.key != l.key) }).setLL (s.ownerOf c)
  else s.putIline c { l with bad := 3, stale := false, waitPage := none }

/-- A locked line filled again from memory (R207, R210, R381); it stays as it is while its fill has to wait (R305, R404). -/
def State.refill (s : State) (c : Nat) (l : ILine) : Res Unit :=
  match s.fill c none false l.ptr with
  | .ok s n => .ok ((s.noteLatent c n).putIline c { n with locked := true }) ()
  | .trap s _ => .ok (s.refillFails c l) ()
  | .wait s w =>
    match w with
    | .fault p _ _ => .wait (s.putIline c { l with waitPage := some (vaOf p / 2 ^ 16) }) w
    | w => .wait s w
  | .stop f => .stop f

/-- Locked lines of a core filled again, those that have to wait apart: the core waits until none is left. -/
def State.refillEach (s : State) (c : Nat) : List ILine → Res Unit
  | [] => if (s.core c).icache.any (·.stale) then .wait s .refill else .ok s ()
  | l :: t =>
    match s.refill c l with
    | .ok s _ | .wait s _ => State.refillEach s c t
    | .trap s i => .trap s i
    | .stop f => .stop f

/-- The locked lines of a core that have still to be filled again and wait on no page. -/
def State.refillStale (s : State) (c : Nat) : Res Unit :=
  s.refillEach c ((s.core c).icache.filter (fun l => l.stale && l.waitPage.isNone))

/-- The chosen lines of a core's instruction cache go; those that are locked have still to be filled again (R207, R381). -/
def State.staleIcache (s : State) (c : Nat) (choose : ILine → Bool) : State :=
  let k := s.core c
  s.setCore c { k with icache := k.icache.filterMap (fun l =>
    if !choose l then some l
    else if l.locked then some { l with stale := true, waitPage := none }
    else none) }

/-! ### Fetches (R198, R207, R355) -/

/-- The current thread has stored in a line or in its tag since its last IFENCE (R207): its fetch of the line is its own, and no cache
holds what it reads. -/
def State.ownFetch (s : State) (c : Nat) (p : Word) : Bool :=
  let k := s.core c
  let sl := s.cur.2
  k.storedIn sl (s.lineKey c p) 128
    || ((s.ctx (s.ownerOf c)).prot && match s.windowFor c (vaOf p) with
      | some w => k.storedIn sl (vaOf (w.tagPtr p)) 16
      | none => false)

/-- A word of a line that a fill brings (R198): it issues, and the line is held, unless the fetch is the thread's own or from a
scratchpad; a word of a poisoned half traps POISON with FETCH (R356, R379). -/
def State.fetchFilled (s : State) (c : Nat) (sLevel : Bool) (p : Word) : Res (BitVec 32) :=
  let apart := s.ownFetch c p
  (s.fill c (some s.cur.2) sLevel p).bind fun s l =>
    if bitAt l.bad (halfOf p) then
      .trap (if l.tagBad then s.ras 4 3 p (s.ownerOf c) else s) ((s.fetchReq c sLevel p).info .poison)
    else
      let s := s.noteLatent c l
      let held := (s.iline c p).any (·.locked)
      .ok (if apart || decide (l.key ≥ 2 ^ 56) then s else s.putIline c { l with locked := held }) (l.word p)

/-- The word that the current thread fetches at a pointer (R198, R207): from its core's instruction cache where a line of it holds the
word checked and sound, from a fill otherwise. A locked line that has still to be filled again is filled first. -/
def State.fetchWord (s : State) (c : Nat) (sLevel : Bool) (p : Word) : Res (BitVec 32) :=
  (match s.iline c p with
    | some l => if l.stale then s.refill c l else .ok s ()
    | none => .ok s ()).bind fun s _ =>
  match s.iline c p with
  | none => s.fetchFilled c sLevel p
  | some l =>
    if l.answers p && l.locked && bitAt l.bad (halfOf p) then
      .trap (if l.tagBad then s.ras 4 3 p (s.ownerOf c) else s) ((s.fetchReq c sLevel p).info .poison)
    else if l.answers p && bitAt l.ok (halfOf p) && !bitAt l.bad (halfOf p) && !s.ownFetch c p then .ok s (l.word p)
    else s.fetchFilled c sLevel p

/-- A fetch ahead of the line at a pointer (R355): it reports nothing to a thread and starts no fault resolution, and where it fails what its
accesses have left stays (R316); a failing tag writes a LATENT record; a line poisoned in memory writes LATENT and RETIRE records. -/
def State.fetchAhead (s : State) (c : Nat) (p : Word) : State :=
  if (s.iline c p).isSome then s
  else
    match s.fill c none false p with
    | .ok s' l =>
      if l.tagBad then s'.ras 4 2 p (s.ownerOf c)
      else if l.key ≥ 2 ^ 56 then s
      else if l.bad != 0 then s'.noteLatent c l
      else s'.putIline c l
    | .trap r _ | .wait r _ => s.keepRecords r
    | .stop _ => s

end Sys2Proof.Machine
end

