-- ==== Sys2Proof/Machine/Operands.lean ====
section
/-! DEFINITION. The operand forms: displacements and targets (spec/03_encoding.md R73 to R75), floating operands by width and
format (spec/01_machine_state.md R10; spec/05_floating_point.md R118), vector lanes (spec/10_vector_streams.md R220, R221), and
coordinate and descriptor operands. -/

namespace Sys2Proof.Machine

/-- A signed field as a word. -/
def simm {n : Nat} (x : BitVec n) : Word := x.signExtend 64

/-- The effective pointer of a displaced access: base + s(disp) × n (R145, R152). -/
def State.effective {k : Nat} (s : State) (b : Reg) (disp : BitVec k) (n : Nat) : Word :=
  s.g b + simm disp * BitVec.ofNat 64 n

/-- The target of a branch, jump or call: the word's address + 4 × disp (R102, R103). -/
def State.target {k : Nat} (s : State) (disp : BitVec k) : Word := s.iss.addr + simm disp * 4

/-- The format that w selects (R118). -/
def widthFmt : Width → Fmt
  | .w32 => .fp32
  | .w64 => .fp64

/-- The bits of a floating operand of a format (R10, R118). -/
def State.fbits (s : State) (f : Fmt) (r : Reg) : Nat := (s.f r).toNat % 2 ^ f.bits

/-- The value of a floating operand of a format. -/
def State.fval (s : State) (f : Fmt) (r : Reg) : Val := f.val (s.fbits f r)

/-- A result of n bits as a register's value, zero above (R10, R118). -/
def ofBits (b : Nat) : Word := BitVec.ofNat 64 b

/-- An integer as a register's value. -/
def ofInt (i : Int) : Word := BitVec.ofInt 64 i

/-- A truth value as a register's value. -/
def ofBool (b : Bool) : Word := if b then 1 else 0

/-- Lane i of a vector register in lanes of n bits. -/
def lane (n : Nat) (v : V512) (i : Nat) : Nat := fldN v (n * i) n

/-- A vector register from lanes of n bits, lane 0 first. -/
def ofLanes (n : Nat) (xs : List Nat) : V512 := BitVec.ofNat 512 (xs.foldr (fun x acc => x % 2 ^ n + 2 ^ n * acc) 0)

/-- The lanes of a vector register, lane 0 first. -/
def lanesOf (n : Nat) (v : V512) : List Nat := (List.range (512 / n)).map (lane n v)

/-- The bytes of a vector register, byte 0 first. -/
def vBytes (v : V512) : List Byte := leBytes 64 v.toNat

/-- A vector register from bytes, byte 0 first. -/
def ofVBytes (bs : List Byte) : V512 := BitVec.ofNat 512 (leNat bs)

/-- Bytes of an element size (R152). -/
def eszBytes : ESz → Nat
  | .b => 1 | .h => 2 | .w => 4 | .d => 8

/-- The coordinates of a coordinate operand as XYA reads them (R100). -/
def coordU (a : Word) : Nat × Nat := (fldN a 0 16, fldN a 16 16)
/-- The coordinates of a coordinate operand as XYR reads them: least non-negative residues (R100). -/
def coordS (a : Word) : Nat × Nat :=
  (((fld a 0 16).toInt % 64).toNat, ((fld a 16 16).toInt % 24).toNat)

/-- LCANCEL and LCOUNT reject a target that their level does not admit (R192, R194). -/
def badLevel (lvl : BitVec 2) (a : Word) : Bool := (lvl == 1 && a == 0) || (decide (lvl.toNat ≥ 2) && a != 0)

end Sys2Proof.Machine
end

