-- ==== Sys2Proof/Machine/Work.lean ====
section
/-! DEFINITION. Launches from LAUNCH to completion, cancellation and counting (spec/07_sync_messages_work.md R186 to R194), and the
dispatcher (spec/19_scheduler.md R325 to R333). -/

namespace Sys2Proof.Machine

/-! ### The launch record (R186) -/

/-- ENTRY. -/
def Launch.entry (l : Launch) : Word := fld l.recd 0 64
/-- ARG. -/
def Launch.arg (l : Launch) : Word := fld l.recd 64 64
/-- EX. -/
def Launch.ex (l : Launch) : Nat := fldN l.recd 128 22
/-- EY. -/
def Launch.ey (l : Launch) : Nat := fldN l.recd 150 21
/-- EZ. -/
def Launch.ez (l : Launch) : Nat := fldN l.recd 171 21
/-- NTH. -/
def Launch.nth (l : Launch) : Nat := fldN l.recd 192 5
/-- SPK. -/
def Launch.spk (l : Launch) : Nat := fldN l.recd 200 9
/-- VW. -/
def Launch.vw (l : Launch) : Nat := fldN l.recd 209 7
/-- PRI. -/
def Launch.pri (l : Launch) : Nat := fldN l.recd 216 6
/-- SHW. -/
def Launch.shw (l : Launch) : Nat := fldN l.recd 224 4
/-- PW. -/
def Launch.pw (l : Launch) : Bool := bitAt l.recd 240
/-- DEP. -/
def Launch.dep (l : Launch) : Bool := bitAt l.recd 241
/-- GRAPH. -/
def Launch.graph (l : Launch) : Nat := fldN l.recd 256 64
/-- CCADDR. -/
def Launch.ccaddr (l : Launch) : Word := fld l.recd 320 64
/-- The pointer of the dependence counter: the record's pointer and DOFF. -/
def Launch.depPtr (l : Launch) : Word := l.ptr + (fld l.recd 384 48).signExtend 64
/-- DTHR. -/
def Launch.dthr (l : Launch) : Nat := fldN l.recd 432 16
/-- TVEC. -/
def Launch.tvec (l : Launch) : Word := fld l.recd 448 64
/-- Crews of the launch. -/
def Launch.total (l : Launch) : Nat := l.ex * l.ey * l.ez

/-- The offending bit numbers of a record, in rising order (R187 item 3): each with whether it offends. -/
def recordChecks (r : BitVec 512) : List (Nat × Bool) :=
  let bits (lo n : Nat) : List (Nat × Bool) := (List.range n).map (fun i => (lo + i, bitAt r (lo + i)))
  bits 0 2
  ++ [(192, fldN r 192 5 == 0 || decide (fldN r 192 5 > 16))]
  ++ bits 197 3
  ++ [(200, decide (fldN r 200 9 > 256)), (209, decide (fldN r 209 7 > 64))]
  ++ bits 222 2
  ++ [(224, fldN r 224 4 == 0)]
  ++ bits 228 12
  ++ bits 242 14
  ++ bits 448 3

/-- The lowest offending bit number of a record, if one offends (R187 item 3). -/
def badRecordBit (r : BitVec 512) : Option Nat := ((recordChecks r).find? (·.2)).map (·.1)

/-! ### The scheduling word (R325) -/

/-- CEIL of a job. -/
def Job.ceil (j : Job) : Nat := fldN j.sched 24 6
/-- SQLOG2 of a job. -/
def Job.sqlog2 (j : Job) : Nat := fldN j.sched 0 8
/-- WDLOG2 of a job. -/
def Job.wdlog2 (j : Job) : Nat := fldN j.sched 32 8

/-- A scheduling word is in range with its reserved bits zero (R325). -/
def schedOk (w : Word) : Bool :=
  let sq := fldN w 0 8
  let wd := fldN w 32 8
  fldN w 40 24 == 0 && fldN w 30 2 == 0 && fldN w 8 16 == 0
    && (sq == 0 || (decide (4 ≤ sq) && decide (sq ≤ 20))) && (wd == 0 || (decide (20 ≤ wd) && decide (wd ≤ 44)))

/-! ### The pool and the spill queue (R332) -/

/-- The launches of an owner that have not completed. -/
def State.liveLaunches (s : State) (o : Nat) : Map Launch :=
  s.launches.filter (fun e => e.2.owner == o && !e.2.completed)

/-- A pool slot is taken. -/
def State.slotTaken (s : State) (i : Nat) : Bool := s.launches.any (fun e => !e.2.completed && e.2.slot == some i)

/-- The lowest free pool slot of n slots from a first one. -/
def State.freeSlot (s : State) (first n : Nat) : Option Nat :=
  ((List.range n).map (first + ·)).find? (fun i => !s.slotTaken i)

/-- A launch stands in its job's spill queue (R332), until its completion begins; one with a zero extent never does (R188). -/
def Launch.spilled (l : Launch) : Bool := !l.completed && l.slot.isNone && l.closing == 0 && l.total != 0

/-- The launches in an owner's spill queue (R332). -/
def State.spillCount (s : State) (o : Nat) : Nat := ((s.liveLaunches o).filter (fun e => e.2.spilled)).length

/-- LQFULL of a launch of an owner's job: its tval, if it applies (R187 item 6, R332 item 6). -/
def State.lqFull (s : State) (o : Nat) (j : Job) (pw : Bool) (graph : Nat) : Option Nat :=
  let spilling := s.spillCount o != 0 || (s.freeSlot 0 3840).isNone
  if !pw && spilling && (j.sqlog2 == 0 || decide (s.spillCount o ≥ 2 ^ j.sqlog2)) then some 1
  else if pw && (s.freeSlot 0 4096).isNone then some 2
  else if graph != 0 && (Map.find? j.graphs graph).isNone && decide ((j.graphs.filter (·.1 != 0)).length ≥ 1024) then some 3
  else none

/-- An owner's job. -/
def State.setJob (s : State) (o : Nat) (j : Job) : State :=
  let k := s.ctx o
  s.setCtx o { k with job := some j }

/-- A job's progress clock is set to 0 (R339). -/
def State.progress (s : State) (o : Nat) : State :=
  match (s.ctx o).job with
  | some j => s.setJob o { j with progress := 0, expired := false }
  | none => s

/-- The order numbers of the launches of an owner that stand at a level, rising (R329). -/
def State.levelOrder (s : State) (o lvl : Nat) : List Nat :=
  sortNats (((s.liveLaunches o).filter (fun e => e.2.level == lvl && e.2.slot.isSome && e.2.order != 0)).map (·.2.order))

/-- The number after another in a rising list, the first after the last (R329). -/
def nextInOrder (l : List Nat) (x : Nat) : Option Nat :=
  match l.find? (fun y => decide (x < y)) with
  | some y => some y
  | none => l.head?

/-- A launch leaves its level: where the level's pointer names it, it passes to the launch after it (R329). -/
def State.leaveLevel (s : State) (l : Launch) : State :=
  match (s.ctx l.owner).job with
  | none => s
  | some j =>
    if Map.find? j.rr l.level ≠ some l.order then s
    else
      s.setJob l.owner { j with rr := match nextInOrder ((s.levelOrder l.owner l.level).filter (· != l.order)) l.order with
        | some x => Map.put j.rr l.level x
        | none => j.rr.del l.level }

/-- A launch enters its level at the end of the level's order, its wait clock at 0 (R328, R329). -/
def State.enterLevel (s : State) (num level : Nat) : State :=
  match s.launch? num with
  | none => s
  | some l =>
    let s := s.leaveLevel l
    match (s.ctx l.owner).job with
    | none => s
    | some j =>
      let s := s.setLaunch num { l with level, order := j.nextOrder + 1, waitClk := 0 }
      s.setJob l.owner { j with nextOrder := j.nextOrder + 1 }

/-- The record bytes of a spill entry (R332 item 4). -/
def spillEntry (l : Launch) (num : Nat) : List Byte :=
  leBytes 64 l.recd.toNat ++ leBytes 8 l.ptr.toNat ++ leBytes 8 num ++ leBytes 48 0

/-- A spill entry is written to the job's queue, without a rights check, as the device's writes are (R305, R307, R332, R405). -/
def State.writeSpill (s : State) (o num : Nat) (l : Launch) (p : Word) : State :=
  let bs := spillEntry l num
  (s.pushDev { owner := o, ptr := p, data := bs.take 64, checked := false }).pushDev
    { owner := o, ptr := p + 64, data := bs.drop 64, checked := false }

/-- A launch takes a pool slot, or is spilled to the job's queue in memory (R332). -/
def State.enterPool (s : State) (num : Nat) : State :=
  match s.launch? num with
  | none => s
  | some l =>
    match (s.ctx l.owner).job with
    | none => s
    | some j =>
      let first (a b : Option Nat) : Option Nat := match a with
        | some x => some x
        | none => b
      let slot : Option Nat :=
        if l.pw then first (s.freeSlot 3840 256) (s.freeSlot 0 3840)
        else if (s.liveLaunches l.owner).any (fun e => e.1 != num && e.2.spilled) then none
        else s.freeSlot 0 3840
      let s := s.setLaunch num { l with slot }
      let s := match slot with
        | some _ => s
        | none =>
          let p := j.spillBase + BitVec.ofNat 64 (128 * (j.spilled % 2 ^ j.sqlog2))
          (s.setJob l.owner { j with spilled := j.spilled + 1 }).writeSpill l.owner num l p
      s.enterLevel num (Nat.min l.pri j.ceil)

/-- The oldest spilled launch moves into a pool slot that has come free among the first 3,840 (R332 item 3). -/
def State.refillPool (s : State) : State :=
  match s.freeSlot 0 3840, List.find? (fun e : Nat × Launch => e.2.spilled) s.launches with
  | some i, some (num, l) => (s.setLaunch num { l with slot := some i }).enterLevel num l.level
  | _, _ => s

/-- Spilled launches move into the pool while slots are free (R332 item 3). -/
def State.refillAll (s : State) : State :=
  (List.range (s.launches.filter (fun e => e.2.spilled)).length).foldl (fun s _ => s.refillPool) s

/-! ### Completion (R190) -/

/-- A number read by the device at its home (R188): the walk for it sets Accessed, and where it faults a fault record is written
(R302, R305). -/
def State.deviceRead (s : State) (owner : Nat) (p : Word) (n : Nat) : State × Option Nat :=
  match s.walk 0 (vaOf p) false with
  | (s, .fault r lvl) => (s.addFault p r lvl 1 false owner, none)
  | (s, .leaf e lvl) =>
    match s.readHome owner 0 (vaOf p) e (leafSpa e lvl (vaOf p)) n with
    | (s, bs, _) => (s, some (leNat bs))

/-- The dispatcher tests the dependence counter of a pending launch (R188, R327). -/
def State.testDependence (s : State) (num : Nat) : State :=
  match s.launch? num with
  | some l =>
    if l.dep && !l.depMet then
      match s.deviceRead l.owner l.depPtr 8 with
      | (s, some v) => if v ≥ l.dthr then s.setLaunch num { l with depMet := true } else s
      | (s, none) => s
    else s
  | none => s

/-- A test of a launch's dependence counter would change what stands: it finds the threshold met, or a page of which no fault record
stands (log 1). -/
def State.depDue (s : State) (l : Launch) : Bool :=
  let va := vaOf l.depPtr
  l.dep && !l.depMet && !l.completed && match s.leafOf va with
    | none => !s.hub.faults.any (fun f => f.page == va / 2 ^ 16)
    | some (_, e, lvl) => decide (leNat (s.readHome l.owner 0 va e (leafSpa e lvl va) 8).2.1 ≥ l.dthr)

/-- The end of a context's job with a status (R409): the host is told by vector 3 (R393). -/
def State.endJob (s : State) (o : Nat) (st : JobStatus) : State :=
  let k := s.ctx o
  match k.job with
  | none => s
  | some j =>
    let s := s.setCtx o { k with job := none, lastStatus := st, lastDone := j.doneLaunches, resv := none }
    { s with launches := s.launches.filter (fun e => e.2.owner != o) }.refillAll.msix k.fn 3

/-- The job ends once every launch of it has completed (R34). -/
def State.settleJob (s : State) (o : Nat) : State :=
  match (s.ctx o).job with
  | none => s
  | some j => if (s.liveLaunches o).isEmpty then s.endJob o (j.ending.getD .done) else s

/-- A reservation of a launch ends (R331). -/
def State.dropResv (s : State) (o num : Nat) : State :=
  let k := s.ctx o
  match k.resv with
  | some (n, _) => if n = num then s.setCtx o { k with resv := none } else s
  | none => s

/-- A write of the device for a launch, to its record or to its completion counter, waits (R190, R305). -/
def State.launchWaits (s : State) (l : Launch) : Bool :=
  s.hub.devQ.any (fun w => w.owner == l.owner && (decide ((w.ptr - l.ptr).toNat < 128) || (w.incr && w.ptr == l.ccaddr)))

/-- The first step of a launch's completion (R190 item 1): STATE. -/
def State.closeState (s : State) (num : Nat) (l : Launch) : State :=
  let st : BitVec 8 := if l.state = 3 ∨ l.state = 4 then l.state else 2
  (s.setLaunch num { l with state := st, closing := 1 }).launchField l 80 1 st.toNat

/-- The next step of a launch's completion (R190 item 3): the completion counter. -/
def State.closeCounter (s : State) (num : Nat) (l : Launch) : State :=
  let s := s.setLaunch num { l with closing := 2 }
  if l.ccaddr = 0 then s else s.deviceWrite { owner := l.owner, ptr := l.ccaddr, incr := true }

/-- The last step of a launch's completion (R190 items 4 and 5): the graph and job counts rise, its pool slot frees, and its job's
dependants are tested. -/
def State.closeCounts (s : State) (num : Nat) (l : Launch) : State :=
  let s := (s.leaveLevel l).setLaunch num { l with completed := true, slot := none }
  let s := match (s.ctx l.owner).job with
    | none => s
    | some j => s.setJob l.owner { j with
        doneLaunches := j.doneLaunches + 1
        graphs := if l.graph = 0 then j.graphs else Map.put j.graphs l.graph (Map.getD j.graphs l.graph 0 + 1) }
  let s := (s.dropResv l.owner num).refillAll
  let s := (s.liveLaunches l.owner).foldl (fun s e => s.testDependence e.1) s
  s.settleJob l.owner

/-- The completion of a launch goes on, n steps at most, until a write of the device for it waits (R190, R413). -/
def State.closeLaunch (s : State) (num : Nat) : Nat → State
  | 0 => s
  | n + 1 =>
    match s.launch? num with
    | none => s
    | some l =>
      if l.completed || s.launchWaits l then s
      else match l.closing with
        | 0 => (s.closeState num l).closeLaunch num n
        | 1 => (s.closeCounter num l).closeLaunch num n
        | _ => s.closeCounts num l

/-- Completion of a launch (R190): STATE once its HW field writes are made, then the completion counter, then the counts and what follows
from them; it stops where a write waits (R305), and goes on when that is made or dropped. -/
def State.completeLaunch (s : State) (num : Nat) : State := s.closeLaunch num 3

/-! ### Starting a launch (R188) -/

/-- A launch enters: its HW fields are zeroed, it takes a number and a place, its dependence counter is tested; one with a zero
extent completes at once (R188, R190). -/
def State.enterLaunch (s : State) (owner parent : Nat) (ptr : Word) (recd : BitVec 512) : State × Nat :=
  let num := s.hub.nextLaunch
  let s := { s with hub := { s.hub with nextLaunch := num + 1 } }
  let s := s.deviceWrite { owner, ptr := ptr + 64, data := leBytes 64 0 }
  let l : Launch := { ptr, recd, owner, parent, phaseNo := (s.ctx owner).phases }
  let s := s.setLaunch num l
  let s := match (s.ctx owner).job with
    | some j => if l.graph = 0 ∨ (Map.find? j.graphs l.graph).isSome then s
        else s.setJob owner { j with graphs := Map.put j.graphs l.graph 0 }
    | none => s
  if l.total = 0 then (s.completeLaunch num, num)
  else ((s.enterPool num).testDependence num, num)

/-! ### Placement (R329, R330) -/

/-- Core c holds these crews: launch, its vector registers per thread, and the crew. -/
def State.crewsOn (s : State) (c : Nat) : List (Launch × Crew) :=
  s.launches.flatMap (fun e => (e.2.crews.filter (fun k => k.2.core == c)).map (fun k => (e.2, k.2)))

/-- The slots of a core that hold no thread, lowest first. -/
def State.freeSlots (s : State) (c : Nat) : List Nat :=
  (List.range 16).filter (fun i => (Map.find? (s.core c).threads i).isNone)

/-- The lowest scratchpad range of n KiB of a core that no crew holds, at a multiple of 1 KiB: its base in KiB. -/
def State.freeSpad (s : State) (c n : Nat) : Option Nat :=
  let held := (s.crewsOn c).map (fun x => (x.2.base / 1024, x.2.size))
  if n = 0 then some 0
  else (List.range (257 - n)).find? (fun b => held.all (fun h => decide (b + n ≤ h.1) || decide (h.1 + h.2 ≤ b)))

/-- The vector pool entries of a core that are free (R22). -/
def State.freePool (s : State) (c : Nat) : Nat :=
  1024 - ((s.crewsOn c).map (fun x => x.1.nth * x.1.vw)).foldl (· + ·) 0

/-- A crew of a launch fits a core (R330): the base of its scratchpad range in KiB. -/
def State.fits (s : State) (num : Nat) (l : Launch) (c : Nat) : Option Nat :=
  let reserved := match (s.ctx l.owner).resv with
    | some (n, c') => n != num && c' == c
    | none => false
  if reserved || decide ((s.freeSlots c).length < l.nth) || decide (s.freePool c < l.nth * l.vw) then none
  else s.freeSpad c l.spk

/-- FirstFit (R330). -/
def State.firstFit (s : State) (num : Nat) (l : Launch) : Option (Nat × Nat) :=
  (s.ctx l.owner).cores.findSome? (fun c => (s.fits num l c).map (fun b => (c, b)))

/-- The device dispatches for a context: neither pre-empted nor being saved (R342). -/
def Ctx.dispatching (k : Ctx) : Bool := k.pre.isNone && k.save == .running

/-- A context's threads run: it is not being saved, saved or destroyed (R342, R344). -/
def Ctx.runs (k : Ctx) : Bool := k.save == .running || k.save == .grace

/-- A launch is ready (R327). -/
def Launch.ready (l : Launch) : Bool :=
  !l.completed && !l.cancelled && l.slot.isSome && decide (l.started < l.total) && (!l.dep || l.depMet)

/-- A crew's coordinates from its linear index (R16, R18). -/
def crewWord (l : Launch) (i : Nat) : Word :=
  BitVec.ofNat 64 (i % l.ex + (i / l.ex % l.ey) <<< 22 + (i / l.ex / l.ey) <<< 43)

/-- A thread at its start (R8, R16 to R18, R189). -/
def newThread (k : Ctx) (num : Nat) (l : Launch) (c i tix base : Nat) : Thread :=
  let xy := k.coords c
  let seed := BitVec.ofNat 32 (16 * i + tix + 1)
  { live := true
    pc := l.entry
    g := (Vector.replicate 32 (0 : Word)).set 3 l.arg
    srseed := if seed = 0 then 1 else seed
    tr := { uvec := setFld l.tvec 0 3 0, tvec := setFld k.svec 0 3 0 }
    id := {
      cx := BitVec.ofNat 6 xy.1, cy := BitVec.ofNat 5 xy.2, nth := BitVec.ofNat 5 l.nth, tix := BitVec.ofNat 4 tix
      w := l.vw, crew := crewWord l i, launch := BitVec.ofNat 64 num
      extents := BitVec.ofNat 64 (l.ex + l.ey <<< 22 + l.ez <<< 43)
      alloc := if l.spk = 0 then 0 else BitVec.ofNat 64 (l.spk <<< 32 + 1024 * base), shw := l.shw } }

/-- A crew starts on a core (R189, R329, R330): slots, scratchpad range, threads, STARTED and STATE; the start acquires. -/
def State.startCrew (s : State) (num : Nat) (l : Launch) (c base : Nat) : State :=
  let k := s.ctx l.owner
  let slots := (s.freeSlots c).take l.nth
  let i := l.started
  let core := (s.core c)
  let core := (List.range l.nth).foldl
    (fun core t => core.setThread (slots.getD t 0) (newThread k num l c i t base)) core
  let s := (s.setCore c core).acquire c .dev
  let st : BitVec 8 := if l.state = 0 then 1 else l.state
  let l' := { l with
    started := i + 1, state := st, waitClk := 0, blockClk := 0
    crews := Map.put l.crews i { core := c, slots, base := 1024 * base, size := l.spk } }
  let s := s.setLaunch num l'
  let s := if (s.ctx l.owner).resv = some (num, c) then s.dropResv l.owner num else s
  let s := s.launchField l' 64 8 (i + 1)
  if l.state = 0 then s.launchField l' 80 1 1 else s

/-- The ready launches of an owner at a level in round-robin order from the level's pointer (R329). -/
def State.turnOrder (s : State) (o lvl : Nat) (j : Job) : List (Nat × Launch) :=
  let ls := (s.liveLaunches o).filter (fun e => e.2.level == lvl && e.2.ready)
  let orders := sortNats (ls.map (fun e => e.2.order))
  let rr := Map.getD j.rr lvl 0
  let seq := orders.filter (fun x => decide (x ≥ rr)) ++ orders.filter (fun x => decide (x < rr))
  seq.filterMap (fun x => ls.find? (fun e => e.2.order == x))

/-- The next decision of Dispatch (R329): level, launch, core and scratchpad base. -/
def State.nextDispatch (s : State) (o : Nat) : Option (Nat × Nat × Launch × Nat × Nat) :=
  let k := s.ctx o
  match k.job with
  | none => none
  | some j =>
    if !k.dispatching || (s.liveLaunches o).all (fun e => !e.2.ready) then none
    else
      (List.range 64).reverse.findSome? (fun lvl =>
        (s.turnOrder o lvl j).findSome? (fun e =>
          (s.firstFit e.1 e.2).map (fun f => (lvl, e.1, e.2, f.1, f.2))))

/-- One decision of Dispatch (R329): a crew starts, and the level's pointer names the launch after its own; nothing if no crew can
start. -/
def State.dispatchOne (s : State) (o : Nat) : State :=
  match s.nextDispatch o, (s.ctx o).job with
  | some (lvl, num, l, c, b), some j =>
    (s.setJob o { j with rr := Map.put j.rr lvl ((nextInOrder (s.levelOrder o lvl) l.order).getD l.order) }).startCrew num l c b
  | _, _ => s

/-! ### Clocks (R328, R331, R339) -/

/-- The highest level of an owner that has a ready launch. -/
def State.topLevel (s : State) (o : Nat) : Option Nat :=
  (s.liveLaunches o).foldl (fun acc e =>
    if e.2.ready then
      match acc with
      | none => some e.2.level
      | some l => some (Nat.max l e.2.level)
    else acc) none

/-- Cycles pass for the wait and blocked clocks of a context's launches (R328, R331): the wait clock stands while the context is
pre-empted. -/
def State.tickLaunches (s : State) (n o : Nat) : State :=
  let waits := (s.ctx o).runs
  let top := s.topLevel o
  let launches := s.launches.mapV (fun num l =>
    if l.owner != o || !l.ready then l
    else
      let blocked := top == some l.level && (s.firstFit num l).isNone
      { l with
        waitClk := if waits then l.waitClk + n else l.waitClk
        blockClk := if blocked then l.blockClk + n else l.blockClk })
  { s with launches }

/-- PROMOn.INTERVAL (R326). -/
def State.promoInterval (s : State) (n : Nat) : Nat := fldN (Map.getD s.dev.promo n 0x0010_0000) 0 32

/-- A launch's wait clock has reached its level's interval (R328). -/
def State.promotable (s : State) (l : Launch) : Bool :=
  match (s.ctx l.owner).job with
  | none => false
  | some j =>
    let iv := s.promoInterval l.level
    l.ready && iv != 0 && decide (l.waitClk ≥ iv) && decide (l.level < j.ceil)

/-- A launch's blocked clock has reached DRAINT, and its context holds no reservation (R331). -/
def State.reservable (s : State) (l : Launch) : Bool :=
  let lim := fldN s.dev.draint 0 32
  l.ready && lim != 0 && decide (l.blockClk ≥ lim) && (s.ctx l.owner).resv.isNone

/-- The launch reserves the context's core of lowest logical number (R331). -/
def State.reserveCore (s : State) (num : Nat) (l : Launch) : State :=
  let k := s.ctx l.owner
  match k.cores with
  | c :: _ => s.setCtx l.owner { k with resv := some (num, c) }
  | [] => s

/-! ### The end of crews (R189) -/

/-- A slot's operations that have not ended: queued, accepted, in flight, or requested of the hub (R189, R193). -/
def State.slotBusy (s : State) (c sl : Nat) : Bool :=
  let k := s.core c
  !(k.thread sl).queue.isEmpty || k.mx.any (fun e => e.1 == sl) || k.vx.any (fun e => e.1 == sl)
    || (Map.find? k.cps sl).isSome || s.hub.msgs.any (fun m => m.fromCore == c && m.slot == sl)
    || s.hub.secQ.any (fun q => q.core == c && q.slot == sl && q.owner != 0)
    || s.hub.cuts.any (fun q => q.req.core == c && q.req.slot == sl && q.req.owner != 0)
    || s.hub.pageReqs.any (fun q => q.post && !q.ended && q.core == c && q.slot == sl)

/-- A crew of a launch is done: its threads ended and their operations completed (R189). -/
def State.crewIdle (s : State) (w : Crew) : Bool :=
  w.slots.all (fun sl => !(s.thread w.core sl).live && !s.slotBusy w.core sl)

/-- A crew is counted done and releases its slots, range and pool entries (R189, R330), once its accesses have been performed (R190): what
is dirty in its core's L1 is written first, and it waits for what cannot be (log 2). The threads of a saved context are on no core
(R346). -/
def State.retireCrew (s : State) (num i : Nat) : State :=
  match s.launch? num with
  | none => s
  | some l =>
    match Map.find? l.crews i with
    | none => s
    | some w =>
      let mine := s.ownerOf w.core = l.owner
      let s := if mine then (s.settleSeq w.core).writeBack w.core else s
      if mine ∧ !s.l1Clean w.core then s
      else
        let k := s.core w.core
        let s := if mine then s.setCore w.core { k with threads := k.threads.filter (fun e => !w.slots.contains e.1) } else s
        let l' := { l with crews := l.crews.del i, doneCrews := l.doneCrews + 1 }
        (s.setLaunch num l').launchField l' 72 8 l'.doneCrews

/-! ### Cancellation (R192, R193) -/

/-- The launches that a set of an owner's launches and, recursively, their threads' launches make up. -/
def State.family (s : State) (o : Nat) (root : Nat → Launch → Bool) : List Nat :=
  s.launches.foldl (fun acc e =>
    if e.2.owner == o && (root e.1 e.2 || acc.contains e.2.parent) then e.1 :: acc else acc) []

/-- Work of a slot is discarded as R193 says: queued operations and accepted ones not begun go; a copy in progress stops at a
line. -/
def State.discardWork (s : State) (c sl : Nat) : State :=
  let k := s.core c
  let t := k.thread sl
  let k := k.setThread sl { t with queue := [] }
  s.setCore c { k with
    mx := k.mx.filter (fun e => e.1 != sl || e.2.begun)
    cps := k.cps.mapV (fun i q => if i = sl then { q with kill := true, cancelled := true } else q) }

/-- A started thread of a cancelled launch stops (R193 item 2); the one that cancels stops after its own step. -/
def State.cancelThread (s : State) (self : Option (Nat × Nat)) (c sl : Nat) : State :=
  let s := s.discardWork c sl
  if self = some (c, sl) then s.setThread c sl { s.thread c sl with stopped := true }
  else if (s.thread c sl).live then s.endThread c sl none
  else s

/-- A launch is cancelled (R193). -/
def State.cancelLaunch (s : State) (self : Option (Nat × Nat)) (num : Nat) : State :=
  match s.launch? num with
  | none => s
  | some l =>
    let st : BitVec 8 := if l.state = 4 then 4 else 3
    let l' := { l with cancelled := true, canceller := self, state := st, doneCrews := l.doneCrews + (l.total - l.started) }
    let s := (((s.setLaunch num l').dropResv l.owner num).launchField l' 80 1 st.toNat).launchField l' 72 8 l'.doneCrews
    l.crews.foldl (fun s e => e.2.slots.foldl (fun s sl => s.cancelThread self e.2.core sl) s) s

/-- A cancellation within an owner's job of launches and what their threads created (R192): the device, and how many were pending or
running. -/
def State.cancel (s : State) (o : Nat) (self : Option (Nat × Nat)) (root : Nat → Launch → Bool) : State × Nat :=
  let nums := (s.family o root).filter (fun n => match s.launch? n with
    | some l => !l.completed && !l.cancelled && l.closing == 0
    | none => false)
  (nums.reverse.foldl (fun s n => s.cancelLaunch self n) s, nums.length)

/-- The whole job is cancelled and will end with a status (R192 level 3, R340, R346). -/
def State.cancelJob (s : State) (o : Nat) (self : Option (Nat × Nat)) (st : JobStatus) : State × Nat :=
  match (s.ctx o).job with
  | none => (s, 0)
  | some j =>
    (s.setJob o { j with ending := some (j.ending.getD st) }).cancel o self (fun _ _ => true)

/-- The targets of LCANCEL (R192). -/
def cancelRoot (lvl : Nat) (a : Word) (phases : Nat) (num : Nat) (l : Launch) : Bool :=
  match lvl with
  | 0 => num == a.toNat
  | 1 => l.graph == a.toNat
  | 2 => l.phaseNo == phases
  | _ => true

/-- Every stopped thread of the launches that a thread of an owner has cancelled has stopped and its operations have ended (R193), the
cancelling thread itself apart. -/
def State.cancelSettled (s : State) (o : Nat) (self : Nat × Nat) : Bool :=
  s.launches.all (fun e => e.2.owner != o || !e.2.cancelled || e.2.canceller != some self || e.2.crews.all (fun w =>
    w.2.slots.all (fun sl =>
      ((w.2.core, sl) == self || !(s.thread w.2.core sl).live) && !s.slotBusy w.2.core sl)))

/-! ### LAUNCH (R187, R188) -/

/-- A pointer that a launch names must lie in global space (R187): VADDR with the pointer, tval 0. R187 item 2 names the scratchpad
window only; a record in a reserved region or in the device register window gets the same trap, at either level (DESIGN CHOICE,
log 52). -/
def State.needGlobal (s : State) (p : Word) : Res Unit :=
  if regionOf (vaOf p) = .glob then .ok s () else .trap s (Cause.vaddr.info p)

/-- The checks of LAUNCH, in the order of R187: the record's first 64 bytes. -/
def State.checkLaunch (s : State) (p : Word) : Res (BitVec 512) :=
  if p.toNat % 128 ≠ 0 then .trap s (Cause.align.info)
  else
    (s.needGlobal p).bind fun s _ =>
    (s.readMem p 64 false).bind fun s bs =>
    (s.check (s.req (p + 64) 64 false true)).bind fun s _ =>
      let recd := BitVec.ofNat 512 (leNat bs)
      let l : Launch := { ptr := p, recd, owner := 0 }
      match badRecordBit recd with
      | some b => .trap s (Cause.lrec.info 0 (BitVec.ofNat 64 b))
      | none =>
        (if l.ccaddr = 0 then Res.ok s ()
        else (s.needGlobal l.ccaddr).bind fun s _ =>
          (s.check (s.req l.ccaddr 8 false true)).bind fun s _ => .ok s ()).bind fun s _ =>
        (if !l.dep then Res.ok s ()
        else (s.needGlobal l.depPtr).bind fun s _ =>
          (s.check (s.req l.depPtr 8 true false)).bind fun s _ => .ok s ()).bind fun s _ =>
        match s.myCtx.job.bind (fun j => s.lqFull (s.ownerOf s.cur.1) j l.pw l.graph) with
        | some v => .trap s (Cause.lqfull.info 0 (BitVec.ofNat 64 v))
        | none => .ok s recd

/-- LAUNCH (R187 to R190). -/
def execLaunch (d a : Reg) (s : State) : Out :=
  let p := s.g a
  ((s.checkLaunch p).bind fun s recd =>
    (s.release s.cur.1 .dev).bind fun s _ =>
    let (s, num) := s.enterLaunch (s.ownerOf s.cur.1) s.th.id.launch.toNat p recd
    .ok (s.setG d (BitVec.ofNat 64 num)) ()).out s

/-- LCANCEL (R192, R193): the launches are cancelled and the thread waits; LCANCEL_COMPLETE writes gd. -/
def execLcancel (d a : Reg) (lvl : BitVec 2) (s : State) : Out :=
  let x := s.g a
  if badLevel lvl x then .next (s.raise (s.badWord .illins))
  else
    let o := s.ownerOf s.cur.1
    let (s, n) := if lvl = 3 then s.cancelJob o (some s.cur) .cancelled
      else s.cancel o (some s.cur) (cancelRoot lvl.toNat x s.myCtx.phases)
    .next (s.setTh { s.th with wait := .lcancel d n })

/-- LCOUNT (R194). -/
def execLcount (d a : Reg) (lvl : BitVec 2) (s : State) : Out :=
  let x := s.g a
  let o := s.ownerOf s.cur.1
  let k := s.myCtx
  if badLevel lvl x then .next (s.raise (s.badWord .illins))
  else
    let v : Word := match lvl.toNat with
      | 0 => match s.launch? x.toNat with
        | some l => if l.owner = o ∧ !l.completed then BitVec.ofNat 64 l.doneCrews else -1
        | none => -1
      | 1 => match k.job with
        | some j => BitVec.ofNat 64 (Map.getD j.graphs x.toNat 0)
        | none => 0
      | 2 => BitVec.ofNat 64 k.phases
      | _ => match k.job with
        | some j => BitVec.ofNat 64 j.doneLaunches
        | none => 0
    .next (s.setG d v)

end Sys2Proof.Machine
end

