-- ==== Sys2Proof/Machine/Sync.lean ====
section
/-! DEFINITION. Counters, messages, the inbox, crew and cluster barriers, PHASE, YIELD and NAP, and the events that end their
waits (spec/07_sync_messages_work.md R165 to R185, R195; spec/95_what_each_step_holds.md). -/

namespace Sys2Proof.Machine

/-! ### Waking a thread -/

/-- The wait of a thread ends: it holds what the wait's end gave, and its instruction issues next (log 1). -/
def State.wake (s : State) (c sl : Nat) (w : Wait) : State :=
  let s := s.setThread c sl { s.thread c sl with wait := w }
  { s with turns := .issue c sl :: s.turns }

/-- The current thread waits no longer. -/
def State.unwait (s : State) : State := s.setTh { s.th with wait := .none }

/-! ### Counters (R166, R167) -/

/-- A counter of the issuing core. -/
def State.cnt (s : State) (n : Cnt) : Word := s.cpu.cnt n.toNat

/-- The release of CNTSET.REL and CNTADD.REL at core scope (R167), which waits for nothing (R157). -/
def State.relCore (s : State) (rel : Bool) : State := if rel then s.settleSeq s.cur.1 else s

/-- The device with a counter of the issuing core. -/
def State.setCnt (s : State) (n : Cnt) (x : Word) : State := s.setCpu (s.cpu.setCnt n.toNat x)

/-- CNTRD (R167). -/
def execCntrd (d : Reg) (n : Cnt) (s : State) : Out := .next (s.setG d (s.cnt n))
/-- CNTSET (R167). -/
def execCntset (rel : Bool) (n : Cnt) (b : Reg) (s : State) : Out := .next ((s.relCore rel).setCnt n (s.g b))
/-- CNTADD (R167). -/
def execCntadd (rel : Bool) (d b : Reg) (n : Cnt) (s : State) : Out :=
  .next (((s.relCore rel).setCnt n (s.cnt n + s.g b)).setG d (s.cnt n))

/-! ### PUT and PUTB (R168 to R170) -/

/-- The check of a message's target pointer (R168): its core and offset. -/
def State.checkPut (s : State) (p : Word) : Res (Nat × Nat) :=
  if regionOf (vaOf p) ≠ .spad then .trap s (Cause.vaddr.info p 2)
  else if p.toNat % 8 ≠ 0 then .trap s (Cause.align.info p 2)
  else
    match s.spadTarget s.cur.1 p with
    | none => .trap s (Cause.spaddr.info p 2)
    | some t => .ok s t

/-- A message leaves the current thread. -/
def State.send (s : State) (t : Nat × Nat) (data : List Byte) (n : Cnt) : State :=
  let m : Msg := {
    fromCore := s.cur.1, slot := s.cur.2, owner := s.ownerOf s.cur.1, core := t.1, off := t.2, data, cnt := n.toNat }
  { s with hub := { s.hub with msgs := s.hub.msgs ++ [m] } }

/-- PUT (R168). -/
def execPut (a b : Reg) (n : Cnt) (s : State) : Out :=
  ((s.checkPut (s.g a)).bind fun s t => .ok (s.send t (leBytes 8 (s.g b).toNat) n) ()).out s

/-- The check of PUTB's source pointer (R169): an offset of the issuing core's scratchpad. -/
def State.checkPutSrc (s : State) (p : Word) : Res Nat :=
  let bad : Res Nat := .trap s (Cause.spaddr.info p)
  if regionOf (vaOf p) ≠ .spad ∨ p.toNat % 8 ≠ 0 then bad
  else
    match s.spadTarget s.cur.1 p with
    | none => bad
    | some (c, off) => if c = s.cur.1 then .ok s off else bad

/-- PUTB (R169). -/
def execPutb (a b d : Reg) (n : Cnt) (s : State) : Out :=
  let len := s.g d
  ((if len.toNat % 8 ≠ 0 ∨ len.toNat < 8 ∨ len.toNat > 256 then Res.trap s (Cause.msglen.info 0 len)
  else
    (s.checkPut (s.g a)).bind fun s t =>
    (s.checkPutSrc (s.g b)).bind fun s off =>
      if t.2 + len.toNat > Config.spadBytes then .trap s (Cause.spaddr.info (s.g a))
      else if off + len.toNat > Config.spadBytes then .trap s (Cause.spaddr.info (s.g b))
      else .ok (s.send t (s.cpu.spad.bytes off len.toNat) n) ())).out s

/-- A payload written in aligned 8-byte parts (R169). -/
def State.writeParts (s : State) (c off : Nat) (data : List Byte) : State :=
  (List.range (data.length / 8)).foldl (fun s i => s.spadWrite c (off + 8 * i) ((data.drop (8 * i)).take 8)) s

/-- Message i may be delivered: none that the same thread sent to the same core before it is still in flight (R170). -/
def State.deliverable (s : State) (i : Nat) : Option Msg :=
  (s.hub.msgs[i]?).bind fun m =>
    if (s.hub.msgs.take i).any (fun x => x.fromCore == m.fromCore && x.slot == m.slot && x.core == m.core) then none
    else some m

/-- PUT_DELIVERY (R170): the payload is written, then the counter rises. -/
def execPutDelivery (s : State) : Out :=
  match s.deliverable s.ev.k with
  | none => .next s
  | some m =>
    let s := { s with hub := { s.hub with msgs := s.hub.msgs.eraseIdx s.ev.k } }
    let s := s.writeParts m.core m.off m.data
    let k := s.core m.core
    .next (s.setCore m.core (k.setCnt m.cnt (k.cnt m.cnt + 1)))

/-! ### WAITC (R171, R172) -/

/-- The condition of WAITC (R171). -/
def reached (v b : Word) : Bool := decide (0 ≤ (v - b).toInt)

/-- WAITC (R171): satisfied, it acquires at device scope (R172). -/
def execWaitc (d b : Reg) (n : Cnt) (s : State) : Out :=
  let finish (v : Word) : Out := .next (((s.unwait).acquire s.cur.1 .dev).setG d v)
  match s.th.wait with
  | .waitcOk v => finish v
  | _ => if reached (s.cnt n) (s.g b) then finish (s.cnt n) else .next (s.waitOn (.waitc n (s.g b)))

/-- WAITC_SATISFIED (R172): the waiting thread has its value and acquires. -/
def execWaitcSatisfied (s : State) : Out :=
  let c := s.ev.c
  let sl := s.ev.sl
  match (s.thread c sl).wait with
  | .waitc n b =>
    let v := (s.core c).cnt n.toNat
    if reached v b then .next ((s.acquire c .dev).wake c sl (.waitcOk v)) else .next s
  | _ => .next s

/-! ### The inbox (R173 to R177) -/

/-- The oldest posted entry of a slot. -/
def Core.oldest (k : Core) (sl : Nat) : Option InboxEntry := k.inbox.find? (fun e => e.slot == sl)

/-- A core with an entry removed. -/
def Core.removeEntry (k : Core) (e : InboxEntry) : Core := { k with inbox := k.inbox.erase e }

/-- What removing an entry acquires (R177, R216): the writes of a copy, of a migration or replication, or of a revoked range. -/
def State.acquireEntry (s : State) (c : Nat) (w0 : Word) : State :=
  if fldN w0 40 8 = 4 then s else s.acquire c .dev

/-- The register after another: DEQ's and FREE's second destination. -/
def regNext (d : Reg) : Reg := d + 1

/-- DEQ (R175). -/
def execDeq (d : Reg) (s : State) : Out :=
  let finish (s : State) (w0 w1 : Word) : Out :=
    .next ((((s.unwait).acquireEntry s.cur.1 w0).setG d w0).setG (regNext d) w1)
  match s.th.wait with
  | .deqOk w0 w1 => finish s w0 w1
  | _ =>
    match s.cpu.oldest s.cur.2 with
    | some e => finish (s.setCpu (s.cpu.removeEntry e)) e.w0 e.w1
    | none =>
      if s.cpu.inboxCount s.cur.2 = 0 then .next (s.raise Cause.inboxe.info) else .next (s.waitOn .deq)

/-- DEQ_WAKE (R175): a waiting DEQ removes an entry that has been posted. -/
def execDeqWake (s : State) : Out :=
  let c := s.ev.c
  let sl := s.ev.sl
  match (s.thread c sl).wait, (s.core c).oldest sl with
  | .deq, some e => .next ((s.setCore c ((s.core c).removeEntry e)).wake c sl (.deqOk e.w0 e.w1))
  | _, _ => .next s

/-- PEEK (R176). -/
def execPeek (d : Reg) (s : State) : Out :=
  .next (s.setG d (match s.cpu.oldest s.cur.2 with
    | some e => e.w0
    | none => 0))

/-! ### The crew barrier (R178) -/

/-- The slots of a core whose live threads belong to the crew of a thread. -/
def State.crewSlots (s : State) (c sl : Nat) : List Nat :=
  let t := s.thread c sl
  ((s.core c).threads.filter (fun e => e.2.live && e.2.id.launch == t.id.launch && e.2.id.crew == t.id.crew)).map (·.1)

/-- Every live thread of a thread's crew has arrived (R178). -/
def State.crewArrived (s : State) (c sl : Nat) : Bool :=
  !(s.crewSlots c sl).isEmpty && (s.crewSlots c sl).all (fun i => (s.thread c i).cbarArrived)

/-- A thread whose crew's barrier has completed: it waits there no longer. -/
def Thread.passCbar (t : Thread) : Thread :=
  { t with
    cbarArrived := false, cbarDone := true
    wait := match t.wait with
      | .cbar => .cbarOk
      | w => w.onBarrier }

/-- The crew barrier of a thread completes (R178): an acquire at core scope of every arriving thread. -/
def State.completeCbar (s : State) (c sl : Nat) : State :=
  (s.crewSlots c sl).foldl (fun s i => s.setThread c i (s.thread c i).passCbar) s

/-- The threads of a crew that wait in CBAR issue next. -/
def State.wakeCrew (s : State) (c : Nat) (slots : List Nat) : State :=
  { s with turns := slots.map (fun i => Turn.issue c i) ++ s.turns }

/-- CBAR (R178): arrival releases at core scope; a crew of one thread completes at once. -/
def execCbar (s : State) : Out :=
  let pass (s : State) : Out := .next ((s.setTh { s.th with cbarDone := false, wait := .none }).acquire s.cur.1 .core)
  if s.th.cbarDone then pass s
  else
    let s := s.settleSeq s.cur.1
    let s := s.setTh { s.th with cbarArrived := true }
    if (s.crewSlots s.cur.1 s.cur.2).length ≤ 1 then pass (s.setTh { s.th with cbarArrived := false })
    else .next (s.waitOn .cbar)

/-- CREW_BARRIER_COMPLETE (R178); threads stopped for a save stay as they are (R344). -/
def execCrewBarrierComplete (s : State) : Out :=
  let c := s.ev.c
  let sl := s.ev.sl
  if s.crewArrived c sl && (s.ctx (s.ownerOf c)).runs then
    let waiting := (s.crewSlots c sl).filter (fun i => (s.thread c i).wait == .cbar)
    .next ((s.completeCbar c sl).wakeCrew c waiting)
  else .next s

/-! ### Cluster barriers (R179 to R183) -/

/-- A barrier of a physical cluster. -/
def Cluster.bar (k : Cluster) (b : BarNo) : Barrier := Map.getD k.bars b.toNat {}

/-- The device with a barrier of a cluster. -/
def State.setBar (s : State) (i : Nat) (b : BarNo) (x : Barrier) : State :=
  let k := s.cluster i
  s.setCluster i { k with bars := Map.put k.bars b.toNat x }

/-- Any thread of a cluster waits on a barrier. -/
def State.barWaited (s : State) (i : Nat) (b : BarNo) : Bool :=
  s.cores.any (fun e => clusterOf e.1 == i && e.2.threads.any (fun t => t.2.live && match t.2.wait with
    | .barwait b' _ => b' == b
    | _ => false))

/-- The positions of a member mask. -/
def members (m : BitVec 48) : List Nat := (List.range 48).filter (fun p => bitAt m p)

/-- BARCFG (R180). -/
def execBarcfg (m : BarMode) (a : Reg) (b : BarNo) (s : State) : Out :=
  let i := clusterOf s.cur.1
  let x := s.g a
  let old := (s.cluster i).bar b
  if fldN x 48 16 ≠ 0 ∨ fldN x 0 48 = 0 then .next (s.raise (Cause.barmem.info 0 x))
  else if old.n.any (fun e => e.2 != 0) || s.barWaited i b then .next (s.raise Cause.barbusy.info)
  else .next (s.setBar i b { mask := fld x 0 48, strict := m == .strict, gen := 0, n := [] })

/-- Generations of a barrier complete while every member has arrived in the open one (R181); at most n of them. -/
def Barrier.close (x : Barrier) : Nat → Barrier
  | 0 => x
  | n + 1 =>
    let ms := members x.mask
    if ms.all (fun p => decide (Map.getD x.n p 0 ≥ 1)) then
      Barrier.close { x with gen := x.gen + 1, n := ms.foldl (fun m p => Map.put m p (Map.getD x.n p 0 - 1)) x.n } n
    else x

/-- The threads of a cluster's cores that nap on barriers have their event (R195). -/
def State.napBarrier (s : State) (i : Nat) : State :=
  { s with cores := s.cores.mapV (fun c k =>
      if clusterOf c = i then { k with threads := k.threads.mapV (fun _ t => { t with wait := t.wait.onBarrier }) } else k) }

/-- BARARR (R181, R183): a release at cluster scope. -/
def execBararr (d : Reg) (b : BarNo) (s : State) : Out :=
  let i := clusterOf s.cur.1
  let p := posOf s.cur.1
  let x := (s.cluster i).bar b
  let n := Map.getD x.n p 0
  if !bitAt x.mask p then .next (s.raise (Cause.barmem.info))
  else if x.strict && n == 1 then .next (s.raise Cause.bardup.info)
  else if n ≥ 15 then .next (s.raise Cause.barovf.info)
  else
    ((s.release s.cur.1 .clu).bind fun s _ =>
      let x' := { x with n := Map.put x.n p (n + 1) }.close 16
      let s := s.setBar i b x'
      let s := if x'.gen = x.gen then s else s.napBarrier i
      .ok (s.setG d ((x.gen + BitVec.ofNat 32 n).setWidth 64)) ()).out s

/-- Generation g of a barrier has completed (R182). -/
def Barrier.completed (x : Barrier) (g : BitVec 32) : Bool := decide (0 ≤ (x.gen - g - 1).toInt)

/-- BARWAIT (R182, R183): an acquire at cluster scope once its generation has completed. -/
def execBarwait (a : Reg) (b : BarNo) (s : State) : Out :=
  let x := (s.cluster (clusterOf s.cur.1)).bar b
  let g := fld (s.g a) 0 32
  let finish : Out := .next ((s.unwait).acquire s.cur.1 .clu)
  match s.th.wait with
  | .barwaitOk => finish
  | _ =>
    if x.mask = 0 then .next (s.raise Cause.barmem.info)
    else if x.completed g then finish
    else .next (s.waitOn (.barwait b g))

/-- BARWAIT_WAKE (R182, R183). -/
def execBarwaitWake (s : State) : Out :=
  let c := s.ev.c
  let sl := s.ev.sl
  match (s.thread c sl).wait with
  | .barwait b g =>
    if ((s.cluster (clusterOf c)).bar b).completed g then .next ((s.acquire c .clu).wake c sl .barwaitOk) else .next s
  | _ => .next s

/-! ### PHASE (R184, R185) -/

/-- The live threads of an owner: core, slot and thread. -/
def State.liveThreads (s : State) (o : Nat) : List (Nat × Nat × Thread) :=
  s.cores.flatMap (fun e => if e.2.owner.toNat = o then
    (e.2.threads.filter (fun t => t.2.live)).map (fun t => (e.1, t.1, t.2)) else [])

/-- A core has a copy that has not ended: queued by a thread or accepted. -/
def Core.copying (k : Core) : Bool :=
  !k.cps.isEmpty || k.threads.any (fun t => t.2.queue.any (fun q => match q with
    | .copy _ => true
    | _ => false))

/-- A PUT, PUTB or copy of an owner is in flight (R184). -/
def State.inFlight (s : State) (o : Nat) : Bool :=
  s.hub.msgs.any (fun m => m.owner == o) || s.cores.any (fun e => e.2.owner.toNat == o && e.2.copying)

/-- The phase of an owner can complete (R184). -/
def State.phaseReady (s : State) (o : Nat) : Bool :=
  let ts := s.liveThreads o
  !ts.isEmpty && ts.all (fun t => t.2.2.vote.isSome) && !s.inFlight o

/-- The result of a phase (R184): the OR of the votes below, their sum above, from what ended threads gave. -/
def phaseResult (votes : List (BitVec 32)) (sum0 or0 : BitVec 32 := 0) : Word :=
  votes.foldl (· + ·) sum0 ++ votes.foldl (· ||| ·) or0

/-- The result of an owner's open phase (R184): the votes of its live threads, and of those that ended after they had arrived. -/
def State.phaseValue (s : State) (o : Nat) : Word :=
  let ended := (s.cores.filter (fun e => e.2.owner.toNat == o)).map (·.2)
  phaseResult ((s.liveThreads o).filterMap (fun t => t.2.2.vote)) (ended.foldl (fun a k => a + k.endedSum) 0)
    (ended.foldl (fun a k => a ||| k.endedOr) 0)

/-- PHASE (R184): the arrival releases at device scope and the completion acquires (R185). -/
def execPhase (d a : Reg) (s : State) : Out :=
  match s.th.phaseRes with
  | some r => .next (((s.setTh { s.th with phaseRes := none, wait := .none }).acquire s.cur.1 .dev).setG d r)
  | none =>
    match s.th.vote with
    | some _ => .next (s.waitOn .phase)
    | none =>
      ((s.release s.cur.1 .dev).bind fun s _ =>
        .ok ((s.setTh { s.th with vote := some (fld (s.g a) 0 32) }).waitOn .phase) ()).out s

/-- How a thread's wait stands once the thread has stopped for a save (R344): FREE, LCANCEL and CPYK go on, and a DONE that waits for
vector operations; a NAP has its event with the restore (R195); every other waiting or stalled step issues again. -/
def Wait.stop (w : Wait) : Wait :=
  match w with
  | .free d i => .free d i
  | .lcancel d n => .lcancel d n
  | .cpyk d h => .cpyk d h
  | .ending => .ending
  | .trapping i tpc => .trapping i tpc
  | .nap m b => .nap m b
  | .napOk => .nap 0 true
  | _ => .none

/-- A thread's wait ends for a save (R344): an entry that a waiting DEQ has removed stands first in the inbox again. -/
def State.stopWait (s : State) (c sl : Nat) : State :=
  let t := s.thread c sl
  let s := match t.wait with
    | .deqOk w0 w1 =>
      let k := s.core c
      s.setCore c { k with inbox := { slot := sl, w0, w1 } :: k.inbox }
    | _ => s
  s.setThread c sl { s.thread c sl with wait := t.wait.stop }

/-- PHASE_COMPLETE (R184): every arrived thread has its result, and the context's phase count rises. A pending pre-emption takes place,
cooperatively: no thread issues a step after its PHASE (R343). -/
def execPhaseComplete (s : State) : Out :=
  let o := s.ev.o
  if !s.phaseReady o || !(s.ctx o).runs then .next s
  else
    let ts := s.liveThreads o
    let r := s.phaseValue o
    let s' := ts.foldl (fun s t =>
      let th := s.thread t.1 t.2.1
      s.setThread t.1 t.2.1 { th with
        vote := none, phaseRes := some r
        wait := if th.wait = .phase then .phaseOk else th.wait }) s
    let coop := (s.ctx o).save == .grace
    let s' := if coop then (ts.filter (fun t => t.2.2.wait != .phase)).foldl (fun s t => s.stopWait t.1 t.2.1) s' else s'
    let s' := { s' with cores := s'.cores.mapV (fun _ k => if k.owner.toNat = o then { k with endedOr := 0, endedSum := 0 } else k) }
    let k := s'.ctx o
    let s' := s'.setCtx o { k with
      phases := k.phases + 1
      pre := k.pre.map (fun p => { p with coop := true })
      save := if coop then .draining else k.save }
    let issue := (ts.filter (fun t => t.2.2.wait == .phase)).map (fun t => Turn.issue t.1 t.2.1)
    .next { s' with turns := issue ++ s'.turns }

/-! ### YIELD and NAP (R195) -/

/-- YIELD (R195): the leadership of the issuing context ends with its step's cycle (R334). -/
def execYield (s : State) : Out :=
  let k := s.cpu
  .next (if k.leader = some s.cur.2 then s.setCpu { k with passes := true } else s)

/-- NAP (R195). -/
def execNap (m : BitVec 3) (s : State) : Out :=
  match s.th.wait with
  | .napOk => .next s.unwait
  | _ => if bitAt m 0 && (s.cpu.oldest s.cur.2).isSome then .next s.unwait else .next (s.waitOn (.nap m false))

/-- NAP_WAKE (R195). -/
def execNapWake (s : State) : Out :=
  match (s.thread s.ev.c s.ev.sl).wait with
  | .nap _ true => .next (if (s.ctx (s.ownerOf s.ev.c)).runs then s.wake s.ev.c s.ev.sl .napOk else s)
  | _ => .next s

/-! ### The ends of waits for requests (R193) -/

/-- LCANCEL_COMPLETE (R193): gd receives the number of launches; a thread that cancelled its own launch stops. -/
def execLcancelComplete (s : State) : Out :=
  let c := s.ev.c
  let sl := s.ev.sl
  let t := s.thread c sl
  match t.wait with
  | .lcancel d n =>
    if !s.cancelSettled (s.ownerOf c) (c, sl) then .next s
    else
      let s := (s.setThread c sl { t.setGr d (BitVec.ofNat 64 n) with wait := .none }).progress (s.ownerOf c)
      .next (if t.stopped then s.endThread c sl none else s)
  | _ => .next s

end Sys2Proof.Machine
end

