-- ==== Sys2Proof/Machine/Rights.lean ====
section
/-! DEFINITION. GRANT, REVOKE, FREE and RPROBE, the security core's performance of them, and the revocation cut
(spec/08_system_traps_rights.md R211 to R218; spec/17_rights_hardware.md R312 to R321). -/

namespace Sys2Proof.Machine

/-! ### Ranges of lines -/

/-- Lines of an entry within a range. -/
def REntry.overlap (e : REntry) (b n : Nat) : Nat := Nat.min (e.base + e.len) (b + n) - Nat.max e.base b

/-- The part of an entry within a range. -/
def REntry.within (e : REntry) (b n : Nat) : REntry :=
  { e with base := Nat.max e.base b, len := e.overlap b n }

/-- The parts of an entry outside a range; each keeps GID, PGID and POWN (R314). -/
def REntry.outside (e : REntry) (b n : Nat) : List REntry :=
  (if e.base < b then [{ e with len := Nat.min e.len (b - e.base) }] else [])
    ++ (if b + n < e.base + e.len then
          [{ e with base := Nat.max e.base (b + n), len := e.base + e.len - Nat.max e.base (b + n) }] else [])

/-- An entry split at the ends of a range, parts in rising order. -/
def REntry.splitAt (e : REntry) (b n : Nat) : List REntry :=
  if e.meets b n then
    (e.outside b n).filter (fun x => decide (x.base < b)) ++ [e.within b n]
      ++ (e.outside b n).filter (fun x => decide (x.base ≥ b))
  else [e]

/-- An entry put into a table in order of BASE (R312). -/
def tableInsert (e : REntry) : List REntry → List REntry
  | [] => [e]
  | x :: t => if e.base < x.base then e :: x :: t else x :: tableInsert e t

/-- An owner's table. -/
def State.table (s : State) (o : Nat) : List REntry := (s.ctx o).rights

/-- The device with an owner's table. -/
def State.setTable (s : State) (o : Nat) (t : List REntry) : State := s.setCtx o { s.ctx o with rights := t }

/-- The owners that have a context, and with it a table (R312). -/
def State.owners (s : State) : List Nat := s.ctxs.map (·.1)

/-! ### Requests (R211, R212) -/

/-- The checks of R211 on pointer and length. -/
def State.checkRange (s : State) (a b : Word) : Res Unit :=
  if regionOf (vaOf a) ≠ .glob then .trap s (Cause.vaddr.info a)
  else if fldN a 0 6 ≠ 0 ∨ b = 0 ∨ fldN b 0 6 ≠ 0 ∨ !oneRegion (vaOf a) b.toNat then .trap s (Cause.range.info a b)
  else .ok s ()

/-- The check of the owner operand and the inbox reservation of GRANT and REVOKE (R211 items 3 and 4). -/
def State.checkOwner (s : State) (d : Word) : Res Unit :=
  if fldN d 16 48 ≠ 0 ∨ d = 0 ∨ d.toNat = s.ownerOf s.cur.1 then .trap s (Cause.range.info 0 d)
  else if s.cpu.inboxCount s.cur.2 ≥ 4 then .trap s Cause.inboxq.info
  else .ok s ()

/-- A request tag that no pending request of the thread carries (R214): the context's tags count from 1 (R324), and those that stand in
a reservation of the slot are passed over. -/
def State.freshTag (s : State) : State × Nat :=
  let o := s.ownerOf s.cur.1
  let k := s.ctx o
  let pending := (s.cpu.resv.filter (fun r => r.1 == s.cur.2)).map (·.2)
  let n := (((List.range 5).map (k.tagSeq + 1 + ·)).find? (fun n => !pending.contains (n % 65536))).getD (k.tagSeq + 1)
  (s.setCtx o { k with tagSeq := n }, n % 65536)

/-- An inbox reservation of the current thread's slot (R173). -/
def State.reserve (s : State) (tag : Nat) : State :=
  s.setCpu { s.cpu with resv := s.cpu.resv ++ [(s.cur.2, tag)] }

/-- A request of the current thread to the security core. -/
def State.request (s : State) (kind : SecKind) (a b : Word) (tag : Nat) : State :=
  let q : SecReq := {
    kind, core := s.cur.1, slot := s.cur.2, owner := s.ownerOf s.cur.1
    base := vaOf a / 64, lines := b.toNat / 64, age := ageOf a, ptr := a, tag }
  { s with hub := { s.hub with secQ := s.hub.secQ ++ [q] } }

/-- GRANT and REVOKE at issue: the checks, the tag, the reservation and the request (R211, R214, R215). -/
def State.ask (s : State) (d a b : Reg) (kind : Nat → SecKind) : Out :=
  ((s.checkRange (s.g a) (s.g b)).bind fun s _ =>
    (s.checkOwner (s.g d)).bind fun s _ =>
      let (s', tag) := s.freshTag
      .ok (((s'.reserve tag).request (kind (s.g d).toNat) (s.g a) (s.g b) tag).setG d (BitVec.ofNat 64 tag)) ()).out s

/-- GRANT (R214). -/
def execGrant (d a b : Reg) (rights : BitVec 4) (s : State) : Out := s.ask d a b (fun o => .grant o rights)
/-- REVOKE (R215). -/
def execRevoke (d a b : Reg) (s : State) : Out := s.ask d a b (fun o => .revoke o)
/-- FREE (R217): the request is sent and the thread waits; FREE_RESULT writes its registers. -/
def execFree (d a b : Reg) (s : State) : Out :=
  ((s.checkRange (s.g a) (s.g b)).bind fun s _ =>
    let id := s.hub.frees
    let s := { s with hub := { s.hub with frees := id + 1 } }.request (.free d) (s.g a) (s.g b) id
    .ok (s.setTh { s.th with wait := .free d id }) ()).out s

/-- The result of RPROBE for an entry (R218). -/
def probeWord (e : REntry) (p : Word) : Word :=
  let run := Nat.min (e.base + e.len - vaOf p / 64) (2 ^ 24 - 1)
  let match_ := e.age == ageOf p && !e.dm
  BitVec.ofNat 64 (run <<< 32 + e.age.toNat <<< 16 + (if match_ then 512 else 0) + 256 + e.rights.toNat)

/-- RPROBE (R218). -/
def execRprobe (d a : Reg) (s : State) : Out :=
  let p := s.g a
  match regionOf (vaOf p) with
  | .reserved => .next (s.raise Cause.vaddr.info)
  | .spad => .next (s.setG d 0x303)
  | .dev => .next (s.setG d (if s.th.sLevel then 0x303 else 0))
  | .glob =>
    match s.rightsOf s.cur.1 (s.ownerOf s.cur.1) (vaOf p) with
    | (s, some e) => .next (s.setG d (probeWord e p))
    | (s, none) => .next (s.setG d 0)

/-! ### GRANT performed (R214, R314, R315) -/

/-- A request's entry is posted into its reservation (R173). -/
def State.postReq (s : State) (q : SecReq) (kind status value : Nat) : State :=
  s.setCore q.core ((s.core q.core).post q.slot q.tag (entryWord q.tag kind status q.slot) (BitVec.ofNat 64 value))

/-- The issuer's entries over a range. -/
def State.overRange (s : State) (o b n : Nat) : List REntry := (s.table o).filter (fun e => e.meets b n)

/-- Every line of a range has an entry of the list. -/
def coversAll (l : List REntry) (b n : Nat) : Bool := (l.map (fun e => e.overlap b n)).foldl (· + ·) 0 == n

/-- The status of a GRANT (R214). -/
def State.grantStatus (s : State) (q : SecReq) (target : Nat) (rights : BitVec 4) : Nat :=
  let es := s.overRange q.owner q.base q.lines
  let t := s.table target
  if !coversAll es q.base q.lines || es.any (fun e => !bitAt e.rights 3 || rights &&& ~~~e.rights != 0) then 2
  else if es.any (fun e => e.age != q.age || e.dm) then 3
  else if !(s.owners.contains target) || (s.ctx target).save == .gone || t.any (fun e => e.meets q.base q.lines)
      || decide (t.length + es.length > (s.ctx target).cap) then 6
  else 0

/-- The derived entries of a GRANT are installed, one per entry of the issuer (R314). -/
def State.install (s : State) (q : SecReq) (target : Nat) (rights : BitVec 4) : State :=
  (s.overRange q.owner q.base q.lines).foldl (fun s e =>
    let p := e.within q.base q.lines
    let x : REntry := {
      base := p.base, len := p.len, age := q.age, rights, gid := s.hub.nextGid, pgid := e.gid, pown := q.owner }
    { s with hub := { s.hub with nextGid := s.hub.nextGid + 1 } }.setTable target (tableInsert x (s.table target))) s

/-- GRANT_PERFORMED (R214). -/
def execGrantPerformed (s : State) : Out :=
  match s.hub.secQ with
  | q :: rest =>
    match q.kind with
    | .grant target rights =>
      let s := { s with hub := { s.hub with secQ := rest } }
      let st := s.grantStatus q target rights
      if st = 0 then .next ((s.install q target rights).postReq q 4 0 q.lines) else .next (s.postReq q 4 st 0)
    | _ => .next s
  | [] => .next s

/-! ### Removal with its cascade (R215, R315) -/

/-- What a removal has done: the device, the ranges removed with the GID they were removed from, the owners and the lines. -/
structure Removal where
  s : State
  work : List (Nat × Nat × Nat) := []
  owners : List Nat := []
  lines : Nat := 0
  lo : Nat := 2 ^ 60
  hi : Nat := 0

/-- An owner's chosen entries lose their part in a range; a split that the table has no slot for removes the whole entry (R315). -/
def Removal.cutOwner (r : Removal) (o b n : Nat) (choose : REntry → Bool) : Removal :=
  ((r.s.table o).filter (fun e => choose e && e.meets b n)).foldl (fun r e =>
    let t := (r.s.table o).filter (· != e)
    let parts := e.outside b n
    let whole := decide (t.length + parts.length > (r.s.ctx o).cap)
    let gone := if whole then e else e.within b n
    let keep := if whole then [] else parts
    { s := r.s.setTable o (keep.foldl (fun t x => tableInsert x t) t)
      work := (e.gid, gone.base, gone.len) :: r.work
      owners := insertNat o r.owners
      lines := r.lines + gone.len
      lo := Nat.min r.lo gone.base
      hi := Nat.max r.hi (gone.base + gone.len) }) r

/-- The cascade: every entry derived from a removed one, in any table (R215); at most n links. -/
def Removal.cascade (r : Removal) : Nat → Removal
  | 0 => r
  | fuel + 1 =>
    match r.work with
    | [] => r
    | (gid, b, n) :: rest =>
      (r.s.owners.foldl (fun (r : Removal) o => r.cutOwner o b n (fun e => e.pgid == gid)) { r with work := rest }).cascade fuel

/-- The entries of all tables: a bound on the links of a cascade, splits included. -/
def State.entryCount (s : State) : Nat := (s.ctxs.map (fun e => e.2.rights.length)).foldl (· + ·) 0

/-- The removals of a REVOKE by an owner in a target's table (R215): of the entries that derive from an entry of the issuer itself, with
what derives from them. One that a third owner granted the target, from what the issuer had granted it, is not among them (DESIGN
CHOICE, log 53: R215 does not say whether "derives from" passes through another owner). -/
def State.removeDerived (s : State) (o target b n : Nat) : Removal :=
  (({ s := s } : Removal).cutOwner target b n (fun e => e.pgid != 0 && e.pown == o)).cascade (4 * s.entryCount + 4)

/-- The removal of an owner's root entry by GID (R408). -/
def State.removeRootEntry (s : State) (o gid : Nat) : Removal :=
  (({ s := s } : Removal).cutOwner o 0 (2 ^ 50) (fun e => e.pgid == 0 && e.gid == gid)).cascade (4 * s.entryCount + 4)

/-! ### FREE (R217, R320) -/

/-- The grant ids of what derives, through the links of R314, from entries with given ids; at most n links. -/
def State.descend (s : State) : Nat → List Nat → List Nat
  | 0, g => g
  | n + 1, g =>
    let more := s.ctxs.flatMap (fun e => (e.2.rights.filter (fun x => x.pgid != 0 && g.contains x.pgid && !g.contains x.gid)).map
      (·.gid))
    if more.isEmpty then g else State.descend s n (g ++ more)

/-- The issuer's root entries over a range. -/
def State.roots (s : State) (o b n : Nat) : List REntry := (s.overRange o b n).filter (fun e => e.pgid == 0)

/-- The ids that derive from the root entries of a range, theirs included. -/
def State.chain (s : State) (o b n : Nat) : List Nat := s.descend (s.entryCount + 1) ((s.roots o b n).map (·.gid))

/-- A table with the entries of given ids split at a range's ends. -/
def splitTable (ids : List Nat) (b n : Nat) (t : List REntry) : List REntry :=
  t.flatMap (fun e => if ids.contains e.gid then e.splitAt b n else [e])

/-- The status of a FREE (R217). -/
def State.freeStatus (s : State) (q : SecReq) : Nat :=
  let rs := s.roots q.owner q.base q.lines
  let new := q.age + 1
  let ids := s.chain q.owner q.base q.lines
  if !coversAll rs q.base q.lines then 2
  else if rs.any (fun e => e.age != q.age) then 3
  else if s.ctxs.any (fun k => k.2.rights.any (fun e =>
      e.pgid != 0 && e.meets q.base q.lines && e.age == new)) then 6
  else if s.ctxs.any (fun k => decide ((splitTable ids q.base q.lines k.2.rights).length > k.2.cap)) then 6
  else 0

/-- The tables after a FREE (R217, R320 item 1): splits, the new root age, DM in every derived entry of another age. -/
def State.freeTables (s : State) (q : SecReq) : State :=
  let ids := s.chain q.owner q.base q.lines
  let new := q.age + 1
  { s with ctxs := s.ctxs.mapV (fun o k =>
      { k with rights := (splitTable ids q.base q.lines k.rights).map (fun e =>
          if !(ids.contains e.gid && e.meets q.base q.lines) then e
          else if o == q.owner && e.pgid == 0 then { e with age := new }
          else if e.age != new then { e with dm := true } else e) }) }

/-- The owners that hold an entry of given ids over a range. -/
def State.holders (s : State) (ids : List Nat) (b n : Nat) : List Nat :=
  (s.ctxs.filter (fun k => k.2.rights.any (fun e => ids.contains e.gid && e.meets b n))).map (·.1)

/-! ### The cut (R320) -/

/-- The cores that a purge is sent to: those of contexts of the owners that are not pre-empted (R320); a context that is being destroyed
still has its cores (R367). -/
def State.cutCores (s : State) (owners : List Nat) : List Nat :=
  (s.cores.filter (fun e => owners.contains e.2.owner.toNat && (s.ctx e.2.owner.toNat).save != .saved)).map (·.1)

/-- A cut begins (R320 items 2 and 3): the cluster PLBs lose their entries, the cores' cuts are outstanding. -/
def State.beginCut (s : State) (q : SecReq) (owners : List Nat) (b n value status : Nat) : State :=
  let s := { s with clusters := s.clusters.mapV (fun _ k => { k with plb := purge owners b n k.plb }) }
  let c : Cut := {
    req := q, owners, base := b, lines := n, toCut := s.cutCores owners, toAck := [], value, status := BitVec.ofNat 8 status }
  { s with hub := { s.hub with cuts := s.hub.cuts ++ [c] } }

/-- A response of Cordwain to a function: the command completes with a status and response bytes (R392, R409). -/
def State.complete (s : State) (fn status : Nat) (resp : List Byte) : State :=
  let f := s.fnc fn
  (s.setFn fn { f with
    busy := false
    stSeq := f.cmdSeq
    stStatus := BitVec.ofNat 8 status
    resp := if status = 0 ∨ status = 11 then Mem.setBytes [] 0 resp else [] }).msix fn 0

/-- The cores of an owner are scrubbed and belong to no context (R353, R367 item 5); so are the barriers of its clusters. -/
def State.scrub (s : State) (o : Nat) : State :=
  let k := s.ctx o
  { s with
    cores := s.cores.mapV (fun _ c => if c.owner.toNat = o then { born := c.born, rate := c.rate } else c)
    clusters := s.clusters.mapV (fun i c => if k.tab.any (fun e => e.2 == i) then { c with bars := [] } else c) }

/-- A key slot's key is erased, and its frames take key slot 0, rewritten with zeros (R367 item 4, R369). -/
def State.unkeyFrames (s : State) (slot : Nat) : State :=
  let gone := (s.hub.fkt.filter (fun e => e.2.kslot == slot && slot != 0)).map (·.1)
  let s := s.zeroFrames gone
  { s with hub := { s.hub with
      fkt := s.hub.fkt.filter (fun e => !gone.contains e.1)
      slotKeys := if slot = 0 then s.hub.slotKeys else s.hub.slotKeys.del slot } }

/-- The version-table entries of an owner are free; their counters stand (R350, R367 item 4, R372). -/
def State.freeEntries (s : State) (o : Nat) : State :=
  { s with hub := { s.hub with vtab := s.hub.vtab.mapV (fun _ v =>
      if v.owner = o ∧ v.kind ≠ 3 then { v with kind := 0, owner := 0, frames := [] } else v) } }

/-- The last steps of a destruction (R367 items 4 and 5), once the cut over its entries has ended. A device write for the owner that still
waits for its page is not made (log 57). -/
def State.endDestroy (s : State) (o : Nat) : State :=
  let s := ((s.unkeyFrames (s.ctx o).keySlot).freeEntries o).scrub o
  let s := { s with hub := { s.hub with devQ := s.hub.devQ.filter (fun w => w.owner != o) } }
  { s with ctxs := s.ctxs.del o }

/-- A cut that has ended answers whom it serves: a root entry's removal the host (R408), a destruction by its last steps and the
host (R367). -/
def State.settleCut (s : State) (c : Cut) : State :=
  let s' := { s with hub := { s.hub with cuts := s.hub.cuts.filter (· != c) } }
  match c.req.kind with
  | .removeRoot _ answer => match answer with
    | some fn => s'.complete fn 0 (leBytes 8 c.value)
    | none => s'
  | .destroy answer => match answer with
    | some fn => (s'.endDestroy c.req.owner).complete fn 0 []
    | none => s'.endDestroy c.req.owner
  | _ => s

/-- Cuts that serve Cordwain are settled once every core has acknowledged (R367, R408). -/
def State.settleRootCuts (s : State) : State :=
  s.hub.cuts.foldl (fun s c => if c.toCut.isEmpty && c.toAck.isEmpty then s.settleCut c else s) s

/-- REVOCATION_CUT (R320): the security core changes the tables for the request at its head and sends the purges. A FREE that is
refused makes no cut (R217). The cut of a REVOKE is over its range, and over the lines of an entry that it removed whole (R315). -/
def execRevocationCut (s : State) : Out :=
  match s.hub.secQ with
  | q :: rest =>
    let s0 := { s with hub := { s.hub with secQ := rest } }
    match q.kind with
    | .revoke target =>
      let r := s0.removeDerived q.owner target q.base q.lines
      let lo := Nat.min q.base r.lo
      .next (r.s.beginCut q r.owners lo (Nat.max (q.base + q.lines) r.hi - lo) r.lines 0)
    | .removeRoot gid _ =>
      let r := s0.removeRootEntry q.owner gid
      .next (r.s.beginCut q r.owners r.lo (r.hi - r.lo) r.lines 0).settleRootCuts
    | .free _ =>
      if s0.freeStatus q ≠ 0 then .next s
      else
        let ids := s0.chain q.owner q.base q.lines
        let owners := insertNat q.owner (s0.holders ids q.base q.lines)
        .next ((s0.freeTables q).beginCut q owners q.base q.lines 0 0)
    | .grant _ _ | .destroy _ => .next s
  | [] => .next s

/-- CORE_CUT (R320 item 4): a core takes its cut of cut k. -/
def execCoreCut (s : State) : Out := .next (s.takeCut s.ev.c s.ev.k)

/-- Accesses of a core on a range that were recorded are not performed yet. -/
def Core.holds (k : Core) (b n : Nat) (recorded : List (Nat × Word)) : Bool := (k.held b n).any recorded.contains

/-- Accesses that a core had recorded at its cut are not performed yet (R320 items 4 and 5). -/
def Cut.waitsFor (x : Cut) (k : Core) (c : Nat) : Bool := k.holds x.base x.lines (Map.getD x.held c [])

/-- CUT_ACKNOWLEDGE (R320 item 5): a core acknowledges cut k once the accesses recorded at its cut are performed and its dirty bytes of
the range are written. -/
def execCutAcknowledge (s : State) : Out :=
  let c := s.ev.c
  match s.hub.cuts[s.ev.k]? with
  | some x =>
    if !x.toAck.contains c || x.waitsFor (s.core c) c then .next s
    else
      let s := (s.settleSeq c).writeBackRange c x.base x.lines
      if !s.rangeClean c x.base x.lines then .next s
      else
      let x' := { x with toAck := x.toAck.erase c }
      .next { s with hub := { s.hub with cuts := s.hub.cuts.set s.ev.k x' } }.settleRootCuts
  | none => .next s

/-- Every core of a cut has acknowledged. -/
def Cut.done (x : Cut) : Bool := x.toCut.isEmpty && x.toAck.isEmpty

/-- The device without cut k. -/
def State.dropCut (s : State) (k : Nat) : State := { s with hub := { s.hub with cuts := s.hub.cuts.eraseIdx k } }

/-- REVOKE_DONE (R215). -/
def execRevokeDone (s : State) : Out :=
  match s.hub.cuts[s.ev.k]? with
  | some x =>
    match x.req.kind with
    | .revoke _ => if x.done then .next ((s.dropCut s.ev.k).postReq x.req 5 0 x.value) else .next s
    | _ => .next s
  | none => .next s

/-- The registers of a FREE are written and its thread goes on (R217, R339); one that returns OK acquires what was accessed under the
old age before the cut, as a DEQ of a REVOKE's entry does (R216, R217). -/
def State.endFree (s : State) (q : SecReq) (d : Reg) (st : Nat) : State :=
  let t := s.thread q.core q.slot
  let p := if st = 0 then setFld q.ptr 56 8 (q.age + 1).toNat else q.ptr
  match t.wait with
  | .free _ id =>
    if id = q.tag ∧ t.live then
      let s := s.setThread q.core q.slot { ((t.setGr d p).setGr (regNext d) (BitVec.ofNat 64 st)) with wait := .none }
      (if st = 0 then s.acquire q.core .dev else s).progress q.owner
    else s
  | _ => s

/-- FREE_RESULT (R217): of the refused request at the security core's head, or of cut k once every core has acknowledged. -/
def execFreeResult (s : State) : Out :=
  let refused : Option (SecReq × Reg) := match s.hub.secQ with
    | q :: _ => match q.kind with
      | .free d => if s.freeStatus q = 0 then none else some (q, d)
      | _ => none
    | [] => none
  match refused with
  | some (q, d) =>
    let st := s.freeStatus q
    .next ({ s with hub := { s.hub with secQ := s.hub.secQ.drop 1 } }.endFree q d st)
  | none =>
    match s.hub.cuts[s.ev.k]? with
    | some x =>
      match x.req.kind with
      | .free d => if x.done then .next ((s.dropCut s.ev.k).endFree x.req d 0) else .next s
      | _ => .next s
    | none => .next s

end Sys2Proof.Machine
end

