-- ==== Sys2Proof/Machine/Engine.lean ====
section
/-! DEFINITION. What the copy and matrix engines share: Shale blocks (spec/02_number_formats.md R44 to R46), checked lines and the
accesses through them (spec/06_memory_access.md R142; spec/11_copy_engine.md R246, R250; spec/12_matrix.md R257). -/

namespace Sys2Proof.Machine

/-! ### Shale (R44 to R46) -/

/-- The outcome of decoding a block from the bytes at hand: its elements and length, malformed, or more bytes are needed. -/
inductive Shale
  | ok (elems : List Nat) (bytes : Nat)
  | bad
  | need
  deriving DecidableEq, Repr

/-- The bits of a byte, most significant first. -/
def byteBits (b : Byte) : List Bool := (List.range 8).map (fun i => bitAt b (7 - i))

/-- The stream of R44: halfwords, little-endian, each from bit 15 down. -/
def shaleBits : List Byte → List Bool
  | lo :: hi :: t => byteBits hi ++ byteBits lo ++ shaleBits t
  | _ => []

/-- A number from bits, most significant first. -/
def bitsNat (l : List Bool) : Nat := l.foldl (fun a b => 2 * a + if b then 1 else 0) 0

/-- A code written as a string of 0 and 1. -/
def code (len x : Nat) : List Bool := (List.range len).map (fun i => bitAt (BitVec.ofNat 8 x) (len - 1 - i))

/-- The token tables of R45: each code with its d, or none for the escape. -/
def shaleTable : Nat → List (List Bool × Option Int)
  | 0 => [(code 1 0, some 0), (code 2 0b10, some 1), (code 3 0b110, some (-1)), (code 3 0b111, none)]
  | 1 => [(code 2 0b00, some 0), (code 2 0b01, some (-1)), (code 3 0b100, some 1), (code 3 0b101, none),
      (code 3 0b110, some (-2)), (code 4 0b1110, some 2), (code 4 0b1111, some (-3))]
  | 2 => [(code 1 0, some 0), (code 3 0b100, some 1), (code 3 0b101, some (-1)), (code 3 0b110, none),
      (code 5 0b11100, some 2), (code 5 0b11101, some (-2)), (code 6 0b111100, some 3), (code 6 0b111101, some (-3)),
      (code 6 0b111110, some 4), (code 6 0b111111, some (-4))]
  | _ => [(code 2 0b00, some 0), (code 2 0b01, some (-1)), (code 2 0b10, some (-2)), (code 3 0b110, none),
      (code 4 0b1110, some (-3)), (code 5 0b11110, some (-4)), (code 6 0b111110, some (-5)), (code 7 0b1111110, some (-6)),
      (code 7 0b1111111, some (-7))]

/-- The tokens of the elements left: exponents in order, and the bits that follow (R46). -/
def shaleTokens (b : Int) (table : List (List Bool × Option Int)) : Nat → List Bool → List Nat → Shale × List Nat × List Bool
  | 0, bits, acc => (.ok [] 0, acc.reverse, bits)
  | n + 1, bits, acc =>
    match table.find? (fun e => e.1.isPrefixOf bits) with
    | none => (.need, [], [])
    | some (c, d) =>
      let rest := bits.drop c.length
      match d with
      | some d =>
        let e := b + d
        if e < 0 ∨ e > 15 then (.bad, [], []) else shaleTokens b table n rest (e.toNat :: acc)
      | none =>
        if rest.length < 4 then (.need, [], [])
        else shaleTokens b table n (rest.drop 4) (bitsNat (rest.take 4) :: acc)

/-- The decoder of R46 on the bytes at hand, from the block's first. -/
def decodeShale (bs : List Byte) : Shale :=
  let bits := shaleBits bs
  if bits.length < 16 then .need
  else if bitsNat ((bits.drop 6).take 10) ≠ 0 then .bad
  else if bits.length < 144 then .need
  else
    let b : Int := bitsNat (bits.take 4)
    let sm (j : Nat) : Nat := bitsNat ((bits.drop (16 + 4 * j)).take 4)
    match shaleTokens b (shaleTable (bitsNat ((bits.drop 4).take 2))) 32 (bits.drop 144) [] with
    | (.ok _ _, es, rest) =>
      let used := bits.length - rest.length
      let pad := (16 - used % 16) % 16
      if rest.length < pad then .need
      else if (rest.take pad).any id then .bad
      else
        .ok ((List.range 32).map (fun j => sm j / 8 * 128 + es.getD j 0 * 8 + sm j % 8)) ((used + pad) / 8)
    | (r, _, _) => r

/-! ### Lines an engine accesses -/

/-- The target a number of bytes further on in its line. -/
def Target.plus (t : Target) (d : Nat) : Target :=
  match t with
  | .glob va pte spa => .glob (va + d) pte (spa + if pteMX pte then d / 2 else d)
  | .spad c off => .spad c (off + d)
  | .dev off => .dev (off + d)

/-- A checked target as its page stands now: a page that has moved is accessed where it is (R307). -/
def State.retarget (s : State) (t : Target) : Target :=
  match t with
  | .glob va pte spa =>
    match s.leafOf va with
    | some (_, e, lvl) => .glob va e (leafSpa e lvl va)
    | none => .glob va pte spa
  | t => t

/-- A function's request for a line of a target stays within its bandwidth limits, and counts (R404). -/
def State.lineBandwidth (s : State) (c : Nat) (t : Target) : Res Unit :=
  match t with
  | .glob _ _ spa =>
    let fn := (s.ctx (s.ownerOf c)).fn
    if s.bandwidthOk fn spa 64 then .ok (s.bandwidthUse fn spa 64) () else .wait s .bandwidth
  | _ => .ok s ()

/-- A request of an engine for a checked line may be made now: a line to be written is ready to be (R373, R406), and a read stays within
its function's limits, and counts (R404). -/
def State.lineReady (s : State) (c : Nat) (t : Target) (wr : Bool) : Res Unit :=
  if wr then
    match s.writeReady c t with
    | some w => .wait s w
    | none => .ok s ()
  else s.lineBandwidth c t

/-- The line of a pointer for an engine of a core, which comes to the head of the lines it has checked: the one at the head, where the
engine still is; one checked before, for which it makes a new request; or one that passes its check now (R142, R246). -/
def State.touch (s : State) (c : Nat) (lines : List (Word × Target)) (p : Word) (wr : Bool) :
    Res (List (Word × Target) × Target) :=
  let here (e : Word × Target) : Bool := e.1 == lineOf p
  match lines.head?.filter here, lines.find? here with
  | some e, _ => .ok s (lines, (s.retarget e.2).plus (inLine p))
  | none, some e =>
    (s.lineReady c (s.retarget e.2) wr).bind fun s _ => .ok s (e :: lines.filter (fun e => !here e), (s.retarget e.2).plus (inLine p))
  | none, none =>
    (s.check { c, owner := s.ownerOf c, sLevel := false, p := lineOf p, n := 1, rd := !wr, wr }).bind fun s t =>
      (s.lineReady c t wr).bind fun s _ => .ok s ((lineOf p, t) :: lines, t.plus (inLine p))

/-- Bytes within one line read by an engine of a core at their home, after the core's own dirty bytes of the line have reached it (R250);
and whether the line was poisoned. -/
def State.engRead (s : State) (c : Nat) (t : Target) (n : Nat) : Res (List Byte × Bool) :=
  match t with
  | .glob va pte spa =>
    if s.holeAt (s.ownerOf c) spa then .stop (.unpopulated spa)
    else
      let s := (s.settleSeq c).writeBackLine c (va / 64)
      if !s.lineClean c (va / 64) then .wait s .flush
      else
      match s.readHome (s.ownerOf c) (dieOf c) va pte spa n with
      | (s, bs, p) => .ok s (bs, p)
  | .spad c' off => .ok s (s.spadRead c' off n)
  | .dev off => .ok s (s.devBytes c off n, false)

/-- Bytes within one line written by an engine of a core. -/
def State.engWrite (s : State) (c : Nat) (t : Target) (bs : List Byte) : Res Unit := s.storeHome c t bs

end Sys2Proof.Machine
end

