-- ==== Sys2Proof/Machine/Flags.lean ====
section
/-! DEFINITION. The flags of an instruction's result: fflags, the seed and the FPX trap (spec/05_floating_point.md R120;
spec/02_number_formats.md R50, R51). -/

namespace Sys2Proof.Machine

/-- The FPX trap of the flags an instruction raised (R120). -/
def fpxInfo (flags : BitVec 6) : TrapInfo := Cause.fpx.info 0 (flags.setWidth 64)

/-- The flags an instruction raised are tested against fenable: FPX, precise, with nothing changed; otherwise they are ORed into
fflags and the seed is stored (R50, R120). -/
def State.commitFl (s : State) (l : Fl) : Res Unit :=
  let t := s.th
  if l.flags &&& t.fenable != 0 then .trap s (fpxInfo l.flags)
  else .ok (s.setTh { t with fflags := t.fflags ||| l.flags, srseed := l.seed }) ()

/-- A floating instruction's result: flags first, then the destination f register (R118, R120). -/
def State.finishF (s : State) (d : Reg) (r : Nat × Fl) : Out :=
  ((s.commitFl r.2).bind fun s _ => .ok (s.setF d (ofBits r.1)) ()).out s

/-- A floating instruction's result in a g register (R120). -/
def State.finishG (s : State) (d : Reg) (r : Word × Fl) : Out :=
  ((s.commitFl r.2).bind fun s _ => .ok (s.setG d r.1) ()).out s

end Sys2Proof.Machine
end

