-- ==== Sys2Proof/Machine/Mem.lean ====
section
/-! DEFINITION. Scalar MEM instructions: plain, ordered and atomic accesses, fences, prefetch and cache maintenance
(spec/06_memory_access.md R141 to R151, R155 to R163). -/

namespace Sys2Proof.Machine

/-! ### Plain loads and stores (R145) -/

/-- A plain load of n bytes into a general register (R145); the device register window admits LDW, LDWU and LDD (R144). -/
def State.loadG (s : State) (n : Nat) (signed devOk : Bool) (t b : Reg) (disp : BitVec 12) : Out :=
  ((s.readMem (s.effective b disp n) n devOk).bind fun s bs =>
    .ok (s.setG t (if signed then sext n bs else zext bs)) ()).out s

/-- A plain load of n bytes into a floating register, zero above (R145). -/
def State.loadF (s : State) (n : Nat) (t b : Reg) (disp : BitVec 12) : Out :=
  ((s.readMem (s.effective b disp n) n false).bind fun s bs => .ok (s.setF t (zext bs)) ()).out s

/-- A plain store of the low n bytes of a value (R145). -/
def State.storeW (s : State) (n : Nat) (x : Word) (b : Reg) (disp : BitVec 12) : Out :=
  (s.writeMem (s.effective b disp n) (leBytes n x.toNat)).out s

/-- LDB (R145). -/
def execLdb (t b : Reg) (disp : BitVec 12) (s : State) : Out := s.loadG 1 true false t b disp
/-- LDBU (R145). -/
def execLdbu (t b : Reg) (disp : BitVec 12) (s : State) : Out := s.loadG 1 false false t b disp
/-- LDH (R145). -/
def execLdh (t b : Reg) (disp : BitVec 12) (s : State) : Out := s.loadG 2 true false t b disp
/-- LDHU (R145). -/
def execLdhu (t b : Reg) (disp : BitVec 12) (s : State) : Out := s.loadG 2 false false t b disp
/-- LDW (R145). -/
def execLdw (t b : Reg) (disp : BitVec 12) (s : State) : Out := s.loadG 4 true true t b disp
/-- LDWU (R145). -/
def execLdwu (t b : Reg) (disp : BitVec 12) (s : State) : Out := s.loadG 4 false true t b disp
/-- LDD (R145). -/
def execLdd (t b : Reg) (disp : BitVec 12) (s : State) : Out := s.loadG 8 false true t b disp
/-- STB (R145). -/
def execStb (t b : Reg) (disp : BitVec 12) (s : State) : Out := s.storeW 1 (s.g t) b disp
/-- STH (R145). -/
def execSth (t b : Reg) (disp : BitVec 12) (s : State) : Out := s.storeW 2 (s.g t) b disp
/-- STW (R145). -/
def execStw (t b : Reg) (disp : BitVec 12) (s : State) : Out := s.storeW 4 (s.g t) b disp
/-- STD (R145). -/
def execStd (t b : Reg) (disp : BitVec 12) (s : State) : Out := s.storeW 8 (s.g t) b disp
/-- FLDW (R145). -/
def execFldw (t b : Reg) (disp : BitVec 12) (s : State) : Out := s.loadF 4 t b disp
/-- FLDD (R145). -/
def execFldd (t b : Reg) (disp : BitVec 12) (s : State) : Out := s.loadF 8 t b disp
/-- FSTW (R145). -/
def execFstw (t b : Reg) (disp : BitVec 12) (s : State) : Out := s.storeW 4 (s.f t) b disp
/-- FSTD (R145). -/
def execFstd (t b : Reg) (disp : BitVec 12) (s : State) : Out := s.storeW 8 (s.f t) b disp

/-! ### Prefetch (R146) -/

/-- The line of a pointer that a prefetch brings in, with its leaf and storage address, unless the prefetch is dropped (R146): no
translation, no rights or a stale age drop it. The walk for it leaves A and D as they are; a rights-table line that fails raises its alarm
(R316). -/
def State.prefetched (s : State) (p : Word) (wr : Bool) : State × Option (Nat × Word × Nat) :=
  let va := vaOf p
  if regionOf va ≠ .glob then (s, none)
  else
    match s.leafOf va with
    | none => (s, none)
    | some x =>
      match s.tableEntry (s.ownerOf s.cur.1) (va / 64) with
      | (s, r) =>
        match rightsCheck r p (!wr) wr false with
        | some _ => (s, none)
        | none => (s, some (va / 64 * 64, x.2.1, leafSpa x.2.1 x.2.2 (va / 64 * 64)))

/-- A line brought into the core's L1 (R146). A poisoned line or a withheld request drops the prefetch; so does an alias page, which
no L1 holds and a read of which could count in aliasSat (log 7). -/
def State.prefetch (s : State) (p : Word) (wr : Bool) : State :=
  match s.prefetched p wr with
  | (s, none) => s
  | (s, some (va, e, spa)) =>
    if pteMX e then s
    else
      match s.loadGlob s.cur.1 va e spa 1 with
      | .ok s' (_, false) => s'
      | .ok r (_, true) | .wait r _ => s.keepRecords r
      | _ => s

/-- A line brought into its home die cache (R146, R298). -/
def State.prefetchDie (s : State) (p : Word) : State :=
  match s.prefetched p false with
  | (s, none) => s
  | (s, some (_, _, spa)) => s.noteRead (s.ownerOf s.cur.1) (s.redirect spa)

/-- PREF (R146). -/
def execPref (h : Hint) (b : Reg) (disp : BitVec 12) (s : State) : Out :=
  match h with
  | .rd => .next (s.prefetch (s.effective b disp 64) false)
  | .wr => .next (s.prefetch (s.effective b disp 64) true)
  | .dc => .next (s.prefetchDie (s.effective b disp 64))

/-! ### Ordered loads and stores (R148, R160, R162) -/

/-- Bytes of an ordered or atomic access (R148, R149). -/
def accessBytes : Width → Nat
  | .w32 => 4
  | .w64 => 8

/-- The SC fence that stands before an SC access (R162). -/
def State.scBefore (s : State) (o : Ord) (sc : Scope) : Res Unit :=
  if o = .sc then (s.release s.cur.1 sc).bind fun s _ => .ok (s.acquire s.cur.1 sc) () else .ok s ()

/-- LDAQ (R148). -/
def execLdaq (w : Width) (o : Ord) (sc : Scope) (t a : Reg) (s : State) : Out :=
  let n := accessBytes w
  ((s.scBefore o sc).bind fun s _ =>
    (s.readMem (s.g a) n true).bind fun s bs =>
      .ok ((s.acqPart o sc).setG t (sext n bs)) ()).out s

/-- The home of a target can be reached by a core's accesses (R401). -/
def State.targetUp (s : State) (c : Nat) (t : Target) : Bool :=
  match t with
  | .glob _ _ spa => !s.lost (s.ownerOf c) spa
  | _ => true

/-- STRL (R148): a release writes the core's dirty bytes first; beyond core scope the store itself is performed at its home. -/
def execStrl (w : Width) (o : Ord) (sc : Scope) (t a : Reg) (s : State) : Out :=
  let n := accessBytes w
  let bs := leBytes n (s.g t).toNat
  ((s.checkWrite (s.g a) n).bind fun s tgt =>
    (s.relPart o sc).bind fun s _ =>
      let done := if ordRel o && sc != .core && s.targetUp s.cur.1 tgt then
          (s.noteTarget s.cur.1 s.cur.2 tgt n).storeHome s.cur.1 tgt bs
        else s.store s.cur.1 s.cur.2 tgt bs (s.g a) s.th.pc
      done.bind fun s _ => .ok (if o = .sc then s.acquire s.cur.1 sc else s) ()).out s

/-! ### Atomics (R149) -/

/-- An AMO is an off-core reference (R334) unless it is performed in the core's own scratchpad. -/
def State.amoOff (s : State) (t : Target) : Bool :=
  match t with
  | .spad c _ => c != s.cur.1
  | _ => true

/-- An AMO (R149): f gives the new value from old, b and t; host says that host memory admits it (R144); up to flags, which only
AMOFADD raises. An access to a peer that cannot be reached is not performed, reports a deferred POISON (R401) and leaves a free
value in t (log 14). -/
def State.amo (s : State) (w : Width) (o : Ord) (sc : Scope) (t b a : Reg) (host : Bool) (signed : Bool)
    (f : Nat → Nat → Nat → Option Nat) (flags : Nat → Nat → BitVec 6) : Out :=
  let n := accessBytes w
  let m := 2 ^ (8 * n)
  let p := s.g a
  let x := (s.g b).toNat % m
  let y := (s.g t).toNat % m
  let q := { s.req p n true true with amo := some host }
  ((s.check q).bind fun s tgt =>
    match s.writeReady s.cur.1 tgt with
    | some wt => .wait s wt
    | none => (s.relPart o sc).bind fun s _ =>
      if !s.targetUp s.cur.1 tgt then
        let s := s.report s.cur.1 s.cur.2 (Cause.poison.info p s.th.pc)
        let s := ({ s with free := s.free + 1 }.setG t (Config.lostValue s.free))
        .ok (s.acqPart o sc) ()
      else
        (((s.noteRef (s.amoOff tgt)).noteTarget s.cur.1 s.cur.2 tgt n).rmw s.cur.1 tgt n
            (fun old => f old x y)).bind fun s r =>
          if r.2 then .trap s (q.info .poison)
          else
            let old := leBytes n r.1
            let s := s.setG t (if signed then sext n old else zext old)
            let s := s.setTh { s.th with fflags := s.th.fflags ||| flags r.1 x }
            .ok (s.acqPart o sc) ()).out s

/-- An integer AMO that always writes. -/
def State.amoInt (s : State) (w : Width) (o : Ord) (sc : Scope) (t b a : Reg) (host : Bool) (f : Nat → Nat → Nat) : Out :=
  s.amo w o sc t b a host true (fun old x _ => some (f old x % 2 ^ (8 * accessBytes w))) (fun _ _ => 0)

/-- A value of an access read as signed. -/
def signedOf (w : Width) (x : Nat) : Int := (BitVec.ofNat (8 * accessBytes w) x).toInt

/-- AMOADD (R149). -/
def execAmoadd (w : Width) (o : Ord) (sc : Scope) (t b a : Reg) (s : State) : Out :=
  s.amoInt w o sc t b a true (· + ·)
/-- AMOAND (R149). -/
def execAmoand (w : Width) (o : Ord) (sc : Scope) (t b a : Reg) (s : State) : Out :=
  s.amoInt w o sc t b a false (· &&& ·)
/-- AMOOR (R149). -/
def execAmoor (w : Width) (o : Ord) (sc : Scope) (t b a : Reg) (s : State) : Out :=
  s.amoInt w o sc t b a false (· ||| ·)
/-- AMOXOR (R149). -/
def execAmoxor (w : Width) (o : Ord) (sc : Scope) (t b a : Reg) (s : State) : Out :=
  s.amoInt w o sc t b a false (· ^^^ ·)
/-- AMOMIN (R149). -/
def execAmomin (w : Width) (o : Ord) (sc : Scope) (t b a : Reg) (s : State) : Out :=
  s.amoInt w o sc t b a false (fun x y => if signedOf w x < signedOf w y then x else y)
/-- AMOMAX (R149). -/
def execAmomax (w : Width) (o : Ord) (sc : Scope) (t b a : Reg) (s : State) : Out :=
  s.amoInt w o sc t b a false (fun x y => if signedOf w x < signedOf w y then y else x)
/-- AMOMINU (R149). -/
def execAmominu (w : Width) (o : Ord) (sc : Scope) (t b a : Reg) (s : State) : Out :=
  s.amoInt w o sc t b a false (fun x y => if x < y then x else y)
/-- AMOMAXU (R149). -/
def execAmomaxu (w : Width) (o : Ord) (sc : Scope) (t b a : Reg) (s : State) : Out :=
  s.amoInt w o sc t b a false (fun x y => if x < y then y else x)
/-- AMOSWP (R149). -/
def execAmoswp (w : Width) (o : Ord) (sc : Scope) (t b a : Reg) (s : State) : Out :=
  s.amoInt w o sc t b a true (fun _ y => y)
/-- AMOCAS (R149): writes b if the old value is the expected one in t. -/
def execAmocas (w : Width) (o : Ord) (sc : Scope) (t b a : Reg) (s : State) : Out :=
  s.amo w o sc t b a true true (fun old x y => if old = y then some x else none) (fun _ _ => 0)
/-- AMOFADD (R149): a sum under RNE; its flags join fflags and never trap; the old value is zero-extended. -/
def execAmofadd (w : Width) (o : Ord) (sc : Scope) (t b a : Reg) (s : State) : Out :=
  let F := widthFmt w
  let sum (x y : Nat) : Nat × Fl := roundPre F .rne (preAdd .rne (F.val x) (F.val y)) {}
  s.amo w o sc t b a false false (fun old x _ => some (sum old x).1) (fun old x => (sum old x).2.flags)

/-! ### Fences and cache maintenance (R150, R151) -/

/-- FENCE (R150, R157). -/
def execFence (o : Ord) (sc : Scope) (s : State) : Out :=
  ((s.relPart o sc).bind fun s _ => .ok (s.acqPart o sc) ()).out s

/-- The check of CFLUSH and CINV (R151): a read of size 1; W rights alone are accepted too. -/
def State.checkLine (s : State) (p : Word) : Res Unit :=
  match s.check { s.req p 1 true false with devOk := true } with
  | .ok s _ => .ok s ()
  | .trap s' i =>
    if i.cause = (Cause.rights.info).cause then
      match s'.rightsOf s.cur.1 (s.ownerOf s.cur.1) (vaOf p) with
      | (s, e) => if (rightsCheck e p false true false).isNone then .ok s () else .trap s i
    else .trap s' i
  | .wait s w => .wait s w
  | .stop f => .stop f

/-- The die-cache copy of the line that an address maps, with its scales for an alias page, is written back to its backing memory
(R151); a line of host memory or of a peer stands in no die cache (R298). -/
def State.dieFlush (s : State) (va : Nat) : State :=
  match s.leafOf va with
  | none => s
  | some (_, e, lvl) =>
    let spa := leafSpa e lvl va
    let s := s.dieWriteBack (s.redirect spa / 64)
    if pteMX e then s.dieWriteBack (s.mxScaleAt (spa / 32 * 32) / 64) else s

/-- CFLUSH and CINV on the line of a pointer: nothing in the scratchpad window and the device register window (R151). They complete
once the line's dirty bytes have reached memory; at system scope the die cache's copy is written back too. -/
def State.maintain (s : State) (sc : Scope) (a : Reg) (inv : Bool) : Out :=
  let p := s.g a
  let line := vaOf p / 64
  match regionOf (vaOf p) with
  | .spad | .dev => .next s
  | _ =>
    ((s.checkLine p).bind fun s _ =>
      let s := s.writeBackLine s.cur.1 line
      if !s.lineClean s.cur.1 line then .wait s .flush
      else
        let s := if sc = .sys then s.dieFlush (vaOf p) else s
        .ok (if inv then s.dropCleanLine s.cur.1 line else s) ()).out s

/-- CFLUSH (R151). -/
def execCflush (sc : Scope) (a : Reg) (s : State) : Out := s.maintain sc a false
/-- CINV (R151). -/
def execCinv (sc : Scope) (a : Reg) (s : State) : Out := s.maintain sc a true

end Sys2Proof.Machine
end

