-- ==== Sys2Proof/Machine/Copy.lean ====
section
/-! DEFINITION. The copy engine: the layout record, CPY, CPYS and CPYK, and the steps of a copy
(spec/11_copy_engine.md R241 to R248, R250). -/

namespace Sys2Proof.Machine

/-! ### The checks of a record (R243, R244) -/

/-- The reserved bits and values of a record (R242, R243), each with the bit number that R244 gives it and whether it offends. -/
def Layout.checks (r : Layout) : List (Nat × Bool) :=
  let bits (lo n : Nat) : List (Nat × Bool) := (List.range n).map (fun i => (lo + i, bitAt r (lo + i)))
  let shale := r.sf == .e4m3sh
  let odd (x : Int) (half : Nat) : Bool := decide (half ≥ 2) && x % (half / 2) != 0
  let src (x : Int) : Bool := odd x r.ssz || (shale && x % 2 != 0)
  let dst (x : Int) : Bool := odd x r.dsz
  let fillBits := if r.ssz = 1 then 8 else 4 * r.ssz
  [(128, shale && r.e 0 % 32 != 0), (192, src (r.s 1))]
  ++ bits 232 24
  ++ [(256, src (r.s 2))]
  ++ bits 296 24
  ++ [(320, src (r.s 3))]
  ++ bits 360 24
  ++ [(384, shale && r.o 0 % 32 != 0),
    (448, (shale && r.n 0 % 32 != 0) || (r.dsz == 1 && r.n 0 % 2 != 0)),
    (512, dst r.d1), (544, dst r.d2), (580, r.df == .e4m3sh), (584, decide (r.rmCode ≥ 6)),
    (588, if r.im = 0 then r.gr != 0 else decide (r.gr < 3) || decide (r.gr > 10)), (592, r.im == 3)]
  ++ bits 594 46
  ++ bits (640 + fillBits) (64 - fillBits)
  ++ [(704, !r.inc && r.cnt != 0)]
  ++ bits 710 2
  ++ bits 714 38

/-- The lowest offending bit number (R244 step 1). -/
def Layout.badBit (r : Layout) : Option Nat := (r.checks.find? (·.2)).map (·.1)

/-! ### The bytes a copy could touch (R244 steps 4 and 5) -/

/-- The last index of a dimension that lies in the window and within the extents, if one does. -/
def Layout.lastIn (r : Layout) (k : Nat) : Option Nat :=
  let hi := Nat.min (r.e k) (r.o k + r.n k)
  if r.o k < hi then some (hi - 1) else none

/-- Least and greatest of c × x for x from a to b. -/
def rangeOf (a b : Nat) (c : Int) : Int × Int :=
  if c < 0 then (b * c, a * c) else (a * c, b * c)

/-- The lowest and highest byte, from SRC, that the copy could touch in its source. -/
def Layout.srcSpan (r : Layout) : Option (Int × Int) :=
  match r.lastIn 0, r.lastIn 1, r.lastIn 2, r.lastIn 3 with
  | some h0, some h1, some h2, some h3 =>
    let a := rangeOf (r.o 1) h1 (r.s 1)
    let b := rangeOf (r.o 2) h2 (r.s 2)
    let c := rangeOf (r.o 3) h3 (r.s 3)
    let row : Int × Int :=
      if r.sf = .e4m3sh then (0, 46 * (h0 / 32 + 1) - 1)
      else (r.o 0 * r.ssz / 2, (h0 * r.ssz + r.ssz - 1) / 2)
    some (a.1 + b.1 + c.1 + row.1, a.2 + b.2 + c.2 + row.2)
  | _, _, _, _ => none

/-- The lowest and highest byte from DST under the strides, without the XOR swizzle. -/
def Layout.dstLinear (r : Layout) : Int × Int :=
  let a := rangeOf 0 (r.n 1 - 1) (r.d1 + if r.im = 2 then 2 ^ r.gr else 0)
  let b := rangeOf 0 (r.n 2 - 1) r.d2
  let c := rangeOf 0 (r.n 3 - 1) (r.d2 * r.n 2)
  (a.1 + b.1 + c.1, a.2 + b.2 + c.2 + ((r.n 0 * r.dsz : Nat) - 1) / 2)

/-- Every destination byte lies within bounds. Where the XOR swizzle is used, the bytes stay within the aligned blocks of
2 ^ (GR + 5) bytes that the strides reach; where those leave the bounds, the elements decide. -/
def Layout.dstIn (r : Layout) (lo hi : Int) : Bool :=
  if r.total = 0 then true
  else
    let (a, b) := r.dstLinear
    if r.im = 1 then
      let k : Int := 2 ^ (r.gr + 5)
      let last : Int := (r.dsz + 1) / 2 - 1
      (decide (lo ≤ a - a % k) && decide (b - b % k + k - 1 ≤ hi))
      || (List.range (r.n 3)).all fun j3 => (List.range (r.n 2)).all fun j2 => (List.range (r.n 1)).all fun j1 =>
          (List.range (r.n 0)).all fun j0 =>
            let x := r.dstOff j0 j1 j2 j3
            decide (lo ≤ x) && decide (x + last ≤ hi)
    else decide (lo ≤ a) && decide (b ≤ hi)

/-- Every source byte lies within bounds. -/
def Layout.srcIn (r : Layout) (lo hi : Int) : Bool :=
  match r.srcSpan with
  | none => true
  | some (a, b) => decide (lo ≤ a) && decide (b ≤ hi)

/-- A test of the bytes that a copy could touch through one of its pointers, given bounds relative to it. -/
def Layout.bytesIn (r : Layout) (dst : Bool) (lo hi : Int) : Bool := if dst then r.dstIn lo hi else r.srcIn lo hi

/-- A pointer of the record. -/
def Layout.ptr (r : Layout) (dst : Bool) : Word := if dst then r.dst else r.src

/-- The alignment of a pointer of the record (R244 step 3). -/
def Layout.align (r : Layout) (dst : Bool) : Nat :=
  if dst then (if r.dsz = 1 then 1 else r.dsz / 2)
  else if r.sf = .e4m3sh then 2
  else if r.ssz = 1 then 1
  else r.ssz / 2

/-! ### CPY (R244) -/

/-- A pointer of the record fails a step of R244's checks 2 to 5. -/
def State.copyFails (s : State) (c : Nat) (r : Layout) (step : Nat) (dst : Bool) : Bool :=
  let p := r.ptr dst
  let va := vaOf p
  let rg := regionOf va
  match step with
  | 2 => rg == .reserved || rg == .dev
  | 3 => va % r.align dst != 0
  | 4 => rg == .spad && (match s.spadTarget c p with
    | none => true
    | some (_, off) => !r.bytesIn dst (-off) (Config.spadBytes - 1 - off))
  | _ => rg == .glob && !r.bytesIn dst (-(va % 2 ^ 52 : Nat)) (2 ^ 52 - 1 - (va % 2 ^ 52 : Nat))

/-- The cause of a step of R244's checks 2 to 5. -/
def copyCause : Nat → Cause
  | 2 => .vaddr
  | 3 => .align
  | 4 => .spaddr
  | _ => .vaddr

/-- The checks of CPY, in order (R244). -/
def State.checkCopy (s : State) (r : Layout) : Option TrapInfo :=
  match r.badBit with
  | some b => some (Cause.resfld.info 0 (BitVec.ofNat 64 b))
  | none =>
    let fails := [2, 3, 4, 5].findSome? (fun k =>
      if s.copyFails s.cur.1 r k false then some ((copyCause k).info r.src)
      else if s.copyFails s.cur.1 r k true then some ((copyCause k).info r.dst)
      else none)
    match fails with
    | some i => some i
    | none => if r.post && decide (s.cpu.inboxCount s.cur.2 ≥ 4) then some Cause.inboxq.info else none

/-- The handle of the core's next copy (R244). -/
def State.copyHandle (s : State) : Word :=
  BitVec.ofNat 64 (s.myCtx.logNo s.cur.1 % 4096 * 2 ^ 52 + s.cpu.copies % 2 ^ 52)

/-- CPY (R244): checked, given a handle and its first seed, and queued (R222). -/
def execCpy (d a : Reg) (s : State) : Out :=
  let words := (List.range 12).map (fun k => s.g (a + BitVec.ofNat 5 k))
  let r := Layout.ofWords words
  match s.checkCopy r with
  | some i => .next (s.raise i)
  | none =>
    if s.th.queue.length ≥ 2 then .next (s.waitOn .queueFull)
    else
      let rounds := if r.rm = .rsr ∧ r.sf ≠ r.df then r.total else 0
      let op : CopyOp := { pc := s.th.pc, words, count := s.cpu.copies, seed := s.th.srseed }
      let h := s.copyHandle
      let s := if r.post then s.reserve (op.count + 2 ^ 16) else s
      let s := s.setCpu { s.cpu with copies := op.count + 1 }
      let t := s.th
      .next (((s.setTh { t with srseed := lfsrN rounds t.srseed }).enqueue (.copy op)).setG d h)

/-! ### Status and killing (R248) -/

/-- Bytes done: whole destination bytes (R247). -/
def CopyOp.bytes (p : CopyOp) : Nat := p.next * p.layout.dsz / 2

/-- The code of a copy's state (R248). -/
def CopyState.code : CopyState → Nat
  | .queued => 1 | .running => 2 | .done => 3 | .killed => 4 | .failed => 5

/-- A status word (R248). -/
def copyWord (st : CopyState) (status : BitVec 8) (bytes : Nat) : Word :=
  BitVec.ofNat 64 (st.code * 2 ^ 56 + status.toNat * 2 ^ 48 + Nat.min bytes (2 ^ 48 - 1))

/-- The copies in a queue. -/
def copiesOf (q : List QOp) : List CopyOp :=
  q.filterMap (fun x => match x with
    | .copy p => some p
    | _ => none)

/-- The queued copy of a core by count. -/
def Core.queuedCopy (k : Core) (n : Nat) : Option CopyOp :=
  (k.threads.flatMap (fun t => copiesOf t.2.queue)).find? (fun p => p.count % 2 ^ 52 == n)

/-- The copy of a core in progress by count. -/
def Core.runningCopy (k : Core) (n : Nat) : Option CopyOp := (k.cps.map (·.2)).find? (fun p => p.count % 2 ^ 52 == n)

/-- The copy has not ended. -/
def Core.copyLive (k : Core) (n : Nat) : Bool := (k.queuedCopy n).isSome || (k.runningCopy n).isSome

/-- The status word of a copy of a core by count (R248). -/
def Core.copyStatus (k : Core) (n : Nat) : Word :=
  match k.queuedCopy n, k.runningCopy n with
  | some _, _ => copyWord .queued 0 0
  | none, some p => copyWord .running 0 p.bytes
  | none, none =>
    match k.hist.find? (fun x => x.count % 2 ^ 52 == n) with
    | some x => copyWord x.st x.status x.bytes
    | none => 0

/-- The count that a handle names, if it names the current core. -/
def State.handleCount (s : State) (h : Word) : Option Nat :=
  if fldN h 52 12 = s.myCtx.logNo s.cur.1 % 4096 then some (fldN h 0 52) else none

/-- The status word of the copy that a handle names. -/
def State.handleStatus (s : State) (h : Word) : Word :=
  match s.handleCount h with
  | some n => s.cpu.copyStatus n
  | none => 0

/-- CPYS (R248). -/
def execCpys (d a : Reg) (s : State) : Out := .next (s.setG d (s.handleStatus (s.g a)))

/-- A copy is killed: it stops at the next destination line, or before it starts (R248). -/
def Core.killCopy (k : Core) (n : Nat) : Core :=
  let mark (p : CopyOp) : CopyOp := if p.count % 2 ^ 52 = n then { p with kill := true } else p
  { k with
    cps := k.cps.mapV (fun _ p => mark p)
    threads := k.threads.mapV (fun _ t => { t with queue := t.queue.map (fun q => match q with
      | .copy p => .copy (mark p)
      | q => q) }) }

/-- CPYK (R248): a copy that has not ended is killed and the thread waits; CPYK_COMPLETE writes gd. -/
def execCpyk (d a : Reg) (s : State) : Out :=
  let h := s.g a
  match s.handleCount h with
  | some n =>
    if s.cpu.copyLive n then
      let s := s.setCpu (s.cpu.killCopy n)
      .next (s.setTh { s.th with wait := .cpyk d h })
    else .next (s.setG d (s.handleStatus h))
  | none => .next (s.setG d 0)

/-- CPYK_COMPLETE (R248): the killed copy has ended. -/
def execCpykComplete (s : State) : Out :=
  let c := s.ev.c
  let sl := s.ev.sl
  let t := s.thread c sl
  match t.wait with
  | .cpyk d h =>
    let k := s.core c
    let n := fldN h 0 52
    if k.copyLive n then .next s
    else .next ((s.setThread c sl { t.setGr d (k.copyStatus n) with wait := .none }).progress (s.ownerOf c))
  | _ => .next s

/-! ### The walk (R245, R246) -/

/-- How one element of a copy ends. -/
inductive ElemRes
  /-- source and destination are at hand: element bits, flags and seed, target -/
  | ok (s : State) (p : CopyOp) (v : Nat) (l : Fl) (t : Target)
  /-- the copy fails here with a status and pointer, or on a malformed Shale block -/
  | fail (s : State) (p : CopyOp) (status : BitVec 8) (ptr : Word) (shale : Bool)
  | wait (s : State) (p : CopyOp) (w : Wait) (ptr : Word)
  | stop (f : Fault)

/-- The status of a failed check (R174, R246). -/
def statusOf (i : TrapInfo) : BitVec 8 :=
  let c := fldN i.cause 0 8
  if c = Cause.rights.code then 2 else if c = Cause.stale.code then 3 else if c = Cause.pfault.code then 4
  else if c = Cause.poison.code then 5 else 2

/-- Two checked targets stand in one line. -/
def Target.sameLine (a b : Target) : Bool :=
  match a, b with
  | .glob va pa sa, .glob vb pb sb => va / 64 == vb / 64 || (!pteMX pa && !pteMX pb && sa / 64 == sb / 64)
  | .spad c o, .spad c' o' => c == c' && o / 64 == o' / 64
  | _, _ => false

/-- The offset of a target in its line, as R60 counts it for an alias block. -/
def Target.lineOff : Target → Nat
  | .glob va _ _ => va % 64
  | .spad _ o => o % 64
  | .dev o => o % 64

/-- Bytes read, with those that the line under way holds (R245: an element of smaller index has written them), and the low half of a
byte. -/
def overlay (buf : List (Nat × Byte)) (half : Option (Nat × Byte)) (off : Nat) (bs : List Byte) : List Byte :=
  (offsets off bs).map (fun x =>
    let y := match buf.reverse.find? (fun b => b.1 == x.1) with
      | some b => b.2
      | none => x.2
    match half with
    | some (o, v) => if o = x.1 then (y &&& 0xF0) ||| (v &&& 0x0F) else y
    | none => y)

/-- A read of the source within one line (R246, R250): the target, the bytes; a check that fails, a poisoned line or a peer out of
reach fails the copy. -/
def State.copyRead (s : State) (c : Nat) (p : CopyOp) (out : Option Target) (ptr : Word) (n : Nat)
    (k : State → CopyOp → List Byte → ElemRes) : ElemRes :=
  match s.touch c p.srcLines ptr false with
  | .stop f => .stop f
  | .wait s w => .wait s p w ptr
  | .trap s i => .fail s p (statusOf i) ptr false
  | .ok s (lines, t) =>
    let p := { p with srcLines := lines }
    if !s.targetUp c t then .fail s p 1 ptr false
    else
      match s.engRead c t n with
      | .ok s (bs, bad) =>
        if bad then .fail s p 5 ptr false
        else
          let near := match out with
            | some o => o.sameLine t
            | none => false
          k s p (if near then overlay p.buf p.half t.lineOff bs else bs)
      | .stop f => .stop f
      | .wait s w => .wait s p w ptr
      | .trap s i => .fail s p (statusOf i) ptr false

/-- Block k of a Shale row (R245): blocks are decoded one after another, each from as many halfwords as it has. -/
def State.copyShale (s : State) (c : Nat) (p : CopyOp) (out : Option Target) (row : Word) :
    Nat → Nat → List Byte → (State → CopyOp → List Nat → ElemRes) → ElemRes
  | 0, _, _, _ => .fail s p 0 row true
  | fuel + 1, k, bs, cont =>
    match decodeShale bs with
    | .bad => .fail s p 0 row true
    | .ok es n => if k = 0 then cont s p es else State.copyShale s c p out (row + BitVec.ofNat 64 n) fuel (k - 1) [] cont
    | .need =>
      s.copyRead c p out (row + BitVec.ofNat 64 bs.length) 2 (fun s p b => State.copyShale s c p out row fuel k (bs ++ b) cont)

/-- The value of element i, its bits in the source format (R245). -/
def State.copyValue (s : State) (c : Nat) (p : CopyOp) (out : Option Target) (i : Nat)
    (k : State → CopyOp → Nat → ElemRes) : ElemRes :=
  let r := p.layout
  match r.srcRow i with
  | none => k s p (r.fill % 2 ^ r.sf.bits)
  | some (row, x0) =>
    if r.sf = .e4m3sh then
      s.copyShale c p out row (24 * (x0 / 32 + 1) + 1) (x0 / 32) [] (fun s p es => k s p (es.getD (x0 % 32) 0))
    else
      s.copyRead c p out (r.srcPtr row x0) (Nat.max 1 (r.ssz / 2)) (fun s p bs =>
        let b := leNat bs
        k s p ((if r.ssz = 1 ∧ x0 % 2 = 1 then b / 16 else b) % 2 ^ r.sf.bits))

/-- Element i: its value converted, and its destination's line checked (R245, R246). -/
def State.copyElem (s : State) (c : Nat) (p : CopyOp) (out : Option Target) (i : Nat) (l : Fl) : ElemRes :=
  s.copyValue c p out i fun s p v =>
    let r := p.layout
    let ptr := (r.dstPtr i).1
    match s.touch c p.dstLines ptr true with
    | .stop f => .stop f
    | .wait s w => .wait s p w ptr
    | .trap s i => .fail s p (statusOf i) ptr false
    | .ok s (lines, t) =>
      let p := { p with dstLines := lines }
      if !s.targetUp c t then .fail s p 1 ptr false
      else
        let (w, l) := if r.sf = r.df then (v, l) else convert r.sf r.df r.rm r.sat v l
        .ok s p w l t

/-- The next element of a copy, or for formats of half a byte the next two, which share a byte: its bytes at their target. The second
of two finds the half byte that the first has written (R245). Where the second fails, the byte is not written, and the flags that the first
has raised are dropped with it (DESIGN CHOICE, log 32: the spec does not say whether they reach fflags). -/
def State.copyUnit (s : State) (c : Nat) (p : CopyOp) (out : Option Target) : ElemRes :=
  let r := p.layout
  let l : Fl := { flags := p.flags, seed := p.seed }
  match s.copyElem c p out p.next l with
  | .ok s p v l t =>
    if r.dsz ≠ 1 then .ok s p v l t
    else
      match s.copyElem c { p with half := some (t.lineOff, BitVec.ofNat 8 v) } (some t) (p.next + 1) l with
      | .ok s p v' l t => .ok s { p with half := none } (v + 16 * v') l t
      | .fail s p st q sh => .fail s { p with half := none } st q sh
      | .wait s p w q => .wait s { p with half := none } w q
      | .stop f => .stop f
  | e => e

/-! ### COPY_LINE and COPY_END -/

/-- The copy that a slot has in progress. -/
def State.copyAt (s : State) (c sl : Nat) : Option CopyOp := Map.find? (s.core c).cps sl

/-- A slot's copy in progress is replaced. -/
def State.setCopy (s : State) (c sl : Nat) (p : CopyOp) : State :=
  let k := s.core c
  s.setCore c { k with cps := Map.put k.cps sl p }

/-- The runs of bytes, at consecutive offsets, that offsets and bytes make up. -/
def byteRuns : List (Nat × Byte) → List (Nat × List Byte)
  | [] => []
  | (o, b) :: t =>
    match byteRuns t with
    | (o', bs) :: rs => if o' = o + 1 then (o, b :: bs) :: rs else (o, [b]) :: (o', bs) :: rs
    | [] => [(o, [b])]

/-- The bytes of the line under way, last written first kept, in rising order of offset. -/
def lineBytes (buf : List (Nat × Byte)) : List (Nat × Byte) :=
  (List.range 64).filterMap (fun o => buf.reverse.find? (fun b => b.1 == o))

/-- The line under way is written, as one access for each run of bytes (R62, R250). -/
def State.flushLine (s : State) (c : Nat) (p : CopyOp) (t : Target) : Res CopyOp :=
  let base := s.retarget t
  (byteRuns (lineBytes p.buf)).foldl (fun (r : Res CopyOp) run =>
    r.bind fun s p => (s.engWrite c (base.plus run.1) run.2).bind fun s _ => .ok s p) (.ok s { p with buf := [] })

/-- The target of the destination line that holds a pointer, once it has been checked. -/
def CopyOp.dstLine (p : CopyOp) (ptr : Word) : Option Target := (p.dstLines.find? (fun e => e.1 == lineOf ptr)).map (·.2)

/-- A copy steps back over the elements of the line under way, which are not written (R247). -/
def CopyOp.dropBuf (p : CopyOp) : CopyOp :=
  let dsz := p.layout.dsz
  { p with next := p.next - (if dsz = 1 then 2 * p.buf.length else p.buf.length / (dsz / 2)), buf := [] }

/-- The line under way, if bytes of it wait to be written, is written (R247 item 1); where its home is out of reach by now, it is not, and
its elements count as not done (R401). -/
def State.flushCopy (s : State) (c : Nat) (p : CopyOp) : Res CopyOp :=
  if p.buf.isEmpty then .ok s p
  else
    match p.dstLine (p.layout.dstPtr (p.next - 1)).1 with
    | some t => if s.targetUp c (s.retarget t) then s.flushLine c p t else .ok s p.dropBuf
    | none => .ok s p.dropBuf

/-- The line under way is written; where its page stands in a sealed buffer by now, the buffer moves first (R373). -/
def State.flushMoved (s : State) (c : Nat) (p : CopyOp) : Res CopyOp :=
  match s.flushCopy c p with
  | .wait _ (.sealed x) => match s.unseal x with
    | some s => s.flushCopy c p
    | none => .wait s (.sealed x)
  | r => r

/-- A copy that fails (R246): nothing further is written. -/
def CopyOp.fail (p : CopyOp) (status : BitVec 8) (ptr : Word) (shale : Bool) : CopyOp :=
  { p with st := .failed, status, failPtr := ptr, shale, waitPage := none }

/-- Elements of a copy served until the destination line that the first stands in is left (R337, R246); n bounds them. -/
def State.copyRun (s : State) (c : Nat) (line : Word) : Nat → CopyOp → Res CopyOp
  | 0, p => .ok s p
  | n + 1, p =>
    let r := p.layout
    if p.next ≥ r.total ∨ lineOf (r.dstPtr p.next).1 ≠ line then .ok s p
    else
      match s.copyUnit c p (p.dstLine line) with
      | .ok s p v l t =>
        let bs := leBytes (Nat.max 1 (r.dsz / 2)) v
        State.copyRun s c line n { p with
          withheld := false
          next := p.next + (if r.dsz = 1 then 2 else 1)
          flags := l.flags, seed := l.seed
          buf := p.buf ++ offsets t.lineOff bs }
      | .fail s p st q sh => (s.flushMoved c p).bind fun s p => .ok s (p.fail st q sh)
      | .wait s p w q =>
        match w with
        | .fault pg _ _ => .ok s { p with waitPage := some (vaOf pg / 2 ^ 16), failPtr := q }
        | .sealed x => .ok ((s.unseal x).getD s) p
        | w => .ok s { p with withheld := s.withholds c w }
      | .stop f => .stop f

/-- A copy of a slot may be served a line: a killed one goes on to the end of its line (R248). -/
def CopyOp.ready (p : CopyOp) : Bool :=
  p.st == .running && (!p.kill || p.midLine) && p.waitPage.isNone && !p.withheld && decide (p.next < p.layout.total)

/-- The requests of engines that a limit or the dirty-log throttle withheld may be made again (R404, R406). -/
def State.unhold (s : State) : State :=
  { s with cores := s.cores.mapV (fun _ k =>
      { k with
        cps := k.cps.mapV (fun _ p => { p with withheld := false })
        vx := k.vx.map (fun e => (e.1, { e.2 with withheld := false }))
        mx := k.mx.map (fun e => (e.1, { e.2 with withheld := false })) }) }

/-- How a slot's copy in progress ends now, if it does. -/
def CopyOp.ending (p : CopyOp) : Option CopyState :=
  if p.st = .failed then some .failed
  else if p.next ≥ p.layout.total then some .done
  else if p.kill && !p.midLine then some .killed
  else none

/-! ### The order of engine service (R336, R337) -/

/-- The engines of a core. -/
inductive Eng | vec | mat | copy
  deriving DecidableEq, Repr

/-- An engine's number among the deficits. -/
def Eng.no : Eng → Nat
  | .vec => 0 | .mat => 1 | .copy => 2

/-- The engine that a queued operation needs (R336). -/
def QOp.eng : QOp → Eng
  | .vec _ => .vec
  | .mat _ => .mat
  | .copy _ => .copy

/-- A slot presents its head to an engine, or has a copy in progress there (R337). -/
def Core.presents (k : Core) (e : Eng) (sl : Nat) : Bool :=
  (k.thread sl).queue.head?.map QOp.eng == some e || (e == .copy && (Map.find? k.cps sl).isSome)

/-- A slot's queue has a copy at its head that may be accepted. -/
def headCopy : List QOp → Bool
  | .copy p :: _ => !p.kill
  | _ => false

/-- A slot has work that an engine can serve now; for the copy engine also a copy that is to end or to be accepted. -/
def Core.hasWork (k : Core) (e : Eng) (sl : Nat) : Bool :=
  match e with
  | .copy => match Map.find? k.cps sl with
    | some p => p.ready || p.ending.isSome
    | none => headCopy (k.thread sl).queue
  | e => (k.thread sl).queue.head?.map QOp.eng == some e

/-- Visits of R337 from the slot after sl on, until one is served; n bounds them. -/
def Core.visit (k : Core) (e : Eng) : Nat → Nat → Map Int → Option (Nat × Map Int)
  | 0, _, _ => none
  | fuel + 1, sl, d =>
    let sl := (sl + 1) % 16
    let key := 16 * e.no + sl
    if !k.presents e sl then Core.visit k e fuel sl (Map.put d key 0)
    else
      let x := Map.getD d key 0 + 64 * (k.thread sl).id.shw
      let d := Map.put d key x
      if x > 0 ∧ k.hasWork e sl then some (sl, d) else Core.visit k e fuel sl d

/-- The slot that an engine serves next, with the deficits then (R337): the last one visited while it has both deficit and work, else the
first that enough visits to repay every debt find with both. -/
def Core.nextServed (k : Core) (e : Eng) : Option (Nat × Map Int) :=
  let last := Map.getD k.last e.no 15
  let debt := k.deficit.foldl (fun a x => Nat.max a (-x.2).toNat) 0
  if Map.getD k.deficit (16 * e.no + last) 0 > 0 ∧ k.hasWork e last then some (last, k.deficit)
  else k.visit e (16 * (debt / 64 + 2)) last k.deficit

/-- A unit of a slot's work is served at a cost (R337). -/
def Core.charge (k : Core) (e : Eng) (sl : Nat) (d : Map Int) (cost : Int) : Core :=
  let key := 16 * e.no + sl
  { k with deficit := Map.put d key (Map.getD d key 0 - cost), last := Map.put k.last e.no sl }

/-- COPY_LINE (R245, R337): the copy engine serves one destination line of a slot's copy. The line costs 1, and is progress of its job,
once it has been served (R339); where a request of it has to wait, the copy goes on from there. -/
def execCopyLine (s0 : State) : Out :=
  let s := s0
  let c := s.ev.c
  let sl := s.ev.sl
  match s.copyAt c sl, (s.core c).nextServed .copy with
  | some p, some (sl', d) =>
    let served (s : State) : State := (s.setCore c ((s.core c).charge .copy sl d 1)).progress (s.ownerOf c)
    if !p.ready || sl' != sl then .next s0
    else if p.rejected then
      match s.flushMoved c p with
      | .ok s p => .next (s.setCopy c sl (p.fail 4 p.failPtr false))
      | .stop f => .fault f
      | _ => .next s0
    else
      let line := lineOf (p.layout.dstPtr p.next).1
      match s.copyRun c line 128 p with
      | .stop f => .fault f
      | .trap s _ | .wait s _ => .next s
      | .ok s p =>
        if p.st = .running ∧ p.next < p.layout.total ∧ lineOf (p.layout.dstPtr p.next).1 = line then .next (s.setCopy c sl p)
        else
          match s.flushMoved c p with
          | .ok s p => .next (served (s.setCopy c sl p))
          | .stop f => .fault f
          | _ => .next s0
  | _, _ => .next s0

/-- A copy ends with a state (R247): its flags reach fflags, its entry is posted, its counter rises, a failure that R247 item 4
names is reported, and the engine remembers it (R248). A report of LINKERR, for which R198 has no cause, has the cause POISON (DESIGN
CHOICE, log 55: R247 says only that it is the failure's). -/
def State.endCopy (s : State) (c sl : Nat) (p : CopyOp) (st : CopyState) : State :=
  let r := p.layout
  let t := s.thread c sl
  let s := (s.setThread c sl { t with fflags := t.fflags ||| p.flags }).progress (s.ownerOf c)
  let kind := match st with
    | .failed => 3
    | .killed => 2
    | _ => 1
  let k := s.core c
  let tag := p.count + 2 ^ 16
  let k :=
    if !r.post then k
    else if p.cancelled then { k with resv := k.resv.filter (fun x => x != (sl, tag)) }
    else k.post sl tag (entryWord r.tag kind p.status.toNat sl) (BitVec.ofNat 64 p.bytes)
  let k := if r.inc then k.setCnt r.cnt (k.cnt r.cnt + 1) else k
  let k := { k with hist := ({ count := p.count, st, status := p.status, bytes := p.bytes } :: k.hist).take 64 }
  let s := s.setCore c k
  if st = .failed ∧ (p.shale ∨ !r.post) then
    let cause : Cause := if p.shale then .shfmt else match p.status.toNat with
      | 2 => .rights
      | 3 => .stale
      | 4 => .pfault
      | _ => .poison
    s.report c sl (cause.info p.failPtr p.pc)
  else s

/-- The first killed copy of a queue, and the queue without it. -/
def takeKilled : List QOp → Option (CopyOp × List QOp)
  | [] => none
  | .copy p :: t => if p.kill then some (p, t) else (takeKilled t).map (fun x => (x.1, .copy p :: x.2))
  | q :: t => (takeKilled t).map (fun x => (x.1, q :: x.2))

/-- COPY_END (R247): the slot's copy in progress ends, or a queued copy that was killed (R248). -/
def execCopyEnd (s : State) : Out :=
  let c := s.ev.c
  let sl := s.ev.sl
  let queued : Out :=
    let t := s.thread c sl
    match takeKilled t.queue with
    | some (p, q) => .next ((s.setThread c sl { t with queue := q }).endCopy c sl p .killed)
    | none => .next s
  match s.copyAt c sl with
  | none => queued
  | some p =>
    match p.ending with
    | none => queued
    | some st =>
      match s.flushMoved c p with
      | .ok s p =>
        let k := s.core c
        .next ((s.setCore c { k with cps := k.cps.del sl }).endCopy c sl p st)
      | .stop f => .fault f
      | _ => .next s

end Sys2Proof.Machine
end

