-- ==== Sys2Proof/Machine/Migr.lean ====
section
/-! DEFINITION. Migration and replication: MIGR and REPL, the moves that the memory manager starts, the steps of the migration
table, and the sequencer (spec/11_copy_engine.md R249; spec/16_memory_hierarchy.md R307 to R309; spec/22_confidential_code.md
R373; spec/23_host_fabric_partitions.md R404). -/

namespace Sys2Proof.Machine

/-! ### MIGR and REPL at issue (R249) -/

/-- The checks of MIGR and REPL (R249). -/
def State.checkPages (s : State) (a b : Word) : Option TrapInfo :=
  if regionOf (vaOf a) ≠ .glob then some Cause.vaddr.info
  else if fldN a 0 16 ≠ 0 then some Cause.align.info
  else if b = 0 ∨ b.toNat > 4096 ∨ !oneRegion (vaOf a) (b.toNat * 2 ^ 16) then some (Cause.range.info 0 b)
  else if s.cpu.inboxCount s.cur.2 ≥ 4 then some Cause.inboxq.info
  else none

/-- A request for pages joins the others. -/
def State.addPageReq (s : State) (q : PageReq) : State := { s with hub := { s.hub with pageReqs := s.hub.pageReqs ++ [q] } }

/-- MIGR and REPL at issue (R249): the checks, the tag, the reservation and the request. -/
def State.askPages (s : State) (d a b : Reg) (q : PageReq) : Out :=
  match s.checkPages (s.g a) (s.g b) with
  | some i => .next (s.raise i)
  | none =>
    let (s', tag) := s.freshTag
    let q := { q with
      core := s.cur.1, slot := s.cur.2, owner := s.ownerOf s.cur.1, ptr := s.g a, pages := (s.g b).toNat, tag }
    .next (((s'.reserve tag).addPageReq q).setG d (BitVec.ofNat 64 tag))

/-- MIGR (R249). -/
def execMigr (tier : Tier) (die : BitVec 2) (d a b : Reg) (s : State) : Out :=
  s.askPages d a b { ptr := 0, owner := 0, pages := 0, tier, die := die.toNat }
/-- REPL (R249). -/
def execRepl (d a b : Reg) (m : BitVec 4) (s : State) : Out :=
  s.askPages d a b { ptr := 0, owner := 0, pages := 0, repl := some m }

/-! ### Frames -/

/-- The number of a tier (R241, R299). -/
def tierNo : Tier → Nat
  | .hbm => 0 | .exp => 1 | .host => 2

/-- The HBM stack of an SPA (R295). -/
def stackOf (spa : Nat) : Nat := spaLocal spa / 0xC00000000

/-! ### Replicas (R309) -/

/-- A page's replicas go and RP is cleared; their frames return to the HBM ring (R308, R309). -/
def State.dropReplicas (s : State) (va at_ : Nat) (e : Word) (lvl : Nat) : State :=
  let spa := pteSpa e
  let frames := (List.range (pteSpan lvl / 2 ^ 16)).map (fun i => spaLocal spa / 2 ^ 16 + i)
  let mine := s.hub.replicas.filter (fun r => frames.contains (r.1 % 2 ^ 48))
  let s := s.drainSeq
  let s := { s with hub := { s.hub with replicas := s.hub.replicas.filter (fun r => !frames.contains (r.1 % 2 ^ 48)) } }
  let s := (s.setLeaf at_ (setBit e 60 false)).invalidate (va / pteSpan lvl * pteSpan lvl) (pteSpan lvl)
  mine.foldl (fun s r =>
    let f := s.own (r.2 * 2 ^ 16)
    (s.unbindFrames f (2 ^ 16)).returnFrame 0 f) s

/-- A replica of a page on a die for an owner (R309): none if the die's map has no room; it waits while no frame stands ready. -/
def State.addReplica (s : State) (owner va spa size die : Nat) : Option State :=
  let n := size / 2 ^ 16
  let held := (s.hub.replicas.filter (fun r => r.1 / 2 ^ 48 == die)).length
  if held + n > 4096 then some s
  else
    (List.range n).foldl (fun (r : Option State) i =>
      r.bind fun s => (s.takeFrame 0 (some die)).map fun (s, f) =>
        let src := spa + i * 2 ^ 16
        let s := (s.bindFrames (va + i * 2 ^ 16) src f (2 ^ 16) 0).copyLines owner src f (2 ^ 16)
        let key := die * 2 ^ 48 + spaLocal src / 2 ^ 16
        { s with hub := { s.hub with replicas := Map.put s.hub.replicas key (spaLocal f / 2 ^ 16) } }) (some s)

/-! ### Quotas (R404) -/

/-- The SPAs of the 64 KiB pages of a function's contexts: those that their root entries cover. -/
def State.pageSpas (s : State) (fn : Nat) : List Nat :=
  let pages (e : REntry) : List Nat := (List.range ((e.len + 1023) / 1024)).map (fun i => e.base / 1024 + i)
  let roots := s.ctxs.flatMap (fun k => if k.2.fn = fn then (k.2.rights.filter (fun e => e.pgid == 0)).flatMap pages else [])
  (sortNats roots).filterMap (fun p => (s.leafOf (p * 2 ^ 16)).map (fun x => leafSpa x.2.1 x.2.2 (p * 2 ^ 16)))

/-- The replicas of pages (R309), by home frame and local frame. -/
def State.copiesOf (s : State) (spas : List Nat) : Map Nat :=
  s.hub.replicas.filter (fun r => spas.any (fun spa => spaLocal spa / 2 ^ 16 == r.1 % 2 ^ 48))

/-- The 64 KiB pages of a function's contexts that stand in a tier, replicas included. -/
def State.pagesUsed (s : State) (fn t : Nat) : Nat :=
  let held := s.pageSpas fn
  (held.filter (fun spa => s.tierOf spa == t)).length + (if t = 0 then (s.copiesOf held).length else 0)

/-- The function stays within its quota of a tier with n more pages (R403, R404). -/
def State.withinQuota (s : State) (fn t n : Nat) : Bool :=
  match t with
  | 0 => decide (s.pagesUsed fn 0 + n ≤ (s.fnc fn).cfg.le 8 3)
  | 1 => decide (s.pagesUsed fn 1 + n ≤ (s.fnc fn).cfg.le 16 4 % 2 ^ 28)
  | _ => true

/-! ### A page of a request -/

/-- The status of the check of a 64 KiB page (R249): no entry, or none because its table line fails its MAC (R316), then age or
dormant, then W, line by line. -/
def State.pageStatus (s : State) (o : Nat) (age : BitVec 8) (va : Nat) : BitVec 8 :=
  let one (l : Nat) : BitVec 8 :=
    match List.find? (fun e : REntry => e.covers l) (s.ctx o).rights with
    | none => 2
    | some e => if s.badTableLine o l then 2 else if e.dm || e.age != age then 3 else if !bitAt e.rights 1 then 2 else 0
  ((List.range 1024).map (fun i => one (va / 64 + i))).find? (· != 0) |>.getD 0

/-- A level-2 alarm is due where the entry of a line of a 64 KiB page stands in a table line that fails its MAC (R316). -/
def State.pageAlarm (s : State) (o va : Nat) : State :=
  if !(s.ctx o).badRights.isEmpty && (List.range 1024).any (fun i =>
      (s.ctx o).rights.any (fun e => e.covers (va / 64 + i)) && s.badTableLine o (va / 64 + i)) then
    { s with hub := { s.hub with alarms := s.hub.alarms ++ [o] } }
  else s

/-- The next page of a request: its address. -/
def PageReq.va (q : PageReq) : Nat := vaOf q.ptr + q.handled * 2 ^ 16

/-- The pages of a request that the page at its next address holds (R249). -/
def PageReq.span (q : PageReq) (lvl : Nat) : Nat :=
  Nat.min (q.pages - q.handled) ((pteSpan lvl - q.va % pteSpan lvl) / 2 ^ 16)

/-- A request as it stands after a number of pages. -/
def PageReq.did (q : PageReq) (n : Nat) : PageReq := { q with handled := q.handled + n, mig := none }

/-- A request stopped with a status. -/
def PageReq.stop (q : PageReq) (st : BitVec 8) : PageReq := { q with status := st, ended := true }

/-- Request k of the list is replaced; one of the memory manager's own goes once it has ended. -/
def State.setReq (s : State) (k : Nat) (q : PageReq) : State :=
  let gone := !q.post && (q.ended || decide (q.handled ≥ q.pages))
  { s with hub := { s.hub with pageReqs := if gone then s.hub.pageReqs.eraseIdx k else s.hub.pageReqs.set k q } }

/-- The check of a request's next page (R249): stopped with a status, waiting on a fault record, or passed with its leaf. A page of
256 MiB of which one 64 KiB part fails is not handled. -/
def State.pageLeaf (s : State) (q : PageReq) : State × PageReq × Option (Nat × Word × Nat) :=
  if q.rejected then (s, q.stop 4, none)
  else if q.waitPage.isSome then (s, q, none)
  else
    match s.walk 0 q.va true with
    | (s, .fault reason lvl) =>
      let p := BitVec.ofNat 64 q.va ||| (fld q.ptr 56 8).setWidth 64 <<< 56
      (s.addFault p reason lvl 2 false q.owner, { q with waitPage := some (q.va / 2 ^ 16) }, none)
    | (s, .leaf _ lvl) =>
      let bad := if q.post then (List.range (q.span lvl)).findSome? (fun i =>
        let st := s.pageStatus q.owner (ageOf q.ptr) (q.va + i * 2 ^ 16)
        if st = 0 then none else some (i, st)) else none
      match bad with
      | some (i, st) => (s.pageAlarm q.owner (q.va + i * 2 ^ 16), q.stop st, none)
      | none => (s, q, s.leafOf q.va)

/-! ### Migration (R307) -/

/-- The tier and die that a page of a request moves to next: between the second tier and host memory, by way of HBM of the page's
home die, for a page of host memory die 0 (DESIGN CHOICE, log 46: R295 gives host memory no home die). -/
def nextHop (s : State) (q : PageReq) (spa : Nat) : Nat × Option Nat :=
  let t := tierNo q.tier
  if t = 0 then (0, some q.die)
  else if s.tierOf spa = 0 then (t, none)
  else (0, some (homeDie spa))

/-- A page is where a request wants it. -/
def State.arrived (s : State) (q : PageReq) (spa : Nat) : Bool :=
  s.tierOf spa == tierNo q.tier && (tierNo q.tier != 0 || homeDie spa == q.die)

/-- The sealed buffer that a move of a protected context's pages into the second tier forms (R373): a free entry is taken, its
counter steps. -/
def State.openBuffer (s : State) (q : PageReq) : Option (State × Nat) :=
  match q.sbuf.filter (fun x => (Map.getD s.hub.vtab x {}).kind == 2) with
  | some x => some (s, x)
  | none =>
    (((List.range 4095).map (· + 1)).find? (fun x => (Map.getD s.hub.vtab x {}).kind == 0)).map (fun x =>
      let v := Map.getD s.hub.vtab x {}
      let v := { v with kind := 2, owner := q.owner, saveCtr := v.saveCtr + 1, frames := [] }
      ({ s with hub := { s.hub with vtab := Map.put s.hub.vtab x v } }, x))

/-- A page of an address range is being migrated. -/
def State.migrating (s : State) (va size : Nat) : Bool :=
  s.hub.mig.any (fun m => decide (m.2.va < va + size) && decide (va < m.2.va + 64 * m.2.lines))

/-- A migration entry opens for a page of a request (R307): a free entry of the HBM end's controller, a destination frame; if HBM is
the destination the leaf names it at once. None while one of them is missing. -/
def State.openMig (s : State) (q : PageReq) (at_ : Nat) (e : Word) (lvl : Nat) : Option (State × PageReq) :=
  let size := pteSpan lvl
  let va := q.va / size * size
  let src := pteSpa e
  let (t, die) := nextHop s q src
  let sealing := t == 1 && (s.ctx q.owner).prot && (s.home src == .hbm)
  let buf : Option (State × Option Nat) :=
    if sealing then (s.openBuffer q).map (fun r => (r.1, some r.2)) else some (s, none)
  buf.bind fun (s, x) =>
    (s.takeFrames t die size).bind fun (s, dst) =>
      let stack := stackOf (if t = 0 then dst else src)
      if (s.hub.mig.filter (fun m => m.2.stack == stack)).length ≥ 64 then none
      else
        let n := (s.hub.mig.map (·.1)).foldl Nat.max 0 + 1
        let m : MigEntry := { va, src, dst, lines := size / 64, atDst := t == 0, stack }
        let s := match x with
          | some x => (List.range (size / 2 ^ 16)).foldl (fun (s : State) i =>
              s.setFrameKey (dst + i * 2 ^ 16) { vab := va / 2 ^ 16 + i, vidx := x, kslot := (s.ctx q.owner).keySlot }) s
          | none => s.bindFrames va src dst size 0
        let s := match x with
          | none => s
          | some x =>
            let v := Map.getD s.hub.vtab x {}
            let fs := (List.range (size / 2 ^ 16)).map (fun i => spaLocal dst / 2 ^ 16 + i)
            { s with hub := { s.hub with vtab := Map.put s.hub.vtab x { v with frames := v.frames ++ fs } } }
        let s := { s with hub := { s.hub with mig := Map.put s.hub.mig n m } }
        let s := if t = 0 then (s.setLeaf at_ (leafAt e dst)).invalidate va size else s
        some (s, { q with mig := some n, sbuf := match x with
          | some x => some x
          | none => q.sbuf })

/-- One line of an entry of an owner's request copied, source to destination, indivisibly; the pointer advances (R307). -/
def State.copyMigLine (s : State) (owner n : Nat) (m : MigEntry) : State :=
  let s := s.copyLines owner (m.src + 64 * m.p) (m.dst + 64 * m.p) 64
  { s with hub := { s.hub with mig := Map.put s.hub.mig n { m with p := m.p + 1 } } }

/-- An entry ends (R307): the leaf names the destination, the page is invalidated, the entry is free, the source frame returns. -/
def State.closeMig (s : State) (n : Nat) (m : MigEntry) : State :=
  let size := m.lines * 64
  let s := if m.atDst then s
    else match s.leafOf m.va with
      | some (a, e, _) => s.setLeaf a (leafAt e m.dst)
      | none => s
  let s := s.invalidate m.va size
  let s := { s with hub := { s.hub with mig := s.hub.mig.del n } }
  (s.unbindFrames m.src size).returnFrames m.src size

/-- A request goes on by one line of its page under way, and ends the page with its last line. -/
def State.migLine (s : State) (k : Nat) (q : PageReq) (n : Nat) : State :=
  match Map.find? s.hub.mig n with
  | none => s.setReq k { q with mig := none }
  | some m =>
    let s := s.copyMigLine q.owner n m
    if m.p + 1 < m.lines then s
    else
      let s := s.closeMig n { m with p := m.p + 1 }
      let lvl := if m.lines = 1024 then 3 else 2
      s.setReq k (if s.arrived q m.dst then q.did (q.span lvl) else { q with mig := none })

/-- The next page of a migration request (R249, R307, R308): checked; it waits while another request moves it; left in place and
counted if it is MX-backed or a peer's; otherwise its replicas go, and unless it is where it should be its entry opens and its first
line is copied. -/
def State.startPage (s : State) (k : Nat) (q : PageReq) : State :=
  match s.pageLeaf q with
  | (s, q, none) => s.setReq k q
  | (s, q, some (at_, e, lvl)) =>
    let spa := pteSpa e
    let mine := spaDev spa == s.dev.devnum.toNat
    let drop (s : State) : State := if pteRP e then s.dropReplicas q.va at_ e lvl else s
    if s.migrating (q.va / pteSpan lvl * pteSpan lvl) (pteSpan lvl) then s.setReq k q
    else if pteMX e || !mine then s.setReq k (q.did (q.span lvl))
    else if s.arrived q spa then (drop s).setReq k (q.did (q.span lvl))
    else if q.post && s.tierOf spa != tierNo q.tier
        && !s.withinQuota (s.ctx q.owner).fn (tierNo q.tier) (pteSpan lvl / 2 ^ 16) then s.setReq k (q.stop 6)
    else
      let s := drop s
      match s.openMig q at_ (setBit e 60 false) lvl with
      | none => s.setReq k q
      | some (s, q) =>
        let s := s.setReq k q
        match q.mig with
        | some n => s.migLine k q n
        | none => s

/-- MIGRATION_LINE_COPY (R307): request k of the migrations under way goes on by one line. -/
def execMigrationLineCopy (s : State) : Out :=
  let k := s.ev.k
  match s.hub.pageReqs[k]? with
  | none => .next s
  | some q =>
    if q.repl.isSome || q.ended || decide (q.handled ≥ q.pages) then .next s
    else
      match q.mig with
      | some n => .next (s.migLine k q n)
      | none => .next (s.startPage k q)

/-- A request's entry is posted (R249). -/
def State.postPages (s : State) (k : Nat) (q : PageReq) (kind : Nat) : State :=
  let s := { s with hub := { s.hub with pageReqs := s.hub.pageReqs.eraseIdx k } }
  let w0 := entryWord q.tag kind q.status.toNat q.slot
  s.setCore q.core ((s.core q.core).post q.slot q.tag w0 (BitVec.ofNat 64 q.handled))

/-- MIGR_DONE (R249): migration request k has handled its pages, or stopped at one. -/
def execMigrDone (s : State) : Out :=
  let k := s.ev.k
  match s.hub.pageReqs[k]? with
  | none => .next s
  | some q =>
    if q.repl.isNone && q.mig.isNone && (q.ended || decide (q.handled ≥ q.pages)) then .next (s.postPages k q 6) else .next s

/-! ### Replication (R309) -/

/-- The next page of a replication request (R308, R309): the request after it, or none while the page waits. A page whose home is not the
device's HBM, where R302 admits no RP, counts as handled and stays as it is (DESIGN CHOICE, log 46). -/
def State.replPage (s : State) (q : PageReq) (mask : BitVec 4) : State × Option PageReq :=
  match s.pageLeaf q with
  | (s, q', none) => (s, if q'.ended ∨ q'.waitPage.isSome then some q' else none)
  | (s, q, some (at_, e, lvl)) =>
    let spa := pteSpa e
    let done := some (q.did (q.span lvl))
    if s.migrating (q.va / pteSpan lvl * pteSpan lvl) (pteSpan lvl) then (s, none)
    else if pteMX e || s.home spa != .hbm then (s, done)
    else if mask = 0 then (if pteRP e then s.dropReplicas q.va at_ e lvl else s, done)
    else
      let dies := (List.range 4).filter (fun d => bitAt mask d && d != homeDie spa && (s.replica d spa).isNone)
      let n := pteSpan lvl / 2 ^ 16
      if !dies.isEmpty && !s.withinQuota (s.ctx q.owner).fn 0 (n * dies.length) then (s, some (q.stop 6))
      else
        match dies.foldl (fun (r : Option State) d => r.bind fun s => s.addReplica q.owner (q.va / pteSpan lvl * pteSpan lvl) spa (pteSpan lvl) d) (some s.drainSeq) with
        | none => (s, none)
        | some s' =>
          let va := q.va / pteSpan lvl * pteSpan lvl
          ((s'.setLeaf at_ (setBit e 60 true)).invalidate va (pteSpan lvl), done)

/-- The pages of a replication request, as far as they can be handled now. -/
def State.replPages (s : State) (mask : BitVec 4) : Nat → PageReq → State × PageReq
  | 0, q => (s, q)
  | n + 1, q =>
    if q.ended || q.waitPage.isSome || decide (q.handled ≥ q.pages) then (s, q)
    else
      match s.replPage q mask with
      | (s, none) => (s, q)
      | (s, some q) => State.replPages s mask n q

/-- REPL_DONE (R309): replication request k handles its pages and ends, posting its entry; one that must wait keeps its place. -/
def execReplDone (s : State) : Out :=
  let k := s.ev.k
  match s.hub.pageReqs[k]? with
  | none => .next s
  | some q =>
    match q.repl with
    | none => .next s
    | some m =>
      let (s, q) := if q.rejected then (s, q.stop 4) else s.replPages m 4096 q
      if q.ended || decide (q.handled ≥ q.pages) then .next (s.postPages k q 7) else .next (s.setReq k q)

/-- SEQUENCER_WRITE (R309): the oldest write to a replicated page that waits is performed at home and in every replica. -/
def execSequencerWrite (s : State) : Out :=
  match s.hub.seqQ with
  | [] => .next s
  | w :: t =>
    let s := { s with hub := { s.hub with seqQ := t } }
    .next (s.putHome (s.ownerOf w.core) w.spa (offsets (w.spa % 64) w.data))

/-- MEMORY_MANAGER_MOVE (R307, R373): the memory manager starts the move of pages of an owner to a tier and die. -/
def execMemoryManagerMove (s : State) : Out :=
  let e := s.ev
  let n := Nat.max 1 (Nat.min 4096 (e.len / 2 ^ 16))
  if regionOf (vaOf e.v) ≠ .glob ∨ fldN e.v 0 16 ≠ 0 then .next s
  else .next (s.addPageReq { owner := e.o, ptr := e.v, pages := n, tier := e.tier, die := e.die, post := false })

/-- Some thread's issue waits for a write to sealed buffer x (R373). -/
def State.waitsSealed (s : State) (x : Nat) : Bool :=
  s.cores.any (fun k => k.2.threads.any (fun t => t.2.wait == .sealed x))

/-- What waits for sealed buffer x waits no longer. -/
def State.wakeSealed (s : State) (x : Nat) : State := s.wakeWhere (fun _ => true) (fun w => w == .sealed x || w == .flush)

/-- SEALED_BUFFER_MOVE (R373): the whole of sealed buffer k moves into HBM, and the accesses that wait for it go on; so do
those that wait for one that has moved already. -/
def execSealedBufferMove (s : State) : Out :=
  let x := s.ev.k
  if !s.waitsSealed x then .next s
  else if (Map.getD s.hub.vtab x {}).kind ≠ 2 then .next (s.wakeSealed x)
  else
    match s.unseal x with
    | some s => .next (s.wakeSealed x)
    | none => .next s

end Sys2Proof.Machine
end

