-- ==== Sys2Proof/Machine/Ends.lean ====
section
/-! DEFINITION. The ends of contexts: destruction (spec/22_confidential_code.md R367, R385), termination and alarms
(spec/20_preemption_faults.md R353, R359 to R361), and the cancellation of a saved context's job (R346). -/

namespace Sys2Proof.Machine

/-- The command statuses of R409. -/
inductive CmdStatus
  | ok | badcmd | badreq | denied | busy | noctx | nospace | badimage | staleImage | tagFail | aborted | filtered | alarm3 | full
  deriving DecidableEq, Repr

/-- The code of a status (R409). -/
def CmdStatus.code : CmdStatus → Nat
  | .ok => 0 | .badcmd => 1 | .badreq => 2 | .denied => 3 | .busy => 4 | .noctx => 5 | .nospace => 6 | .badimage => 7
  | .staleImage => 8 | .tagFail => 9 | .aborted => 10 | .filtered => 11 | .alarm3 => 12 | .full => 13

/-- A function's command completes with a status and its response (R392). -/
def State.finish (s : State) (fn : Nat) (st : CmdStatus) (resp : List Byte := []) : State := s.complete fn st.code resp

/-- The command that a function waits with completes, where it has not been reset meanwhile (R353). -/
def State.answer (s : State) (fn : Option Nat) (st : CmdStatus) (resp : List Byte := []) : State :=
  match fn with
  | some fn => s.finish fn st resp
  | none => s

/-! ### What waits on a page (R305) -/

/-- An access that waits on a page. -/
def Wait.onPage (w : Wait) (page : Nat) : Bool :=
  match w with
  | .fault p _ _ => vaOf p / 2 ^ 16 == page
  | _ => false

/-- A copy or matrix operation that waits on a page waits no longer, and fails next if the page was rejected; so does a locked line whose
page was not rejected. -/
def Core.answerPage (k : Core) (page : Nat) (rejected : Bool) : Core :=
  { k with
    cps := k.cps.mapV (fun _ p => if p.waitPage = some page then { p with waitPage := none, rejected } else p)
    mx := k.mx.map (fun e => if e.2.waitPage = some page then (e.1, { e.2 with waitPage := none, rejected }) else e)
    icache := k.icache.map (fun l => if l.waitPage = some page ∧ !rejected then { l with waitPage := none } else l) }

/-- The fills of locked lines that wait on a page fail (R207, R305). -/
def State.failFills (s : State) (page : Nat) : State :=
  s.cores.foldl (fun s e => (e.2.icache.filter (fun l => l.waitPage == some page)).foldl (fun s l => s.refillFails e.1 l) s) s

/-- The copies, matrix operations, locked lines and page requests that wait on a page are answered, and write-backs are tried again, whose
bytes stay dirty where the page was rejected (R305; DESIGN CHOICE, log 28). -/
def State.answerPage (s : State) (page : Nat) (rejected : Bool) : State :=
  let s := (if rejected then s.failFills page else s).wakeWhere (fun _ => true) (· == .flush)
  { s with
    cores := s.cores.mapV (fun _ k => k.answerPage page rejected)
    hub := { s.hub with pageReqs := s.hub.pageReqs.map (fun q =>
      if q.waitPage = some page then { q with waitPage := none, rejected } else q) } }

/-- A record is answered: it goes. -/
def State.dropFault (s : State) (r : FaultRec) : State :=
  { s with hub := { s.hub with faults := s.hub.faults.filter (· != r) } }

/-- A record goes, and every access that waits on its page walks again (R305). -/
def State.walkAgain (s : State) (r : FaultRec) : State :=
  ((s.dropFault r).answerPage r.page false).wakeWhere (fun _ => true) (fun w => w.onPage r.page)

/-- The records that a predicate names go with their function or owner; what else waits on their pages walks again, and may write a record
of its own (R305, R353). -/
def State.walkAgainAll (s : State) (p : FaultRec → Bool) : State := (s.hub.faults.filter p).foldl (fun s r => s.walkAgain r) s

/-! ### Stopping a context's work (R361, R367 item 1) -/

/-- The messages of an owner that are in flight are delivered, in the order they were sent (R168, R367). -/
def State.deliverAll (s : State) (o : Nat) : State :=
  let mine := s.hub.msgs.filter (fun m => m.owner == o)
  let s := { s with hub := { s.hub with msgs := s.hub.msgs.filter (fun m => m.owner != o) } }
  mine.foldl (fun s m =>
    let s := s.writeParts m.core m.off m.data
    let k := s.core m.core
    s.setCore m.core (k.setCnt m.cnt (k.cnt m.cnt + 1))) s

/-- The copies that a core has in progress stop at a line: what they have read of the line under way is written (R361, R367). -/
def State.stopCopies (s : State) (c : Nat) : State :=
  (s.core c).cps.foldl (fun s e => match s.flushMoved c e.2 with
    | .ok s _ => s
    | _ => s) s

/-- The requests of an owner to the hub end: those not begun go, a page that is moving moves on and no entry is posted; a removal of a root entry that waits completes with NOCTX (log 57). -/
def State.dropRequests (s : State) (o : Nat) : State :=
  let s := (s.hub.secQ.filter (fun q => q.owner == o)).foldl (fun s q => match q.kind with
    | .removeRoot _ fn => s.answer fn .noctx
    | _ => s) s
  let keep := s.hub.pageReqs.filterMap (fun q =>
    if q.owner != o then some q
    else if q.mig.isSome then some { q with post := false, pages := q.handled + 1 }
    else none)
  let s := { s with hub := { s.hub with
      pageReqs := keep
      secQ := s.hub.secQ.filter (fun q => q.owner != o) } }
  s.walkAgainAll (fun f => f.owner == o && f.tag.isNone)

/-- A context's threads stop and its queued operations are discarded (R361, R367 item 1). -/
def State.stopContext (s : State) (o : Nat) : State :=
  let s := (s.drainSeq).deliverAll o
  let mine := (s.cores.filter (fun e => e.2.owner.toNat == o)).map (·.1)
  let s := mine.foldl (fun s c => s.stopCopies c) s
  let s := { s with cores := s.cores.mapV (fun _ k =>
    if k.owner.toNat = o then
      { k with
        threads := k.threads.mapV (fun _ t => { t with live := false, queue := [], wait := .none, reports := [] })
        mx := [], vx := [], cps := [], inbox := [], resv := [] }
    else k) }
  s.dropRequests o

/-- The launches of a context that have not completed take STATE 3, or keep STATE 4 or the one their completion has written (R361, R367
item 2). -/
def State.stopLaunches (s : State) (o : Nat) : State :=
  (s.liveLaunches o).foldl (fun s e => if e.2.state = 4 ∨ e.2.closing ≠ 0 then s else s.launchField e.2 80 1 3) s

/-! ### Destruction (R367) -/

/-- A KEY_UPDATE that cores have still to take completes with a status (R381). -/
def State.endKeyUpdate (s : State) (o : Nat) (st : CmdStatus) : State :=
  let k := s.ctx o
  match k.oldWin with
  | some (_, _, f) => (s.setCtx o { k with oldWin := none }).answer f st
  | none => s

/-- The L1s of an owner's cores are emptied, their dirty bytes discarded unwritten (R353). -/
def State.discardL1 (s : State) (o : Nat) : State :=
  { s with cores := s.cores.mapV (fun _ k => if k.owner.toNat = o then { k with l1 := [] } else k) }

/-- A destruction begins (R367 items 1 to 3): threads, job, rights table and what derives from it; its last steps follow when the cut
over those owners has ended. A reset or an alarm discards the dirty bytes of the L1s at once (R353, R361); the cut of a CTX_DESTROY
finds them still (log 57). -/
def State.destroy (s : State) (o : Nat) (st : JobStatus) (answer : Option Nat) : State :=
  let s := (((s.stopContext o).stopLaunches o).endJob o st).endKeyUpdate o .noctx
  let s := if st = .cancelled then s else s.discardL1 o
  let k := s.ctx o
  let s := s.setCtx o { k with save := .gone, pre := none, key := [], wins := [], resv := none }
  let r := (({ s := s } : Removal).cutOwner o 0 (2 ^ 50) (fun _ => true)).cascade (4 * s.entryCount + 4)
  let q : SecReq := { kind := .destroy answer, owner := o }
  (r.s.beginCut q r.owners r.lo (r.hi - r.lo) r.lines 0).settleRootCuts

/-- The commands that wait for a context complete with a status: its PREEMPT, a JOB_CANCEL and a CTX_DESTROY (R353, R361). -/
def State.answerWaiting (s : State) (o : Nat) (st : CmdStatus) : State :=
  let k := s.ctx o
  let s := match k.pre with
    | some p => if p.checkpoint then s else s.answer p.fn st
    | none => s
  let s := (k.cancelWaits ++ k.destroyWaits).foldl (fun s fn => s.finish fn st) s
  s.endKeyUpdate o st

/-- The header of an image whose writing has begun is rewritten with INVALID = 1 (R347, R353, R361). -/
def State.voidImage (s : State) (o : Nat) : State :=
  match (s.ctx o).pre with
  | some p =>
    if !p.begun then s
    else
      let h := s.mem.bytes p.dest 64
      s.putBytes o p.dest (h.set 6 (h.getD 6 0 ||| 4))
  | none => s

/-- A context is terminated (R361): its jobs end with ALARM, commands that wait for it complete with NOCTX. -/
def State.terminate (s : State) (o : Nat) : State :=
  if (Map.find? s.ctxs o).isNone ∨ (s.ctx o).save = .gone then s
  else ((s.voidImage o).answerWaiting o .noctx).destroy o .alarm none

/-- A context is destroyed because its function is reset or its interface leaves RUN (R353, R367, R385); ATTEMPT has stepped where its
threads had stopped for a save. -/
def State.resetContext (s : State) (o : Nat) : State :=
  let k := s.ctx o
  if (Map.find? s.ctxs o).isNone ∨ k.save = .gone then s
  else
    let s := if k.save = .draining ∧ k.prot then
        let v := Map.getD s.hub.vtab k.vidx {}
        { s with hub := { s.hub with vtab := Map.put s.hub.vtab k.vidx { v with attempt := (v.attempt + 1) % 2 ^ 32 } } }
      else s
    ((s.voidImage o).answerWaiting o .aborted).destroy o .reset none

/-- Every context of a list of owners is terminated. -/
def State.terminateAll (s : State) (l : List Nat) : State := l.foldl (fun s o => s.terminate o) s

/-! ### Alarms (R359, R360) -/

/-- A level-1 alarm is recorded only (R359). -/
def State.alarm1 (s : State) (unit : Nat) (w1 : Word) (o : Nat) : State := s.ras unit 5 w1 o

/-- The keys of a context's slot are erased (R359). -/
def State.eraseSlot (s : State) (o : Nat) : State :=
  let x := (s.ctx o).keySlot
  if x = 0 then s else { s with hub := { s.hub with slotKeys := s.hub.slotKeys.del x } }

/-- A level-2 alarm erases the named context's keys and terminates it (R359). -/
def State.alarm2 (s : State) (unit : Nat) (w1 : Word) (o : Nat) : State := ((s.ras unit 6 w1 o).eraseSlot o).terminate o

/-- Every outstanding command completes with ALARM3 (R359). -/
def State.answerAll (s : State) : State :=
  (s.fns.filter (fun f => f.2.busy)).foldl (fun s f => s.finish f.1 .alarm3) s

/-- A request whose answer nobody awaits any more. -/
def SecKind.unanswered : SecKind → SecKind
  | .removeRoot gid _ => .removeRoot gid none
  | .destroy _ => .destroy none
  | k => k

/-- A pre-emption that answers no command any more. -/
def PreReq.unanswered (p : PreReq) : PreReq := { p with fn := none }

/-- The requests that wait, or have a cut under way, and answer a command of a function that a predicate admits answer none. -/
def State.forgetAnswers (s : State) (p : Nat → Bool) : State :=
  let req (q : SecReq) : SecReq := match q.kind with
    | .removeRoot _ (some fn) | .destroy (some fn) => if p fn then { q with kind := q.kind.unanswered } else q
    | _ => q
  { s with hub := { s.hub with
      secQ := s.hub.secQ.map req
      cuts := s.hub.cuts.map (fun c => { c with req := req c.req }) } }

/-- A level-3 alarm (R359): every volatile key is erased, every context terminated, every link goes down; every outstanding command
completes with ALARM3. The device key of slot 0 and the keys of the die-to-stack links, which R359 does not name, stay (log 57). -/
def State.alarm3 (s : State) (unit : Nat) (w1 : Word) (o : Nat) : State :=
  let s := ((s.ras unit 7 w1 o).answerAll).forgetAnswers (fun _ => true)
  let s := { s with
    fns := s.fns.mapV (fun _ f => { f with spdm := { f.spdm with session := none, handshake := none, secret := [] } })
    ctxs := s.ctxs.mapV (fun _ k => { k with pre := k.pre.map PreReq.unanswered, cancelWaits := [], destroyWaits := [], oldWin := none })
    hub := { s.hub with
      alarm3 := true, cmdQ := [], ckpt := none
      slotKeys := s.hub.slotKeys.filter (fun e => e.1 == 0)
      links := s.hub.links.mapV (fun _ l => { l with up := false, rxKey := [], txKey := [], replay := [] }) } }
  s.terminateAll s.owners

/-- A TAG_FAIL counts; the sixteenth since the cold reset raises the level-3 alarm (R360). -/
def State.countTagFail (s : State) (o : Nat) : State :=
  let s := { s with hub := { s.hub with tagFails := s.hub.tagFails + 1 } }
  if s.hub.tagFails = 16 then s.alarm3 9 0 o else s

/-! ### The job of a saved context (R346) -/

/-- The job of a saved context is cancelled (R346): its threads count as stopped, so its launches complete. -/
def State.cancelSaved (s : State) (o : Nat) (st : JobStatus) : State × Nat :=
  let (s, n) := s.cancelJob o none st
  let s := (s.liveLaunches o).foldl (fun s e => e.2.crews.foldl (fun s w => s.retireCrew e.1 w.1) s) s
  let s := (s.liveLaunches o).foldl (fun s e => s.completeLaunch e.1) s
  (s.settleJob o, n)

end Sys2Proof.Machine
end

