-- ==== Sys2Proof/Machine/Tiles.lean ====
section
/-! DEFINITION. The registers of the matrix engine: their configuration words, elements, and the checks of matrix and orthogonal
operations on configurations, at issue and at service (spec/12_matrix.md R252 to R264, R266, R267;
spec/13_orthogonal_accumulator.md R272 to R288). -/

namespace Sys2Proof.Machine

/-! ### Configuration words (R252, R261, R273) -/

/-- ROWS, of a tile or an accumulator. -/
def cfgRows (w : Word) : Nat := fldN w 0 7
/-- COLS. -/
def cfgCols (w : Word) : Nat := fldN w 8 8
/-- CFGD. -/
def cfgDone (w : Word) : Bool := bitAt w 31
/-- FMT of a tile. -/
def tileFmt (w : Word) : Fmt := Fmt.ofCode (fld w 16 4)
/-- SC of a tile. -/
def tileSc (w : Word) : Bool := bitAt w 20
/-- Bytes of a tile's row. -/
def tileRowBytes (w : Word) : Nat := cfgCols w * (tileFmt w).store / 8
/-- Scales of a tile's row (R255). -/
def tileG (w : Word) : Nat := (cfgCols w + 31) / 32
/-- The element format of an accumulator's TYPE. -/
def accFmt (w : Word) : Fmt :=
  match fldN w 16 2 with
  | 0 => .fp64
  | 1 => .fp32
  | _ => .int32
/-- Bytes of an accumulator's element. -/
def accEsz (w : Word) : Nat := (accFmt w).store / 8
/-- N of an orthogonal accumulator. -/
def orthN (w : Word) : Nat := fldN w 0 7
/-- KCAP. -/
def orthCap (w : Word) : Nat := fldN w 8 6
/-- The element format of TYPE. -/
def orthFmt (w : Word) : Fmt := if bitAt w 16 then .fp32 else .fp64
/-- Bytes of an element. -/
def orthEsz (w : Word) : Nat := (orthFmt w).store / 8
/-- POL is TRAP. -/
def orthTrap (w : Word) : Bool := bitAt w 17
/-- EF. -/
def orthEf (w : Word) : Bool := bitAt w 18
/-- K. -/
def orthK (w : Word) : Nat := fldN w 24 6
/-- FOLDS. -/
def orthFolds (w : Word) : Nat := fldN w 32 32
/-- Bytes of an image (R285). -/
def orthSize (w : Word) : Nat :=
  64 + orthEsz w * (orthN w * orthCap w + orthCap w * orthCap w + (if orthEf w then orthN w * orthN w else 0))

/-- A tile configuration is refused by TCFG (R253). -/
def tileBad (a : Word) : Bool :=
  let r := cfgRows a
  let c := cfgCols a
  let f := fldN a 16 4
  fldN a 21 43 != 0 || bitAt a 7 || r == 0 || decide (r > 64) || c == 0 || decide (c > 128) || decide (f ≥ 14)
    || (tileSc a && (decide (f < 4) || decide (f > 10))) || ((f == 8 || f == 11) && c % 2 != 0) || (f == 13 && c % 32 != 0)
    || decide (r * c * (tileFmt a).store > 8 * 4096)

/-- An accumulator shape is refused by ACZ (R262). -/
def accBad (a : Word) : Bool :=
  let r := cfgRows a
  let c := cfgCols a
  fldN a 18 46 != 0 || bitAt a 7 || fldN a 16 2 == 3 || r == 0 || decide (r > 64) || c == 0 || decide (c > 128)
    || decide (r * c * accEsz a > 16384)

/-- N and KCAP are in their ranges (R274). -/
def orthInRange (a : Word) : Bool :=
  decide (1 ≤ orthN a) && decide (orthN a ≤ 64) && decide (1 ≤ orthCap a) && decide (orthCap a ≤ 32)

/-- An orthogonal configuration is refused by QCFG (R274). -/
def orthBad (a : Word) : Bool := fldN a 18 46 != 0 || fldN a 14 2 != 0 || bitAt a 7 || !orthInRange a

/-- The status word of an orthogonal accumulator with K, EF and FOLDS. -/
def orthWord (cfg : Word) (k : Nat) (ef : Bool) (folds : Nat) : Word :=
  setFld (setFld (setBit (setBit (setFld cfg 18 46 0) 31 true) 18 ef) 24 6 k) 32 32 folds

/-- The status word after a fold (R279); with K = 0 there is none (R280). -/
def orthFolded (w : Word) : Word := if orthK w = 0 then w else orthWord w 0 true (orthFolds w + 1)

/-- The status word before QAPP's own stages: folded if it is full (R278). -/
def orthRoom (w : Word) : Word := if orthK w = orthCap w then orthFolded w else w

/-- The status word after QAPP (R278). -/
def orthApp (w : Word) : Word :=
  let w := orthRoom w
  orthWord w (orthK w + 1) (orthEf w) (orthFolds w)

/-- The format that ACCV converts into (R263). -/
def accvFmt (shape : Word) (fmt : Option Fmt) : Fmt := fmt.getD (accFmt shape)

/-- The tile configuration that ACCV leaves (R263). -/
def accvCfg (shape : Word) (fmt : Option Fmt) : Word :=
  setBit (setFld (setFld (setFld (0 : Word) 0 7 (cfgRows shape)) 8 8 (cfgCols shape)) 16 4 (accvFmt shape fmt).code.toNat) 31 true

/-! ### Configurations as they stand or will stand (R266, R276) -/

/-- The configuration words of a core's registers. -/
structure MxCfg where
  tiles : Map Word
  accs : Map Word
  qs : Map Word

/-- A tile's. -/
def MxCfg.tile (m : MxCfg) (k : Tile) : Word := Map.getD m.tiles k.toNat 0
/-- An accumulator's. -/
def MxCfg.acc (m : MxCfg) (a : Acc) : Word := Map.getD m.accs a.toNat 0
/-- An orthogonal accumulator's. -/
def MxCfg.orth (m : MxCfg) (q : QReg) : Word := Map.getD m.qs q.toNat 0

/-- The configurations of a core as they stand. -/
def Core.mxCfg (k : Core) : MxCfg :=
  { tiles := k.tiles.map (fun e => (e.1, e.2.cfg)), accs := k.accs.map (fun e => (e.1, e.2.shape))
    qs := k.qs.map (fun e => (e.1, e.2.st)) }

/-- The configurations after an operation. -/
def MxCfg.after (m : MxCfg) : MatKind → MxCfg
  | .tcfg k cfg => { m with tiles := Map.put m.tiles k.toNat (setBit cfg 31 true) }
  | .accv _ _ k aa fmt => { m with tiles := Map.put m.tiles k.toNat (accvCfg (m.acc aa) fmt) }
  | .acz ad shape => { m with accs := Map.put m.accs ad.toNat (setBit shape 31 true) }
  | .qcfg q cfg => { m with qs := Map.put m.qs q.toNat (orthWord cfg 0 false 0) }
  | .qz q => { m with qs := Map.put m.qs q.toNat (orthWord (m.orth q) 0 false 0) }
  | .qapp _ q _ _ _ => { m with qs := Map.put m.qs q.toNat (orthApp (m.orth q)) }
  | .qfold _ q => { m with qs := Map.put m.qs q.toNat (orthFolded (m.orth q)) }
  | .tld _ _ _ | .tst _ _ _ | .tz _ | .tscl _ _ _ | .mma _ _ _ _ _ _ | .acld _ _ _ | .acst _ _ _ | .qapl _ _ _ _
  | .qapr _ _ _ _ | .qst _ _ | .qform _ _ _ _ => m

/-- A register that an operation names. -/
inductive MxReg
  | tile (k : Tile) | acc (a : Acc) | orth (q : QReg)
  deriving DecidableEq, Repr

/-- The registers that an operation names. -/
def MatKind.regs : MatKind → List MxReg
  | .tcfg k _ | .tld k _ _ | .tst k _ _ | .tz k | .tscl k _ _ => [.tile k]
  | .mma _ _ _ ad ka kb => [.acc ad, .tile ka, .tile kb]
  | .acz ad _ | .acld ad _ _ | .acst ad _ _ => [.acc ad]
  | .accv _ _ k aa _ => [.tile k, .acc aa]
  | .qcfg q _ | .qz q | .qfold _ q | .qst q _ | .qform _ q _ _ => [.orth q]
  | .qapp _ q k _ _ => [.orth q, .tile k]
  | .qapl _ _ ad q | .qapr _ _ ad q => [.acc ad, .orth q]

/-- The registers whose elements an operation reads (R357). -/
def MatKind.reads : MatKind → List MxReg
  | .tst k _ _ => [.tile k]
  | .mma _ _ _ ad ka kb => [.tile ka, .tile kb, .acc ad]
  | .acst ad _ _ => [.acc ad]
  | .accv _ _ _ aa _ => [.acc aa]
  | .qapp _ q k _ _ => [.tile k, .orth q]
  | .qapl _ _ ad q | .qapr _ _ ad q => [.acc ad, .orth q]
  | .qfold _ q | .qst q _ | .qform _ q _ _ => [.orth q]
  | .tcfg _ _ | .tld _ _ _ | .tz _ | .tscl _ _ _ | .acz _ _ | .acld _ _ _ | .qcfg _ _ | .qz _ => []

/-! ### Pairing (R54, R264) -/

/-- The summations of R54. -/
inductive Summation | chain | groups | wrapping
  deriving DecidableEq, Repr

/-- The accumulator element and the summation of a tile's operand class (R54). -/
def pairing (cfg : Word) : Fmt × Summation :=
  match tileFmt cfg with
  | .fp64 => (.fp64, .chain)
  | .fp32 => (.fp32, .chain)
  | .int8 | .uint8 => if tileSc cfg then (.fp32, .groups) else (.int32, .wrapping)
  | .int4 | .int16 => (.int32, .wrapping)
  | _ => (.fp32, .groups)

/-- Rows and columns of a tile as an operand, transposed or not (R264). -/
def operandShape (cfg : Word) (t : Bool) : Nat × Nat := if t then (cfgCols cfg, cfgRows cfg) else (cfgRows cfg, cfgCols cfg)

/-! ### The checks that need no memory -/

/-- Rows, bytes of a row, required alignment, whether the rows are written, and whether the stride counts, of an operation that
accesses memory (R256 to R258, R262, R286, R288). -/
structure Rows where
  n : Nat
  len : Nat
  align : Nat
  wr : Bool
  a : Word
  str : Word
  /-- the bytes of one access to an element (R258) -/
  esz : Nat
  deriving DecidableEq, Repr

/-- The rows of an operation under configurations. -/
def MxCfg.rows (m : MxCfg) : MatKind → Option Rows
  | .tld k a str =>
    let w := m.tile k
    let f := tileFmt w
    some { n := cfgRows w, len := tileRowBytes w, align := if f.store ≤ 8 then 1 else f.store / 8, wr := false, a, str
           esz := Nat.max 1 (f.store / 8) }
  | .tst k a str =>
    let w := m.tile k
    let f := tileFmt w
    some { n := cfgRows w, len := tileRowBytes w, align := if f.store ≤ 8 then 1 else f.store / 8, wr := true, a, str
           esz := Nat.max 1 (f.store / 8) }
  | .tscl k a str => some { n := cfgRows (m.tile k), len := tileG (m.tile k), align := 1, wr := false, a, str, esz := 1 }
  | .acld ad a str =>
    let w := m.acc ad
    some { n := cfgRows w, len := cfgCols w * accEsz w, align := accEsz w, wr := false, a, str, esz := accEsz w }
  | .acst ad a str =>
    let w := m.acc ad
    some { n := cfgRows w, len := cfgCols w * accEsz w, align := accEsz w, wr := true, a, str, esz := accEsz w }
  | .qst q a => some { n := 1, len := orthSize (m.orth q), align := 64, wr := true, a, str := 0, esz := orthEsz (m.orth q) }
  | .qform _ q a str =>
    let w := m.orth q
    some { n := orthN w, len := orthN w * orthEsz w, align := orthEsz w, wr := true, a, str, esz := orthEsz w }
  | _ => none

/-- MCFG with its tval. -/
def mcfg (tval : Nat) : TrapInfo := Cause.mcfg.info 0 (BitVec.ofNat 64 tval)

/-- The configuration check of an operation (R253 to R288): the first that fails. QAPL and QAPR test the accumulator before the orthogonal
accumulator, whose number MCFG's tval carries then (DESIGN CHOICE, log 59: R281 gives no order). -/
def MxCfg.check (m : MxCfg) : MatKind → Option TrapInfo
  | .tcfg _ cfg => if tileBad cfg then some (Cause.mcfg.info 0 cfg) else none
  | .tld k _ _ => if cfgDone (m.tile k) && tileFmt (m.tile k) != .e4m3sh then none else some (mcfg k.toNat)
  | .tst k _ _ => if cfgDone (m.tile k) then none else some (mcfg k.toNat)
  | .tscl k _ _ => if cfgDone (m.tile k) && tileSc (m.tile k) then none else some (mcfg k.toNat)
  | .tz k => if cfgDone (m.tile k) then none else some (mcfg 0)
  | .acz _ shape => if accBad shape then some (Cause.mcfg.info 0 shape) else none
  | .acld ad _ _ | .acst ad _ _ => if cfgDone (m.acc ad) then none else some (mcfg (ad.toNat + 16))
  | .mma ta tb _ ad ka kb =>
    let a := m.tile ka
    let b := m.tile kb
    let d := m.acc ad
    if !(cfgDone a && cfgDone b && cfgDone d) then some (mcfg 0)
    else
      let (M, Ka) := operandShape a ta
      let (Kb, N) := operandShape b tb
      if Ka ≠ Kb ∨ cfgRows d ≠ M ∨ cfgCols d ≠ N ∨ pairing a ≠ pairing b ∨ (pairing a).1 ≠ accFmt d
          ∨ (tileSc a && ta) ∨ (tileSc b && !tb) then some Cause.mshape.info
      else none
  | .accv _ _ _ aa fmt =>
    let w := m.acc aa
    let f := accvFmt w fmt
    if !cfgDone w then some (mcfg 0)
    else if f == .int32 || decide (cfgRows w * cfgCols w * f.store > 8 * 4096) || (f.store == 4 && cfgCols w % 2 != 0) then
      some (mcfg 0)
    else none
  | .qcfg _ cfg => if orthBad cfg then some (Cause.mcfg.info 0 cfg) else none
  | .qz q | .qfold _ q | .qst q _ | .qform _ q _ _ => if cfgDone (m.orth q) then none else some (mcfg (q.toNat + 32))
  | .qapp _ q k _ col =>
    let w := m.orth q
    let t := m.tile k
    if !cfgDone w then some (mcfg (q.toNat + 32))
    else if !cfgDone t then some (mcfg k.toNat)
    else if cfgRows t ≠ orthN w ∨ tileFmt t ≠ orthFmt w ∨ tileSc t ∨ col.toNat ≥ cfgCols t then some Cause.mshape.info
    else if orthK w = orthCap w ∧ orthTrap w then some (Cause.qovf.info 0 w)
    else none
  | .qapl _ _ ad q =>
    let d := m.acc ad
    let w := m.orth q
    if !cfgDone d then some (mcfg (ad.toNat + 16))
    else if !cfgDone w then some (mcfg (q.toNat + 32))
    else if accFmt d ≠ orthFmt w ∨ cfgRows d ≠ orthN w then some Cause.mshape.info
    else none
  | .qapr _ _ ad q =>
    let d := m.acc ad
    let w := m.orth q
    if !cfgDone d then some (mcfg (ad.toNat + 16))
    else if !cfgDone w then some (mcfg (q.toNat + 32))
    else if accFmt d ≠ orthFmt w ∨ cfgCols d ≠ orthN w then some Cause.mshape.info
    else none

/-- The alignment check of an operation that accesses memory (R257 item 2, R286, R288); QFORM's names no pointer. -/
def MxCfg.checkAlign (m : MxCfg) (k : MatKind) : Option TrapInfo :=
  match m.rows k with
  | none => none
  | some r =>
    if r.a.toNat % r.align ≠ 0 ∨ r.str.toNat % r.align ≠ 0 then
      match k with
      | .qform _ _ _ _ => some Cause.align.info
      | _ => some (Cause.align.info r.a)
    else none

/-! ### Roundings (R50, R283) -/

/-- Roundings of a fold. -/
def foldRounds (w : Word) : Nat :=
  let n := orthN w
  let k := orthK w
  (if orthEf w then n * k * n else 0) + n * (k * (k + 1) / 2) + n * n * k

/-- Roundings of the stages of R282 on m vectors. -/
def applyRounds (w : Word) (m : Nat) : Nat :=
  let n := orthN w
  let k := orthK w
  m * k * n + m * (k * (k + 1) / 2) + m * n * k + (if orthEf w then m * n * n else 0)

/-- Roundings that an operation performs under configurations (R50). -/
def MxCfg.rounds (m : MxCfg) : MatKind → Nat
  | .mma ta tb _ _ ka kb =>
    let a := m.tile ka
    let (M, K) := operandShape a ta
    let N := (operandShape (m.tile kb) tb).2
    match (pairing a).2 with
    | .chain => M * N * K
    | .groups => M * N * ((K + 31) / 32)
    | .wrapping => 0
  | .accv _ _ _ aa fmt => if accvFmt (m.acc aa) fmt = accFmt (m.acc aa) then 0 else cfgRows (m.acc aa) * cfgCols (m.acc aa)
  | .qapp _ q _ _ _ =>
    let w := m.orth q
    let k := orthK (orthRoom w)
    (if orthK w = orthCap w then foldRounds w else 0) + k * orthN w + k * (k + 1) / 2 + k
  | .qfold _ q => if orthK (m.orth q) = 0 then 0 else foldRounds (m.orth q)
  | .qapl _ _ ad q => applyRounds (m.orth q) (cfgCols (m.acc ad))
  | .qapr _ _ ad q => applyRounds (m.orth q) (cfgRows (m.acc ad))
  | .qform _ q _ _ => applyRounds (m.orth q) (orthN (m.orth q))
  | .tcfg _ _ | .tld _ _ _ | .tst _ _ _ | .tz _ | .tscl _ _ _ | .acz _ _ | .acld _ _ _ | .acst _ _ _ | .qcfg _ _ | .qz _
  | .qst _ _ => 0

/-- The rounding mode of an operation. -/
def MatKind.rm : MatKind → RM
  | .mma _ _ rm _ _ _ | .accv rm _ _ _ _ | .qapp rm _ _ _ _ | .qapl _ rm _ _ | .qapr _ rm _ _ | .qfold rm _
  | .qform rm _ _ _ => rm
  | _ => .rne

/-- The seed after n roundings under a mode (R50). -/
def seedAfter (rm : RM) (n : Nat) (s : BitVec 32) : BitVec 32 := if rm = .rsr then lfsrN n s else s

/-! ### Elements -/

/-- Element i of packed data (R40). -/
def elemAt (d : Mem) (F : Fmt) (i : Nat) : Nat :=
  if F.store = 4 then (d.get (i / 2)).toNat / 16 ^ (i % 2) % 16
  else d.le (i * (F.store / 8)) (F.store / 8) % 2 ^ F.bits

/-- Elements packed (R40). -/
def packElems (F : Fmt) : List Nat → List Byte
  | [] => []
  | a :: t =>
    if F.store = 4 then
      match t with
      | b :: t => BitVec.ofNat 8 (a % 16 + 16 * (b % 16)) :: packElems F t
      | [] => [BitVec.ofNat 8 (a % 16)]
    else leBytes (F.store / 8) a ++ packElems F t

/-- Data of a register from bytes. -/
def memOf (bs : List Byte) : Mem := Mem.setBytes [] 0 bs

/-- A computation over a list that threads flags and seed. -/
def accum {α : Type} (f : α → Fl → Nat × Fl) : List α → Fl → List Nat × Fl
  | [], l => ([], l)
  | x :: t, l =>
    let (r, l) := f x l
    let (rs, l) := accum f t l
    (r :: rs, l)

end Sys2Proof.Machine
end

