-- ==== Sys2Proof/Machine/OrthCalc.lean ====
section
/-! DEFINITION. The arithmetic of the matrix engine: fused chains and group sums (spec/02_number_formats.md R55 to R58), and the
stages of the orthogonal accumulator (spec/13_orthogonal_accumulator.md R277 to R283). -/

namespace Sys2Proof.Machine

/-! ### Chains and group sums -/

/-- The fused chain of R55 and R58 over terms x × y, from a starting value. -/
def chain (F : Fmt) (rm : RM) : Nat → List (Val × Val) → Fl → Nat × Fl
  | r, [], l => (r, l)
  | r, (x, y) :: t, l =>
    let (r, l) := roundPre F rm (preFma rm x y (F.val r)) l
    chain F rm r t l

/-- An operand of a group sum: its value under its scale. Under the NaN scale it keeps its class, which decides NV; that S is a NaN then is
groupSum's (R43, R56). -/
def scaled (F : Fmt) (bits scale : Nat) : Val :=
  match F.val bits with
  | .num x => .num (x.scale ((scale : Int) - 127))
  | v => v

/-- A product is 0 × ∞. -/
def zeroInf (p : Val × Val) : Bool :=
  match p with
  | (.num x, .inf _) | (.inf _, .num x) => x.isZero
  | _ => false

/-- The sign of an infinite product. -/
def infSign (p : Val × Val) : Option Bool :=
  match p with
  | (.inf a, .inf b) => some (a != b)
  | (.inf a, .num x) | (.num x, .inf a) => if x.isZero then none else some (a != x.neg)
  | _ => none

/-- The exact product of two finite values. -/
def finProd (p : Val × Val) : Option Xr :=
  match p with
  | (.num x, .num y) => some (x.mul y)
  | _ => none

/-- The exact sum of finite numbers (R56): −0 if every one is −0. -/
def exactSum (xs : List Xr) : Xr :=
  let e := xs.foldl (fun a (x : Xr) => if x.e < a then x.e else a) ((xs.headD { neg := false, m := 0, e := 0 }).e)
  let s : Int := xs.foldl (fun (a : Int) (x : Xr) =>
    let m : Int := (x.m <<< (x.e - e).toNat : Nat)
    a + if x.neg then -m else m) 0
  if s = 0 then { neg := xs.all (fun x => x.neg && x.m == 0), m := 0, e := 0 } else { neg := decide (s < 0), m := s.natAbs, e }

/-- The sum S of a group's products, with the NV that R56 gives it; the group holds an operand under a NaN scale or none. -/
def groupSum (nanScale : Bool) (ps : List (Val × Val)) : Val × Bool :=
  let infs := ps.filterMap infSign
  let mixed := infs.contains true && infs.contains false
  let invalid := ps.any zeroInf || mixed
  let nv := invalid || ps.any (fun p => p.1.isSNaN || p.2.isSNaN)
  if invalid || nanScale || ps.any (fun p => p.1.isNaN || p.2.isNaN) then (.nan false false, nv)
  else
    match infs with
    | s :: _ => (.inf s, nv)
    | [] => (.num (exactSum (ps.filterMap finProd)), nv)

/-- An accumulator element after group sums in FP32 (R56). -/
def groupChain (rm : RM) : Nat → List (Bool × List (Val × Val)) → Fl → Nat × Fl
  | c, [], l => (c, l)
  | c, g :: t, l =>
    let (s, nv) := groupSum g.1 g.2
    let (c, l) := roundPre .fp32 rm (preAdd rm (Fmt.fp32.val c) s) (l.raiseIf nv fNV)
    groupChain rm c t l

/-- The exact integer sum of products added modulo 2^32 (R57). -/
def wrapSum (c : Nat) (ps : List (Int × Int)) : Nat :=
  (BitVec.ofInt 32 ((c : Int) + ps.foldl (fun a p => a + p.1 * p.2) 0)).toNat

/-! ### Arrays of elements -/

/-- An array of elements by rows. -/
abbrev Arr := List (List Nat)

/-- Element (i, j); +0 outside. -/
def Arr.at (a : Arr) (i j : Nat) : Nat := (a.getD i []).getD j 0

/-- An array of R rows and S columns, element by element in row-major order. -/
def stage (R S : Nat) (f : Nat → Nat → Fl → Nat × Fl) (l : Fl) : Arr × Fl :=
  (List.range R).foldl (fun (r : Arr × Fl) i =>
    let (row, l) := accum (fun j l => f i j l) (List.range S) r.2
    (r.1 ++ [row], l)) ([], l)

/-- An array of R rows and S columns from packed data whose rows hold w elements. -/
def arrOf (d : Mem) (F : Fmt) (R S w : Nat) : Arr :=
  (List.range R).map (fun i => (List.range S).map (fun j => elemAt d F (i * w + j)))

/-- The packed bytes of an array. -/
def Arr.pack (a : Arr) (F : Fmt) : List Byte := packElems F (a.flatMap id)

/-- The identity of order n. -/
def Arr.one (F : Fmt) (n : Nat) : Arr :=
  let one := match F with
    | .fp32 => 0x3F800000
    | _ => 0x3FF0000000000000
  (List.range n).map (fun i => (List.range n).map (fun j => if i = j then one else 0))

/-! ### The orthogonal accumulator (R272) -/

/-- An orthogonal accumulator under computation. -/
structure Orth where
  F : Fmt
  n : Nat
  cap : Nat
  k : Nat
  ef : Bool
  folds : Nat
  y : Arr
  t : Arr
  e : Arr

/-- The register's contents, the K reflectors only. -/
def OrthReg.orth (q : OrthReg) : Orth :=
  let w := q.st
  let n := orthN w
  let c := orthCap w
  let k := orthK w
  let F := orthFmt w
  { F, n, cap := c, k, ef := orthEf w, folds := orthFolds w
    y := arrOf q.y F n k c, t := arrOf q.t F k k c, e := if orthEf w then arrOf q.e F n n n else Arr.one F n }

/-- An array of R rows padded with zeros to w columns and h rows, packed. -/
def Arr.padded (a : Arr) (F : Fmt) (h w : Nat) : List Byte :=
  packElems F ((List.range h).flatMap (fun i => (List.range w).map (fun j => a.at i j)))

/-- T's upper triangle. -/
def upper (a : Arr) (k : Nat) : Arr :=
  (List.range k).map (fun i => (List.range k).map (fun j => if i ≤ j then a.at i j else 0))

/-- The register that holds an orthogonal accumulator. -/
def Orth.reg (o : Orth) (cfg : Word) : OrthReg :=
  { st := orthWord cfg o.k o.ef o.folds
    y := memOf (o.y.padded o.F o.n o.cap), t := memOf ((upper o.t o.k).padded o.F o.cap o.cap)
    e := if o.ef then memOf (o.e.padded o.F o.n o.n) else [] }

/-- Dot of R277 on the indices of a list: terms x l × y l, x negated if asked. -/
def Orth.dot (o : Orth) (rm : RM) (neg : Bool) (s : Nat) (ix : List Nat) (x y : Nat → Nat) (l : Fl) : Nat × Fl :=
  chain o.F rm s (ix.map (fun i =>
    let v := o.F.val (x i)
    (if neg then v.negate else v, o.F.val (y i)))) l

/-- The indices from a to b, b apart. -/
def span (a b : Nat) : List Nat := (List.range (b - a)).map (a + ·)

/-- The stage E of R282 on the left: E·C or Eᵀ·C. -/
def Orth.leftE (o : Orth) (rm : RM) (tr : Bool) (m : Nat) (c : Arr) (l : Fl) : Arr × Fl :=
  if o.ef then
    stage o.n m (fun i j => o.dot rm false 0 (List.range o.n) (fun x => if tr then o.e.at x i else o.e.at i x) (fun x => c.at x j)) l
  else (c, l)

/-- QAPL's stages (R282): Q·C or Qᵀ·C for C of N rows and m columns. -/
def Orth.left (o : Orth) (rm : RM) (tr : Bool) (m : Nat) (c : Arr) (l : Fl) : Arr × Fl :=
  let (c, l) := if tr then o.leftE rm true m c l else (c, l)
  let (w, l) := stage o.k m (fun r j => o.dot rm false 0 (List.range o.n) (fun x => o.y.at x r) (fun x => c.at x j)) l
  let (u, l) := stage o.k m (fun r j =>
    if tr then o.dot rm false 0 (List.range (r + 1)) (fun x => o.t.at x r) (fun x => w.at x j)
    else o.dot rm false 0 (span r o.k) (fun x => o.t.at r x) (fun x => w.at x j)) l
  let (c, l) := stage o.n m (fun i j =>
    o.dot rm true (c.at i j) (List.range o.k) (fun x => o.y.at i x) (fun x => u.at x j)) l
  if tr then (c, l) else o.leftE rm false m c l

/-- The stage E of R282 on the right: C·E or C·Eᵀ. -/
def Orth.rightE (o : Orth) (rm : RM) (tr : Bool) (m : Nat) (c : Arr) (l : Fl) : Arr × Fl :=
  if o.ef then
    stage m o.n (fun i j => o.dot rm false 0 (List.range o.n) (fun x => c.at i x) (fun x => if tr then o.e.at j x else o.e.at x j)) l
  else (c, l)

/-- QAPR's stages (R282): C·Q or C·Qᵀ for C of m rows and N columns. -/
def Orth.right (o : Orth) (rm : RM) (tr : Bool) (m : Nat) (c : Arr) (l : Fl) : Arr × Fl :=
  let (c, l) := if tr then (c, l) else o.rightE rm false m c l
  let (w, l) := stage m o.k (fun i r => o.dot rm false 0 (List.range o.n) (fun x => c.at i x) (fun x => o.y.at x r)) l
  let (u, l) := stage m o.k (fun i r =>
    if tr then o.dot rm false 0 (span r o.k) (fun x => w.at i x) (fun x => o.t.at r x)
    else o.dot rm false 0 (List.range (r + 1)) (fun x => w.at i x) (fun x => o.t.at x r)) l
  let (c, l) := stage m o.n (fun i j =>
    o.dot rm true (c.at i j) (List.range o.k) (fun x => u.at i x) (fun x => o.y.at j x)) l
  if tr then o.rightE rm true m c l else (c, l)

/-- Fold() of R279. -/
def Orth.fold (o : Orth) (rm : RM) (l : Fl) : Orth × Fl :=
  let (w, l) :=
    if o.ef then
      stage o.n o.k (fun i r => o.dot rm false 0 (List.range o.n) (fun x => o.e.at i x) (fun x => o.y.at x r)) l
    else (o.y, l)
  let (u, l) := stage o.n o.k (fun i r =>
    o.dot rm false 0 (List.range (r + 1)) (fun x => w.at i x) (fun x => o.t.at x r)) l
  let (e, l) := stage o.n o.n (fun i j =>
    o.dot rm true (o.e.at i j) (List.range o.k) (fun x => u.at i x) (fun x => o.y.at j x)) l
  ({ o with e, y := [], t := [], k := 0, ef := true, folds := o.folds + 1 }, l)

/-- QAPP of R278 with vector v and factor τ. -/
def Orth.append (o : Orth) (rm : RM) (v : List Nat) (tau : Nat) (l : Fl) : Orth × Fl :=
  let (o, l) := if o.k = o.cap then o.fold rm l else (o, l)
  let (w, l) := accum (fun r => o.dot rm false 0 (List.range o.n) (fun x => o.y.at x r) (fun x => v.getD x 0)) (List.range o.k) l
  let (u, l) := accum (fun r => o.dot rm false 0 (span r o.k) (fun x => o.t.at r x) (fun x => w.getD x 0)) (List.range o.k) l
  let (c, l) := accum (fun r => roundPre o.F rm (preMul (o.F.val tau).negate (o.F.val (u.getD r 0)))) (List.range o.k) l
  let t : Arr := (List.range (o.k + 1)).map (fun i => (List.range (o.k + 1)).map (fun j =>
    if j < o.k then (if i < o.k then o.t.at i j else 0) else if i < o.k then c.getD i 0 else tau))
  let y : Arr := (List.range o.n).map (fun i => (List.range (o.k + 1)).map (fun j => if j < o.k then o.y.at i j else v.getD i 0))
  ({ o with t, y, k := o.k + 1 }, l)

end Sys2Proof.Machine
end

