-- ==== Sys2Proof/Machine/MatEngine.lean ====
section
/-! DEFINITION. The matrix engine: issue of its operations into a thread's queue, their service and their completion
(spec/12_matrix.md R257, R258, R262 to R270; spec/13_orthogonal_accumulator.md R276; spec/20_preemption_faults.md R357). -/

namespace Sys2Proof.Machine

/-! ### Operations of a slot that have not taken effect -/

/-- A slot's accepted and queued matrix operations, in issue order. -/
def Core.matOps (k : Core) (sl : Nat) : List MatOp :=
  (k.mx.filter (fun e => e.1 == sl)).map (·.2)
    ++ (k.thread sl).queue.filterMap (fun q => match q with
      | .mat m => some m
      | _ => none)

/-- The configurations as they will stand after the slot's operations (R266, R276). -/
def Core.projected (k : Core) (sl : Nat) : MxCfg := (k.matOps sl).foldl (fun m o => m.after o.kind) k.mxCfg

/-- An operation of the slot on a register has not taken effect (R254, R260, R284, R287). -/
def Core.regBusy (k : Core) (sl : Nat) (r : MxReg) : Bool := (k.matOps sl).any (fun o => o.kind.regs.contains r)

/-- A step that fills a register has to wait (R260, R287): for its slot's operations on the register, and for one of any slot that the
engine has begun, whose checks have been made on the register as it stands (R276). -/
def Core.regHeld (k : Core) (sl : Nat) (r : MxReg) : Bool :=
  k.regBusy sl r || k.mx.any (fun e => e.2.begun && e.2.kind.regs.contains r)

/-- An operation makes a fold on registers as they stand (R278 to R280). -/
def MatKind.folds (m : MxCfg) : MatKind → Bool
  | .qfold _ q => orthK (m.orth q) != 0
  | .qapp _ q _ _ _ => orthK (m.orth q) == orthCap (m.orth q)
  | _ => false

/-- A fold of a slot has begun (R279). -/
def Core.folding (k : Core) (sl : Nat) : Bool := k.mx.any (fun e => e.1 == sl && e.2.begun && e.2.kind.folds k.mxCfg)

/-! ### Lines of rows -/

/-- A byte range cut at line boundaries; n bounds the pieces. -/
def linePieces : Nat → Word → Nat → List (Word × Nat)
  | 0, _, _ => []
  | fuel + 1, p, len =>
    if len = 0 then []
    else
      let k := Nat.min len (64 - inLine p)
      (p, k) :: linePieces fuel (p + BitVec.ofNat 64 k) (len - k)

/-- The pieces of row i. -/
def Rows.row (r : Rows) (i : Nat) : List (Word × Nat) :=
  linePieces (r.len / 64 + 2) (r.a + BitVec.ofNat 64 i * r.str) r.len

/-- The elements of row i: a pointer for each, and the bytes of one access. -/
def Rows.elems (r : Rows) (i : Nat) : List Word :=
  (List.range (r.len / r.esz)).map (fun j => r.a + BitVec.ofNat 64 i * r.str + BitVec.ofNat 64 (j * r.esz))

/-- The target of a line's first byte from that of a byte of it. -/
def Target.base (t : Target) (d : Nat) : Target :=
  match t with
  | .glob va pte spa => .glob (va - d) pte (spa - if pteMX pte then (d + 1) / 2 else d)
  | .spad c off => .spad c (off - d)
  | .dev off => .dev (off - d)

/-- The check of one byte's line by an engine operation (R142, R257 item 3): VADDR for the device register window. -/
def State.checkByte (s : State) (c : Nat) (p : Word) (wr : Bool) : Res Target :=
  let q : Req := { c, owner := s.ownerOf c, sLevel := false, p, n := 1, rd := !wr, wr }
  if regionOf (vaOf p) = .dev then .trap s (q.info .vaddr)
  else (s.check q).bind fun s t => .ok s (t.base (inLine p))

/-- The checks of pieces, each line once; a failing one's tval carries its row's number (R257). -/
def State.checkPieces (s : State) (c : Nat) (wr : Bool) (row : Nat) :
    List (Word × Target) → List (Word × Nat) → Res (List (Word × Target))
  | seen, [] => .ok s seen
  | seen, (p, _) :: t =>
    if seen.any (fun e => e.1 == lineOf p) then State.checkPieces s c wr row seen t
    else
      match s.checkByte c p wr with
      | .ok s tgt => State.checkPieces s c wr row ((lineOf p, tgt) :: seen) t
      | .trap s i => .trap s { i with tval := i.tval ||| BitVec.ofNat 64 (row * 256) }
      | .wait s w => .wait s (match w with
        | .fault p f i => .fault p f { i with tval := i.tval ||| BitVec.ofNat 64 (row * 256) }
        | w => w)
      | .stop f => .stop f

/-- The checks of every row's lines, in order of rows (R257 item 3). -/
def State.checkRows (s : State) (c : Nat) (r : Rows) (rowNo : Bool) : Res (List (Word × Target)) :=
  (List.range r.n).foldl (fun (acc : Res (List (Word × Target))) i =>
    acc.bind fun s seen => s.checkPieces c r.wr (if rowNo then i else 0) seen (r.row i)) (.ok s [])

/-- What withholds a write of checked lines at issue (R373, R404, R406). -/
def State.linesReady (s : State) (c : Nat) (lines : List (Word × Target)) : Option Wait :=
  lines.findSome? (fun e => s.writeReady c e.2)

/-! ### Issue (R266, R276) -/

/-- The row's number is part of tval for the instructions of R257. -/
def MatKind.rowNo : MatKind → Bool
  | .qst _ _ | .qform _ _ _ _ => false
  | _ => true

/-- A matrix operation at issue: its checks in order, then the thread's queue; a full queue stalls it (R222). -/
def State.matIssue (s0 : State) (k : MatKind) : Res Unit :=
  let c := s0.cur.1
  let m := s0.cpu.projected s0.cur.2
  match m.check k, m.checkAlign k with
  | some i, _ => .trap s0 i
  | none, some i => .trap s0 i
  | none, none =>
    let lines : Res (List (Word × Target)) := match m.rows k with
      | some r => (s0.checkRows c r k.rowNo).bind fun s ls =>
          match (if r.wr then s.linesReady c ls else none) with
          | some w => .wait s w
          | none => .ok s ls
      | none => .ok s0 []
    lines.bind fun s ls =>
      if s.th.queue.length ≥ 2 then .wait (s0.keepRecords s) .queueFull
      else
        let t := s.th
        let op : MatOp := { pc := t.pc, kind := k, seed := t.srseed, lines := ls }
        .ok ((s.setTh { t with srseed := seedAfter k.rm (m.rounds k) t.srseed }).enqueue (.mat op)) ()

/-- A matrix instruction without a prefix. -/
def State.matOp (s : State) (k : MatKind) : Out := (s.matIssue k).out s

/-! ### Service (R267, R357) -/

/-- The engine's operation at the head of its list: slot and operation. -/
def Core.mxHead (k : Core) : Option (Nat × MatOp) := k.mx.head?

/-- The stalled issues of a core are tried again: an operation has left its queue or taken effect (R222, R254, R276). -/
def State.unstall (s : State) (c : Nat) : State :=
  let k := s.core c
  s.setCore c { k with threads := k.threads.mapV (fun _ t => if t.wait = .queueFull then { t with wait := .none } else t) }

/-- The engine drops its head without effect; the issuer takes a deferred trap (R267, R201). -/
def State.discardHead (s : State) (c sl : Nat) (o : MatOp) (cause taddr : Word) : State :=
  let k := s.core c
  let s := s.setCore c { k with mx := k.mx.drop 1 }
  (s.report c sl { cause, taddr, tval := o.pc, mat := true }).unstall c

/-- The engine's head replaced. -/
def State.setHead (s : State) (c sl : Nat) (o : MatOp) : State :=
  let k := s.core c
  s.setCore c { k with mx := (sl, o) :: k.mx.drop 1 }

/-- A register is poisoned (R357). -/
def Core.regPoison (k : Core) : MxReg → Bool
  | .tile t => (k.tile t).poison
  | .acc a => (k.acc a).poison
  | .orth q => (k.orth q).poison

/-- The lines that rows touch, by number, rising. -/
def Rows.lines (r : Rows) : List Word :=
  (sortNats ((List.range r.n).flatMap (fun i => (r.row i).map (fun p => p.1.toNat / 64)))).map
    (fun n => BitVec.ofNat 64 (64 * n))

/-- The lines that the configuration at service touches and the check at issue did not cover, checked from the lowest on (R267). -/
def State.coverLines (s : State) (c : Nat) (wr : Bool) : List Word → List (Word × Target) → Res (List (Word × Target))
  | [], seen => .ok s seen
  | p :: t, seen =>
    if seen.any (fun e => e.1 == p) then State.coverLines s c wr t seen
    else (s.checkByte c p wr).bind fun s tgt => State.coverLines s c wr t ((p, tgt) :: seen)

/-- The engine begins serving its head: its checks again, poison, and the lines not covered at issue (R267, R357). An alignment that fails
under a configuration changed since, which R267 and R276 do not name among the causes, is a deferred ALIGN (DESIGN CHOICE, log 59). -/
def State.serve (s : State) (c sl : Nat) (o : MatOp) : State :=
  let m := (s.core c).mxCfg
  match m.check o.kind, m.checkAlign o.kind with
  | some i, _ | none, some i => s.discardHead c sl o i.cause i.taddr
  | none, none =>
    if o.rejected then s.discardHead c sl o (BitVec.ofNat 64 Cause.pfault.code) o.failPtr
    else if o.kind.reads.any (s.core c).regPoison then s.discardHead c sl o (BitVec.ofNat 64 Cause.poison.code) 0
    else
      match m.rows o.kind with
      | none => s.setHead c sl { o with begun := true }
      | some r =>
        match s.coverLines c r.wr r.lines o.lines with
        | .ok s ls => s.setHead c sl { o with begun := true, lines := ls }
        | .trap s i => s.discardHead c sl o i.cause i.taddr
        | .wait s (.fault p _ _) =>
          s.setHead c sl { o with waitPage := some (vaOf p / 2 ^ 16), failPtr := lineOf p }
        | .wait s _ => s
        | .stop _ => s

/-- The operation at the head of the engine's list has still to be served. -/
def Core.unserved (k : Core) (o : MatOp) : Bool := k.mxHead.any (fun e => e.2.seq == o.seq && !e.2.begun)

/-- MATRIX_SERVICE (R267): one that begins, or ends at once, is progress of its job (R339). -/
def execMatrixService (s : State) : Out :=
  let c := s.ev.c
  match (s.core c).mxHead with
  | some (sl, o) =>
    if o.begun || o.waitPage.isSome then .next s
    else
      let s := s.serve c sl o
      .next (if (s.core c).unserved o then s else s.progress (s.ownerOf c))
  | none => .next s

/-! ### Completion -/

/-- The target of a checked pointer of an operation. -/
def MatOp.target (o : MatOp) (s : State) (p : Word) : Target :=
  match o.lines.find? (fun e => e.1 == lineOf p) with
  | some e => (s.retarget e.2).plus (inLine p)
  | none => .dev 0x1000

/-- Pieces read through the core's L1 (R270), zeros from a poisoned line (R356), with the first poisoned pointer. -/
def State.readPieces (s : State) (c : Nat) (o : MatOp) : List (Word × Nat) → List Byte × Option Word → Res (List Byte × Option Word)
  | [], acc => .ok s acc
  | (p, n) :: t, (bs, bad) =>
    (s.load c (o.target s p) n).bind fun s r =>
      State.readPieces s c o t (bs ++ (if r.2 then leBytes n 0 else r.1), if r.2 && bad.isNone then some p else bad)

/-- The rows of an operation read, one after another. -/
def State.readRows (s : State) (c : Nat) (o : MatOp) (r : Rows) : Res (List Byte × Option Word) :=
  (List.range r.n).foldl (fun (acc : Res (List Byte × Option Word)) i =>
    acc.bind fun s x => s.readPieces c o (r.row i) x) (.ok s ([], none))

/-- The reports that a thread has taken in since an earlier state of it are a matrix operation's (R269). -/
def Thread.markReports (t0 t : Thread) : Thread :=
  let old := if t.merged = t0.merged then t0.reports.length else 3
  { t with reports := t.reports.take old ++ (t.reports.drop old).map (fun r => { r with mat := true }) }

/-- Element number j of an operation and those after it written through the core's L1, but for those that it has written already (R258,
R270). -/
def State.writeElems (s : State) (c sl : Nat) (o : MatOp) (n : Nat) : Nat → List Word → List Byte → Res Unit
  | _, [], _ => .ok s ()
  | j, p :: t, bs =>
    if j < o.written then State.writeElems s c sl o n (j + 1) t (bs.drop n)
    else
      (s.store c sl (o.target s p) (bs.take n) p o.pc).bind fun s' _ =>
        let s' := s'.setThread c sl ((s.thread c sl).markReports (s'.thread c sl))
        State.writeElems (s'.setHead c sl { o with written := j + 1 }) c sl o n (j + 1) t (bs.drop n)

/-- The rows of an operation written, the highest last (R258). -/
def State.writeRows (s : State) (c sl : Nat) (o : MatOp) (r : Rows) (bs : List Byte) : Res Unit :=
  (List.range r.n).foldl (fun (acc : Res Unit) i =>
    acc.bind fun s _ =>
      s.writeElems c sl o r.esz (i * (r.elems i).length) (r.elems i) ((bs.drop (i * r.len)).take r.len)) (.ok s ())

/-- A POISON report of a load, if it found poison (R257). -/
def State.reportPoison (s : State) (c sl : Nat) (o : MatOp) (bad : Option Word) : State :=
  match bad with
  | some p => s.report c sl { Cause.poison.info p o.pc with mat := true }
  | none => s

/-- The elements of an MMA's result, row-major (R264, R55 to R57). -/
def mmaElems (ta tb : Bool) (rm : RM) (a b : TileReg) (d : AccReg) (l : Fl) : List Nat × Fl :=
  let (M, K) := operandShape a.cfg ta
  let N := (operandShape b.cfg tb).2
  let fa := tileFmt a.cfg
  let fb := tileFmt b.cfg
  let ae (i k : Nat) : Nat := elemAt a.data fa (if ta then k * cfgCols a.cfg + i else i * cfgCols a.cfg + k)
  let be (k j : Nat) : Nat := elemAt b.data fb (if tb then j * cfgCols b.cfg + k else k * cfgCols b.cfg + j)
  let sa (i k : Nat) : Nat := if tileSc a.cfg then (a.band.get (i * tileG a.cfg + k / 32)).toNat else 127
  let sb (k j : Nat) : Nat := if tileSc b.cfg then (b.band.get (j * tileG b.cfg + k / 32)).toNat else 127
  let F := accFmt d.shape
  let one (ij : Nat) (l : Fl) : Nat × Fl :=
    let i := ij / N
    let j := ij % N
    let c := elemAt d.data F ij
    match (pairing a.cfg).2 with
    | .chain => chain F rm c ((List.range K).map (fun k => (fa.val (ae i k), fb.val (be k j)))) l
    | .groups =>
      groupChain rm c ((List.range ((K + 31) / 32)).map (fun g =>
        let ks := span (32 * g) (Nat.min K (32 * g + 32))
        (ks.any (fun k => sa i k == 255 || sb k j == 255),
          ks.map (fun k => (scaled fa (ae i k) (sa i k), scaled fb (be k j) (sb k j)))))) l
    | .wrapping => (wrapSum c ((List.range K).map (fun k => (valInt fa (ae i k), valInt fb (be k j)))), l)
  accum one (List.range (M * N)) l

/-- The elements of a tile that ACCV fills, row-major (R263). -/
def accvElems (rm : RM) (sat : Bool) (a : AccReg) (f : Fmt) (l : Fl) : List Nat × Fl :=
  let F := accFmt a.shape
  accum (fun i l =>
    let x := elemAt a.data F i
    if f = F then (x, l) else convert F f rm sat x l) (List.range (cfgRows a.shape * cfgCols a.shape)) l

/-- A side band of scales of 1 (R253). -/
def bandOne : Mem := memOf (List.replicate 256 0x7F)

/-- The array that an accumulator holds. -/
def AccReg.arr (a : AccReg) : Arr := arrOf a.data (accFmt a.shape) (cfgRows a.shape) (cfgCols a.shape) (cfgCols a.shape)

/-- The image of an orthogonal accumulator (R285): entries outside the K reflectors are zero. -/
def OrthReg.image (q : OrthReg) : List Byte :=
  let o := q.orth
  leBytes 8 q.st.toNat ++ leBytes 8 1 ++ leBytes 48 0
    ++ o.y.padded o.F o.n o.cap ++ (upper o.t o.k).padded o.F o.cap o.cap
    ++ (if o.ef then o.e.padded o.F o.n o.n else [])

/-- Bytes with the ignored bits 7:6 of six-bit elements zero (R258). -/
def trimBytes (F : Fmt) (bs : List Byte) : List Byte := if F.bits = 6 then bs.map (· &&& 0x3F) else bs

/-- What an operation does, whole: the device, and flags with seed (R253 to R288). -/
def State.performMat (s : State) (c sl : Nat) (o : MatOp) : Res Fl :=
  let k := s.core c
  let l : Fl := { flags := 0, seed := o.seed }
  let rows := (k.mxCfg.rows o.kind).getD { n := 0, len := 0, align := 1, wr := false, a := 0, str := 0, esz := 1 }
  let load (f : Core → List Byte → Core) : Res Fl :=
    (s.readRows c o rows).bind fun s x => .ok ((s.setCore c (f (s.core c) x.1)).reportPoison c sl o x.2) l
  let save (bs : List Byte) (l : Fl) : Res Fl := (s.writeRows c sl o rows bs).bind fun s _ => .ok s l
  let put (k : Core) (l : Fl) : Res Fl := .ok (s.setCore c k) l
  match o.kind with
  | .tcfg i cfg => put (k.setTile i { cfg := setBit cfg 31 true, band := bandOne }) l
  | .tld i _ _ => load (fun k bs => k.setTile i { k.tile i with data := memOf bs })
  | .tst i _ _ => save (trimBytes (tileFmt (k.tile i).cfg) ((k.tile i).data.bytes 0 (rows.n * rows.len))) l
  | .tz i => put (k.setTile i { k.tile i with data := [] }) l
  | .tscl i _ _ => load (fun k bs => k.setTile i { k.tile i with band := (k.tile i).band.setBytes 0 bs })
  | .mma ta tb rm ad ka kb =>
    let d := k.acc ad
    let (xs, l) := mmaElems ta tb rm (k.tile ka) (k.tile kb) d l
    put (k.setAcc ad { d with data := memOf (packElems (accFmt d.shape) xs) }) l
  | .acz ad shape => put (k.setAcc ad { shape := setBit shape 31 true }) l
  | .acld ad _ _ => load (fun k bs => k.setAcc ad { k.acc ad with data := memOf bs })
  | .acst ad _ _ => save ((k.acc ad).data.bytes 0 (rows.n * rows.len)) l
  | .accv rm sat i aa fmt =>
    let a := k.acc aa
    let f := accvFmt a.shape fmt
    let (xs, l) := accvElems rm sat a f l
    put (k.setTile i { k.tile i with cfg := accvCfg a.shape fmt, data := memOf (packElems f xs), band := bandOne }) l
  | .qcfg q cfg => put (k.setOrth q { st := orthWord cfg 0 false 0 }) l
  | .qz q => put (k.setOrth q { st := orthWord (k.orth q).st 0 false 0 }) l
  | .qapp rm q i tau col =>
    let t := k.tile i
    let r := k.orth q
    let F := orthFmt r.st
    let v := (List.range (orthN r.st)).map (fun x => elemAt t.data (tileFmt t.cfg) (x * cfgCols t.cfg + col.toNat))
    let (p, l) := r.orth.append rm v (tau.toNat % 2 ^ F.bits) l
    put (k.setOrth q (p.reg r.st)) l
  | .qapl tr rm ad q =>
    let d := k.acc ad
    let p := (k.orth q).orth
    let (x, l) := p.left rm tr (cfgCols d.shape) d.arr l
    put (k.setAcc ad { d with data := memOf (x.pack p.F) }) l
  | .qapr tr rm ad q =>
    let d := k.acc ad
    let p := (k.orth q).orth
    let (x, l) := p.right rm tr (cfgRows d.shape) d.arr l
    put (k.setAcc ad { d with data := memOf (x.pack p.F) }) l
  | .qfold rm q =>
    let r := k.orth q
    if orthK r.st = 0 then put k l
    else
      let (p, l) := r.orth.fold rm l
      put (k.setOrth q (p.reg r.st)) l
  | .qst q _ => save (k.orth q).image l
  | .qform rm q _ _ =>
    let p := (k.orth q).orth
    let (x, l) := p.left rm false p.n (Arr.one p.F p.n) l
    save (x.pack p.F) l

/-- MATRIX_OP_COMPLETE (R266, R268): the operation that the engine serves takes effect; its flags reach fflags (R51). While a request of
it has to wait, what the L1 has taken in and the elements that it has written stand, and the operation goes on from there (R258, R404). -/
def execMatrixOpComplete (s : State) : Out :=
  let c := s.ev.c
  match (s.core c).mxHead with
  | some (sl, o) =>
    if !o.begun then .next s
    else
      match s.performMat c sl o with
      | .ok s l =>
        let k := s.core c
        let s := s.setCore c { k with mx := k.mx.drop 1 }
        let t := s.thread c sl
        .next (((s.setThread c sl { t with fflags := t.fflags ||| l.flags }).unstall c).progress (s.ownerOf c))
      | .stop f => .fault f
      | .wait s w =>
        let o := ((s.core c).mxHead.map (·.2)).getD o
        .next (s.setHead c sl { o with withheld := s.withholds c w })
      | .trap _ _ => .next s
  | none => .next s

end Sys2Proof.Machine
end

