-- ==== Sys2Proof/Machine/Prefix.lean ====
section
/-! DEFINITION. The FMTP prefix: which instructions consume it and which codes each admits (spec/03_encoding.md R87 to R90;
spec/05_floating_point.md R130; spec/10_vector_streams.md R221; spec/12_matrix.md R263). -/

namespace Sys2Proof.Machine

/-- What a consumer reads of a prefix: which of the three codes, whether they must be equal, and which codes it admits in the
source positions and in the destination position (R88). -/
structure PfxRule where
  r1 : Bool
  r2 : Bool
  rd : Bool
  same : Bool
  okS : Fmt → Bool
  okD : Fmt → Bool

/-- Codes 0 to 8. -/
def isFloat8 : Fmt → Bool
  | .fp64 | .fp32 | .bf16 | .fp16 | .e5m2 | .e4m3 | .e3m2 | .e2m3 | .e2m1 => true
  | _ => false
/-- Codes 0 to 3. -/
def isFloat3 : Fmt → Bool
  | .fp64 | .fp32 | .bf16 | .fp16 => true
  | _ => false
/-- Codes 9, 10, 12, 14 and 15. -/
def isIntLane : Fmt → Bool
  | .int8 | .uint8 | .int16 | .int32 | .int64 => true
  | _ => false
/-- Codes 9 to 12, 14 and 15. -/
def isIntAny : Fmt → Bool
  | .int4 => true
  | f => isIntLane f
/-- Codes 0 to 3, 9, 10, 12, 14 and 15. -/
def isArith (f : Fmt) : Bool := isFloat3 f || isIntLane f
/-- Codes 0 to 7, 9, 10, 12, 14 and 15. -/
def isByteLane : Fmt → Bool
  | .e2m1 => false
  | f => isFloat8 f || isIntLane f

/-- The arithmetic, compare and reduction instructions (R221). -/
def ruleArith : PfxRule := ⟨true, true, true, true, isArith, isArith⟩
/-- VSQRT (R221). -/
def ruleSqrt : PfxRule := ⟨true, false, true, true, isFloat3, isFloat3⟩
/-- VFN (R221). -/
def ruleFn : PfxRule := ⟨true, false, true, true, fun f => f == .fp64 || f == .fp32, fun f => f == .fp64 || f == .fp32⟩
/-- The shifts (R221). -/
def ruleShift : PfxRule := ⟨true, true, true, true, isIntLane, isIntLane⟩
/-- VSEL and VPERM (R221). -/
def ruleSel : PfxRule := ⟨true, true, true, true, isByteLane, isByteLane⟩
/-- VBCST and VINS (R221). -/
def ruleBcst : PfxRule := ⟨false, false, true, false, isByteLane, isByteLane⟩
/-- VEXT (R221). -/
def ruleExt : PfxRule := ⟨true, false, false, false, isByteLane, isByteLane⟩
/-- VCVT (R221): codes 0 to 12, 14 and 15. -/
def ruleVcvt : PfxRule := ⟨true, false, true, false, fun f => f != .e4m3sh, fun f => f != .e4m3sh⟩
/-- VAND, VOR, VXOR and VMOV read no code (R221). -/
def ruleNone : PfxRule := ⟨false, false, false, false, fun _ => true, fun _ => true⟩
/-- FCVT (R130). -/
def ruleFcvt : PfxRule := ⟨true, false, true, false, isFloat8, isFloat8⟩
/-- FCVTI (R130). -/
def ruleFcvti : PfxRule := ⟨true, false, true, false, isFloat8, isIntAny⟩
/-- FCVTF (R130). -/
def ruleFcvtf : PfxRule := ⟨true, false, true, false, isIntAny, isFloat8⟩
/-- ACCV (R263): codes 0 to 12. -/
def ruleAccv : PfxRule := ⟨false, false, true, false, fun _ => true, fun f => isFloat8 f || f == .int8 || f == .uint8 || f == .int4 || f == .int16⟩

/-- The three codes of a prefix (R87). -/
def pfFmt1 (pf : BitVec 12) : Fmt := Fmt.ofCode (fld pf 0 4)
/-- fmt2. -/
def pfFmt2 (pf : BitVec 12) : Fmt := Fmt.ofCode (fld pf 4 4)
/-- fmtd. -/
def pfFmtD (pf : BitVec 12) : Fmt := Fmt.ofCode (fld pf 8 4)

/-- A consumer admits a prefix (R87, R221). -/
def PfxRule.admits (r : PfxRule) (pf : BitVec 12) : Bool :=
  let f1 := pfFmt1 pf
  let f2 := pfFmt2 pf
  let fd := pfFmtD pf
  (!r.r1 || r.okS f1) && (!r.r2 || r.okS f2) && (!r.rd || r.okD fd) &&
    (!r.same || ((!(r.r1 && r.r2) || f1 == f2) && (!(r.r1 && r.rd) || f1 == fd) && (!(r.r2 && r.rd) || f2 == fd)))

/-- The consumers of a prefix with their rules (R88); every other instruction has none. -/
def pfxRule : Instr → Option PfxRule
  | .vadd _ _ _ _ _ | .vsub _ _ _ _ _ | .vmul _ _ _ _ _ | .vfma _ _ _ _ _ | .vfms _ _ _ _ _ | .vdiv _ _ _ _ _
  | .vmin _ _ _ _ _ | .vmax _ _ _ _ _ | .vcmpeq _ _ _ _ _ | .vcmplt _ _ _ _ _ | .vcmple _ _ _ _ _
  | .vrsum _ _ _ _ _ | .vrmax _ _ _ _ _ | .vrmin _ _ _ _ _ | .vdot _ _ _ _ _ => some ruleArith
  | .vsqrt _ _ _ _ => some ruleSqrt
  | .vfn _ _ _ _ _ => some ruleFn
  | .vsll _ _ _ _ _ | .vsrl _ _ _ _ _ | .vsra _ _ _ _ _ => some ruleShift
  | .vsel _ _ _ _ _ | .vperm _ _ _ _ _ => some ruleSel
  | .vbcst _ _ _ _ | .vins _ _ _ _ _ => some ruleBcst
  | .vext _ _ _ _ _ => some ruleExt
  | .vcvt _ _ _ _ _ _ => some ruleVcvt
  | .vand _ _ _ _ _ | .vor _ _ _ _ _ | .vxor _ _ _ _ _ | .vmov _ _ _ _ => some ruleNone
  | .fcvt _ _ _ _ _ => some ruleFcvt
  | .fcvti _ _ _ _ => some ruleFcvti
  | .fcvtf _ _ _ _ => some ruleFcvtf
  | .accv _ _ _ _ => some ruleAccv
  | _ => none

/-- The prefix that applies to the current thread's instruction, if one is pending (R87). -/
def State.pending (s : State) : Option (BitVec 12) := if s.th.pp then some s.th.pf else none

/-- A consumer takes its prefix: ILLPFX if it rejects a code; PP and PF are cleared with its own writes (R87). -/
def State.takePrefix (s : State) (r : PfxRule) : Res Unit :=
  match s.pending with
  | none => .ok s ()
  | some pf => if r.admits pf then .ok (s.setTh (s.th.setPrefix false 0)) () else .trap s (s.badWord .illpfx)

end Sys2Proof.Machine
end

