-- ==== Sys2Proof/Machine/Matrix.lean ====
section
/-! DEFINITION. The matrix instructions (spec/12_matrix.md R251 to R270). -/

namespace Sys2Proof.Machine

/-- TCFG (R253). -/
def execTcfg (k : Tile) (a : Reg) (s : State) : Out := s.matOp (.tcfg k (s.g a))
/-- TLD (R258). -/
def execTld (k : Tile) (a b : Reg) (s : State) : Out := s.matOp (.tld k (s.g a) (s.g b))
/-- TST (R258). -/
def execTst (k : Tile) (a b : Reg) (s : State) : Out := s.matOp (.tst k (s.g a) (s.g b))
/-- TZ (R259). -/
def execTz (k : Tile) (s : State) : Out := s.matOp (.tz k)
/-- TSCL (R256). -/
def execTscl (k : Tile) (a b : Reg) (s : State) : Out := s.matOp (.tscl k (s.g a) (s.g b))
/-- MMA (R264). -/
def execMma (ta tb : Bool) (rm : RM) (ad : Acc) (ka kb : Tile) (s : State) : Out := s.matOp (.mma ta tb rm ad ka kb)
/-- ACZ (R262). -/
def execAcz (ad : Acc) (a : Reg) (s : State) : Out := s.matOp (.acz ad (s.g a))
/-- ACLD (R262). -/
def execAcld (ad : Acc) (a b : Reg) (s : State) : Out := s.matOp (.acld ad (s.g a) (s.g b))
/-- ACST (R262). -/
def execAcst (ad : Acc) (a b : Reg) (s : State) : Out := s.matOp (.acst ad (s.g a) (s.g b))

/-- ACCV (R263): its prefix names the format. -/
def execAccv (rm : RM) (sat : Bool) (k : Tile) (aa : Acc) (s : State) : Out :=
  let fmt := s.pending.map pfFmtD
  ((s.takePrefix ruleAccv).bind fun s' _ => s'.matIssue (.accv rm sat k aa fmt)).out s

/-- TRDC (R254): taken after the thread's earlier operations on the register. -/
def execTrdc (d : Reg) (r : TileOrAcc) (s : State) : Out :=
  let k := s.cpu
  match r with
  | .tile i => if k.regBusy s.cur.2 (.tile i) then .next (s.waitOn .queueFull) else .next (s.setG d (k.tile i).cfg)
  | .acc i => if k.regBusy s.cur.2 (.acc i) then .next (s.waitOn .queueFull) else .next (s.setG d (k.acc i).shape)

/-- A relaxed read by TLDK or QLD, made at its step: VADDR for the device register window (R260, R287). -/
def State.stepRead (s : State) (p : Word) (n : Nat) : Res (List Byte) :=
  if regionOf (vaOf p) = .dev then .trap s (Cause.vaddr.info p 1) else s.readMem p n false

/-- One Shale block read at a step (R260): its elements and the pointer after it; n bounds its halfwords. -/
def State.stepShale (s : State) (p : Word) : Nat → List Byte → Res (List Nat × Word)
  | 0, _ => .trap s (Cause.shfmt.info p)
  | fuel + 1, bs =>
    match decodeShale bs with
    | .bad => .trap s (Cause.shfmt.info p)
    | .ok es n => .ok s (es, p + BitVec.ofNat 64 n)
    | .need => (s.stepRead (p + BitVec.ofNat 64 bs.length) 2).bind fun s b => State.stepShale s p fuel (bs ++ b)

/-- Blocks read one after another at a step. -/
def State.stepShales (s : State) : Nat → Word → List Nat → Res (List Nat × Word)
  | 0, p, acc => .ok s (acc, p)
  | n + 1, p, acc => (s.stepShale p 24 []).bind fun s r => State.stepShales s n r.2 (acc ++ r.1)

/-- TLDK (R260): performed at its step. -/
def execTldk (d : Reg) (k : Tile) (a : Reg) (s : State) : Out :=
  let p := s.g a
  let t := s.cpu.tile k
  if s.cpu.regHeld s.cur.2 (.tile k) then .next (s.waitOn .queueFull)
  else if !cfgDone t.cfg || tileFmt t.cfg != .e4m3sh then .next (s.raise Cause.mcfg.info)
  else if p.toNat % 2 ≠ 0 then .next (s.raise (Cause.align.info p))
  else
    ((s.stepShales (cfgRows t.cfg * (cfgCols t.cfg / 32)) p []).bind fun s r =>
      let k' := s.cpu.setTile k { s.cpu.tile k with data := memOf (r.1.map (BitVec.ofNat 8)) }
      .ok ((s.setCpu k').setG d (r.2 - p)) ()).out s

/-- Every matrix operation of a slot has completed, and every deferred trap that one of them has reported has been taken (R269). -/
def Core.matSettled (k : Core) (sl : Nat) : Bool := (k.matOps sl).isEmpty && !(k.thread sl).reports.any (·.mat)

/-- MSYNC (R269): it waits while an operation of the thread has not completed, or a deferred trap has not been taken. -/
def execMsync (s : State) : Out :=
  match s.th.wait with
  | .msyncOk => .next (s.setTh { s.th with wait := .none })
  | _ => if s.cpu.matSettled s.cur.2 then .next s else .next (s.waitOn .msync)

/-- MSYNC_COMPLETE (R269). -/
def execMsyncComplete (s : State) : Out :=
  let c := s.ev.c
  let sl := s.ev.sl
  match (s.thread c sl).wait with
  | .msync => if (s.core c).matSettled sl then .next (s.wake c sl .msyncOk) else .next s
  | _ => .next s

end Sys2Proof.Machine
end

