-- ==== Sys2Proof/Machine/Orth.lean ====
section
/-! DEFINITION. The instructions of the orthogonal accumulator (spec/13_orthogonal_accumulator.md R271 to R290). -/

namespace Sys2Proof.Machine

/-- QCFG (R274). -/
def execQcfg (q : QReg) (a : Reg) (s : State) : Out := s.matOp (.qcfg q (s.g a))
/-- QZ (R275). -/
def execQz (q : QReg) (s : State) : Out := s.matOp (.qz q)
/-- QAPP (R278): τ is the f register as it stands at issue. -/
def execQapp (rm : RM) (q : QReg) (k : Tile) (b : Reg) (col : BitVec 4) (s : State) : Out :=
  s.matOp (.qapp rm q k (s.f b) col)
/-- QAPL (R281). -/
def execQapl (t : Bool) (rm : RM) (ad : Acc) (q : QReg) (s : State) : Out := s.matOp (.qapl t rm ad q)
/-- QAPR (R281). -/
def execQapr (t : Bool) (rm : RM) (ad : Acc) (q : QReg) (s : State) : Out := s.matOp (.qapr t rm ad q)
/-- QFOLD (R280). -/
def execQfold (rm : RM) (q : QReg) (s : State) : Out := s.matOp (.qfold rm q)
/-- QST (R286). -/
def execQst (q : QReg) (a : Reg) (s : State) : Out := s.matOp (.qst q (s.g a))
/-- QFORM (R288). -/
def execQform (rm : RM) (q : QReg) (a b : Reg) (s : State) : Out := s.matOp (.qform rm q (s.g a) (s.g b))

/-- QRD (R284): after the thread's earlier operations on the register. -/
def execQrd (d : Reg) (q : QReg) (s : State) : Out :=
  if s.cpu.regBusy s.cur.2 (.orth q) then .next (s.waitOn .queueFull) else .next (s.setG d (s.cpu.orth q).st)

/-- The header of an image is refused (R287). -/
def imageBad (w0 w1 : Word) (rest : List Byte) : Bool :=
  fldN w0 19 5 != 0 || bitAt w0 30 || fldN w0 14 2 != 0 || bitAt w0 7 || w1 != 1 || rest.any (· != 0)
    || !cfgDone w0 || !orthInRange w0 || decide (orthK w0 > orthCap w0)

/-- Lines read at a step, one after another. -/
def State.stepLines (s : State) : Nat → Word → List Byte → Res (List Byte)
  | 0, _, acc => .ok s acc
  | n + 1, p, acc => (s.stepRead p 64).bind fun s bs => State.stepLines s n (p + 64) (acc ++ bs)

/-- The register that an image holds (R287). -/
def orthOfImage (w : Word) (bs : List Byte) : OrthReg :=
  let F := orthFmt w
  let n := orthN w
  let c := orthCap w
  let k := orthK w
  let m := memOf (bs.drop 64)
  let z := orthEsz w
  let y := arrOf m F n k c
  let t := arrOf (memOf (bs.drop (64 + z * n * c))) F k k c
  let e := arrOf (memOf (bs.drop (64 + z * (n * c + c * c)))) F n n n
  Orth.reg { F, n, cap := c, k, ef := orthEf w, folds := orthFolds w, y, t, e } w

/-- QLD (R287): performed at its step. -/
def execQld (q : QReg) (a : Reg) (s : State) : Out :=
  let p := s.g a
  if s.cpu.regHeld s.cur.2 (.orth q) then .next (s.waitOn .queueFull)
  else if p.toNat % 64 ≠ 0 then .next (s.raise Cause.align.info)
  else
    ((s.stepRead p 64).bind fun s h =>
      let w0 := zext (h.take 8)
      if imageBad w0 (zext ((h.drop 8).take 8)) (h.drop 16) then .trap s (Cause.mcfg.info 0 w0)
      else
        (s.stepLines ((orthSize w0 + 63) / 64 - 1) (p + 64) h).bind fun s bs =>
          .ok (s.setCpu (s.cpu.setOrth q (orthOfImage w0 bs))) ()).out s

end Sys2Proof.Machine
end

