-- ==== Sys2Proof/Machine/Sys.lean ====
section
/-! DEFINITION. SYS instructions but the rights requests: traps and their return, control and status registers, IFENCE, locked
lines, FMTP and NOP (spec/08_system_traps_rights.md R196 to R210; spec/01_machine_state.md R11 to R21; spec/03_encoding.md R86,
R87, R91). -/

namespace Sys2Proof.Machine

/-! ### Traps (R202 to R204) -/

/-- TRAP (R202): the step completes, its end test included; then the trap is taken with the next PC, once a vector operation that slot A of
the step has queued has completed (R223). -/
def execTrap (n : BitVec 12) (s : State) : Out :=
  let t := s.th.advance s.iss.disp s.iss.next
  let i := Cause.trap.info 0 (n.setWidth 64)
  if s.cpu.vecBusy s.cur.2 then .next ((s.setTh t).waitOn (.trapping i t.pc)) else .next ((s.setTh t).takeTrap i t.pc)

/-- EBRK (R203). -/
def execEbrk (n : BitVec 12) (s : State) : Out := .next (s.raise (Cause.ebrk.info 0 (n.setWidth 64)))

/-- RETT (R204). -/
def execRett (s : State) : Out := if s.th.inTrap then .next s.returnTrap else .next (s.raise (s.badWord .illins))

/-- The issue of a word that is no instruction (R86): ILLINS. -/
def execUnassignedOpcode (word : BitVec 32) (s : State) : Out :=
  .next (s.raise (wordInfo .illins s.iss.slotA s.iss.addr word))

/-- NOP (R91). -/
def execNop (s : State) : Out := .next s

/-- The imm12 of FMTP (R87). -/
def fmtpImm (f1 f2 fd : Fmt) : BitVec 12 := fd.code ++ f2.code ++ f1.code

/-- FMTP (R87): the prefix of the next instruction; ILLPFX where one is pending already. -/
def execFmtp (f1 f2 fd : Fmt) (s : State) : Out :=
  if s.th.pp then .next (s.raise (s.badWord .illpfx)) else .next (s.setTh (s.th.setPrefix true (fmtpImm f1 f2 fd)))

/-! ### The CSR map (R20, R205) -/

/-- The identity register of a thread in a slot (R17). -/
def Ident.word (i : Ident) (owner sl : Nat) : Word :=
  BitVec.ofNat 64 (owner <<< 48 + i.cx.toNat <<< 42 + i.cy.toNat <<< 37 + i.w <<< 24 + sl <<< 20 + i.nth.toNat <<< 8 + i.tix.toNat)

/-- The identity register of the current thread (R17). -/
def State.identity (s : State) : Word := s.th.id.word (s.ownerOf s.cur.1) s.cur.2

/-- The status register of a stream port (R232). -/
def Port.csr (q : Port) : Word := BitVec.ofNat 64 (q.left % 2 ^ 48)
/-- The code of a port's state (R232). -/
def PortState.code : PortState → Nat
  | .unbound => 0 | .bound => 1 | .running => 2
/-- The binding register of a stream port (R232). -/
def Port.bindCsr (q : Port) : Word :=
  BitVec.ofNat 64 (q.st.code <<< 8 + fldN q.d1 50 1 <<< 7 + fldN q.d1 48 2 <<< 5 + q.vreg)

/-- The value of a CSR of the current thread; none for an unassigned number (R20, R232, R330). -/
def State.csr (s : State) (n : Nat) : Option Word :=
  let t := s.th
  let ctx := s.myCtx
  match n with
  | 0x000 => some (t.fflags.setWidth 64)
  | 0x001 => some (t.fenable.setWidth 64)
  | 0x002 => some (t.srseed.setWidth 64)
  | 0x003 => some t.status
  | 0x004 => some t.tr.uvec
  | 0x008 | 0x100 => some t.tr.tcause
  | 0x009 | 0x101 => some t.tr.taddr
  | 0x00A | 0x102 => some t.tr.tpc
  | 0x00B | 0x103 => some t.tr.tval
  | 0x010 => some t.loops.lc0
  | 0x011 => some t.loops.ls0
  | 0x012 => some t.loops.le0
  | 0x013 => some t.loops.lc1
  | 0x014 => some t.loops.ls1
  | 0x015 => some t.loops.le1
  | 0x018 => some t.tr.tfLoops.lc0
  | 0x019 => some t.tr.tfLoops.ls0
  | 0x01A => some t.tr.tfLoops.le0
  | 0x01B => some t.tr.tfLoops.lc1
  | 0x01C => some t.tr.tfLoops.ls1
  | 0x01D => some t.tr.tfLoops.le1
  | 0x01E => some t.tr.tfStatus
  | 0x020 => some s.identity
  | 0x021 => some t.id.crew
  | 0x022 => some t.id.launch
  | 0x023 => some t.id.extents
  | 0x024 => some t.id.alloc
  | 0x025 => some t.merged
  | 0x030 => some (BitVec.ofNat 64 (s.now - s.cpu.born))
  | 0x040 => some ctx.audit
  | 0x041 => some ctx.aliasSat
  | 0x050 => some t.ports[0].csr
  | 0x051 => some t.ports[1].csr
  | 0x052 => some t.ports[2].csr
  | 0x053 => some t.ports[3].csr
  | 0x054 => some t.ports[0].bindCsr
  | 0x055 => some t.ports[1].bindCsr
  | 0x056 => some t.ports[2].bindCsr
  | 0x057 => some t.ports[3].bindCsr
  | 0x104 => some t.tr.tvec
  | 0x200 => some (BitVec.ofNat 64 (s.ownerOf s.cur.1))
  | 0x300 => some Config.partCode
  | 0x301 => some Config.stepping
  | 0x302 => some (BitVec.ofNat 64 Config.ncores)
  | 0x303 => some (BitVec.ofNat 64 Config.spadKiB)
  | 0x304 => some (BitVec.ofNat 64 Config.clkMHz)
  | _ => none

/-- A CSR admits a write (R20, R21). -/
def csrWritable (n : Nat) : Bool :=
  decide (n ≤ 0x01E) || decide (0x100 ≤ n ∧ n ≤ 0x104)

/-- A word with the bits of a mask taken from another: the fields a write may not change stay (R21). -/
def maskWrite (mask old new : Word) : Word := (old &&& ~~~mask) ||| (new &&& mask)

/-- The bits of status and tf.status that a CSR write changes (R12, R13): at S level also LL, IT and PL of status, LL and PL of
tf.status. -/
def statusMask (sLevel frame : Bool) : Word :=
  let base : Word := 0x1FFFC
  if sLevel then base ||| 0x80003 else if frame then base ||| 0x2 else base

/-- A pointer to a bundle: bits 2:0 read as zero (R11, R20). -/
def bundleBits (x : Word) : Word := setFld x 0 3 0

/-- The thread with a CSR written (R205): only what the level may write changes. -/
def Thread.writeCsr (t : Thread) (n : Nat) (x : Word) : Thread :=
  let r := t.tr
  match n with
  | 0x000 => { t with fflags := fld x 0 6 }
  | 0x001 => { t with fenable := fld x 0 6 }
  | 0x002 => { t with srseed := if fldN x 0 32 = 0 then 1 else fld x 0 32 }
  | 0x003 => { t with status := maskWrite (statusMask t.sLevel false) t.status x }
  | 0x004 => { t with tr := { r with uvec := bundleBits x } }
  | 0x008 | 0x100 => { t with tr := { r with tcause := maskWrite 0x3FF r.tcause x } }
  | 0x009 | 0x101 => { t with tr := { r with taddr := x } }
  | 0x00A | 0x102 => { t with tr := { r with tpc := setFld x 0 2 0 } }
  | 0x00B | 0x103 => { t with tr := { r with tval := x } }
  | 0x010 => { t with loops := { t.loops with lc0 := x } }
  | 0x011 => { t with loops := { t.loops with ls0 := bundleBits x } }
  | 0x012 => { t with loops := { t.loops with le0 := bundleBits x } }
  | 0x013 => { t with loops := { t.loops with lc1 := x } }
  | 0x014 => { t with loops := { t.loops with ls1 := bundleBits x } }
  | 0x015 => { t with loops := { t.loops with le1 := bundleBits x } }
  | 0x018 => { t with tr := { r with tfLoops := { r.tfLoops with lc0 := x } } }
  | 0x019 => { t with tr := { r with tfLoops := { r.tfLoops with ls0 := x } } }
  | 0x01A => { t with tr := { r with tfLoops := { r.tfLoops with le0 := x } } }
  | 0x01B => { t with tr := { r with tfLoops := { r.tfLoops with lc1 := x } } }
  | 0x01C => { t with tr := { r with tfLoops := { r.tfLoops with ls1 := x } } }
  | 0x01D => { t with tr := { r with tfLoops := { r.tfLoops with le1 := x } } }
  | 0x01E => { t with tr := { r with tfStatus := maskWrite (statusMask t.sLevel true) r.tfStatus x } }
  | 0x104 => { t with tr := { r with tvec := bundleBits x } }
  | _ => t

/-- A CSR instruction with its register and whether it writes it (R205). -/
def csrAccess : Instr → Option (BitVec 12 × Bool)
  | .csrr _ n => some (n, false)
  | .csrw _ n _ => some (n, true)
  | .csrs _ n a | .csrc _ n a => some (n, a != 0)
  | _ => none

/-- A level that names a CSR of the range 0x100 to 0x2FF raises PRIV at U level, before any other cause of the instruction (R21). -/
def csrPriv (sLevel : Bool) (n : Nat) : Bool := decide (0x100 ≤ n) && decide (n ≤ 0x2FF) && !sLevel

/-- ILLINS of an instruction that its encoding alone does not decide, at step 3 of R72: a CSR number that is unassigned, or read-only
and written (R21); RETT outside a trap (R204); a level of LCANCEL or LCOUNT that does not admit its operand (R192, R194). -/
def State.illegal (s : State) (i : Instr) : Bool :=
  match csrAccess i with
  | some (n, wr) => !csrPriv s.th.sLevel n.toNat && ((s.csr n.toNat).isNone || (wr && !csrWritable n.toNat))
  | none =>
    match i with
    | .rett => !s.th.inTrap
    | .lcancel _ a lvl | .lcount _ a lvl => badLevel lvl (s.g a)
    | _ => false

/-- A CSR instruction (R205): the checks of R21, then the old value to gd and the new value, if it writes one. -/
def State.csrOp (s : State) (d : Reg) (csr : BitVec 12) (new : Word → Option Word) : Out :=
  let n := csr.toNat
  if csrPriv s.th.sLevel n then .next (s.raise Cause.priv.info)
  else
    match s.csr n with
    | none => .next (s.raise (s.badWord .illins))
    | some v =>
      match new v with
      | none => .next (s.setG d v)
      | some x =>
        if csrWritable n then .next ((s.setTh (s.th.writeCsr n x)).setG d v)
        else .next (s.raise (s.badWord .illins))

/-- CSRR (R205). -/
def execCsrr (d : Reg) (csr : BitVec 12) (s : State) : Out := s.csrOp d csr (fun _ => none)
/-- CSRW (R205). -/
def execCsrw (d : Reg) (csr : BitVec 12) (a : Reg) (s : State) : Out := s.csrOp d csr (fun _ => some (s.g a))
/-- CSRS (R205). -/
def execCsrs (d : Reg) (csr : BitVec 12) (a : Reg) (s : State) : Out :=
  s.csrOp d csr (fun v => if a = 0 then none else some (v ||| s.g a))
/-- CSRC (R205). -/
def execCsrc (d : Reg) (csr : BitVec 12) (a : Reg) (s : State) : Out :=
  s.csrOp d csr (fun v => if a = 0 then none else some (v &&& ~~~(s.g a)))

/-! ### IFENCE and locked lines (R207 to R210) -/

/-- IFENCE (R207): the core's dirty bytes are written; nothing that the thread has stored is kept from its fetches any longer; the
unlocked lines go, and the locked ones are filled again. It waits where one of them has to, and then goes on with those left. -/
def execIfence (s : State) : Out :=
  let c := s.cur.1
  let finish (s : State) : Res Unit :=
    (s.refillStale c).bind fun s _ => .ok (s.setTh { s.th with wait := .none }) ()
  (match s.th.wait with
    | .refillOk => finish s
    | _ =>
      (s.release c .clu).bind fun s _ =>
        let k := s.cpu
        finish ((s.setCpu { k with unfenced := k.unfenced.filter (fun u => u.slot != s.cur.2) }).staleIcache c (fun _ => true))).out s

/-- The pointers of the lines that ILOCK and IUNLK name. -/
def lockRange (a : Word) (nM1 : BitVec 8) : List Word :=
  (List.range (nM1.toNat + 1)).map (fun j => a + BitVec.ofNat 64 (128 * j))

/-- The lines of ILOCK checked as fetches (R208). -/
def State.checkFetches (s : State) : List Word → Res Unit
  | [] => .ok s ()
  | p :: t => (s.checkFetch s.cur.1 s.th.sLevel p).bind fun s _ => State.checkFetches s t

/-- A line of the current thread's core is locked. -/
def State.lineLocked (s : State) (p : Word) : Bool := (s.iline s.cur.1 p).any (·.locked)

/-- A held line that serves a lock of it: checked through the pointer, sound, and as memory has it for the thread (R208). -/
def State.servingLine (s : State) (p : Word) : Option ILine :=
  if s.ownFetch s.cur.1 p then none
  else (s.iline s.cur.1 p).filter (fun l => l.answers p && bitAt l.ok 0 && l.bad == 0 && !l.stale)

/-- Lines fetched for locking (R208): each that the instruction cache does not hold already comes into it, so that a wait for one line
loses no other. -/
def State.fillLines (s : State) : List Word → Res (List ILine)
  | [] => .ok s []
  | p :: t =>
    match s.servingLine p with
    | some l => (State.fillLines s t).bind fun s ls => .ok s (l :: ls)
    | none =>
      (s.fill s.cur.1 (some s.cur.2) s.th.sLevel p).bind fun s l =>
        (State.fillLines ((s.noteLatent s.cur.1 l).putIline s.cur.1 l) t).bind fun s ls => .ok s (l :: ls)

/-- Fetched lines are locked in the current thread's core. -/
def State.lockLines (s : State) (ls : List ILine) : State :=
  ls.foldl (fun s l => s.putIline s.cur.1 { l with locked := true }) s

/-- The lines of pointers in the current thread's core are unlocked; one that an IFENCE has still to fill again goes (R207). -/
def State.unlockLines (s : State) (ps : List Word) : State :=
  let keys := ps.map (s.lineKey s.cur.1)
  let k := s.cpu
  s.setCpu { k with icache := k.icache.filterMap (fun l =>
    if !keys.contains l.key then some l else if l.stale then none else some { l with locked := false }) }

/-- ILOCK (R208): all or nothing; 1 << 32 where the core would hold more than 256 locked lines. -/
def execIlock (d a : Reg) (nM1 : BitVec 8) (s : State) : Out :=
  let p := s.g a
  let range := lockRange p nM1
  ((if fldN p 0 7 ≠ 0 then Res.trap s (Cause.align.info p)
  else
    (s.checkFetches range).bind fun s _ =>
      let new := range.filter (fun q => !s.lineLocked q)
      if (s.cpu.icache.filter (·.locked)).length + new.length > 256 then .ok (s.setG d (BitVec.ofNat 64 (2 ^ 32))) ()
      else
        (s.fillLines new).bind fun s ls =>
          .ok ((s.lockLines ls).setG d (BitVec.ofNat 64 (nM1.toNat + 1))) ())).out s

/-- IUNLK (R209). -/
def execIunlk (d a : Reg) (nM1 : BitVec 8) (s : State) : Out :=
  let p := s.g a
  let range := lockRange p nM1
  if fldN p 0 7 ≠ 0 then .next (s.raise (Cause.align.info p))
  else if range.any (fun q => regionOf (vaOf q) == .reserved) then .next (s.raise Cause.vaddr.info)
  else
    let hit := range.filter (fun q => s.lineLocked q)
    .next ((s.unlockLines hit).setG d (BitVec.ofNat 64 hit.length))

end Sys2Proof.Machine
end

