-- ==== Sys2Proof/Machine/Image.lean ====
section
/-! DEFINITION. The image of a saved context, its layout and its reading (spec/20_preemption_faults.md R347 to R352;
spec/21_program_preemption.md R362). The layout inside sections 4 to 7 is the model's (log 13). -/

namespace Sys2Proof.Machine

/-! ### Packing -/

/-- Fields with their widths packed into a number, the first lowest. -/
def packBits : List (Nat × Nat) → Nat
  | [] => 0
  | (w, v) :: t => v % 2 ^ w + 2 ^ w * packBits t

/-- The fields of given widths of a number, the first lowest. -/
def unpackBits : List Nat → Nat → List Nat
  | [], _ => []
  | w :: t, x => x % 2 ^ w :: unpackBits t (x / 2 ^ w)

/-- A number rounded up to a multiple of 64. -/
def up64 (n : Nat) : Nat := (n + 63) / 64 * 64

/-- Words of 8 bytes as bytes. -/
def wordBytes (ws : List Word) : List Byte := ws.flatMap (fun w => leBytes 8 w.toNat)

/-- Bytes as words of 8 bytes. -/
def bytesWords (bs : List Byte) : List Word := (pieces 8 bs.length bs).map (fun b => BitVec.ofNat 64 (leNat b))

/-! ### Thread records (R348) -/

/-- The loop registers as words, in CSR order. -/
def Loops.words (l : Loops) : List Word := [l.lc0, l.ls0, l.le0, l.lc1, l.ls1, l.le1]

/-- The loop registers of a trap frame from words (R13). -/
def loopsOf (w : List Word) : Loops :=
  let at_ (i : Nat) : Word := w.getD i 0
  { lc0 := at_ 0, ls0 := at_ 1, le0 := at_ 2, lc1 := at_ 3, ls1 := at_ 4, le1 := at_ 5 }

/-- The fields of status and tf.status (R12), of tcause (R197) and of the crew allocation (R330): a register's reserved bits read zero,
whatever an image holds (R4). -/
def statusFields : Word := 0x9FFFF
/-- The fields of tcause (R197). -/
def causeFields : Word := 0xFFF
/-- The fields of the crew allocation (R330). -/
def allocFields : Word := 0x1FF0003FFFF

/-- A stream port's five words. -/
def Port.words (q : Port) : List Word := [q.base, q.d1, q.d2, q.d3, q.bindCsr ||| BitVec.ofNat 64 (q.left % 2 ^ 48 * 2 ^ 16)]

/-- A port's state from its code (R232). -/
def portStateOf (n : Nat) : PortState :=
  match n with
  | 1 => .bound
  | 2 => .running
  | _ => .unbound

/-- A stream port from its words; elements are checked and read again after a restore (R239). -/
def portOf (w : List Word) : Port :=
  let x := w.getD 4 0
  { st := portStateOf (fldN x 8 2), base := w.getD 0 0, d1 := w.getD 1 0, d2 := w.getD 2 0, d3 := w.getD 3 0
    vreg := fldN x 0 5, left := fldN x 16 48 }

/-- A report's three words. -/
def TrapInfo.words (i : TrapInfo) : List Word := [i.cause, i.taddr, i.tval]

/-- The record of a thread, given its identity register (R348). -/
def Thread.record (t : Thread) (ident : Word) : List Word :=
  [t.pc] ++ t.g.toList.drop 1 ++ t.f.toList ++ t.loops.words ++ [t.status]
    ++ [t.fflags.setWidth 64, t.fenable.setWidth 64, t.srseed.setWidth 64]
    ++ [t.tr.tcause, t.tr.taddr, t.tr.tpc, t.tr.tval] ++ t.tr.tfLoops.words ++ [t.tr.tfStatus] ++ [t.tr.uvec, t.tr.tvec]
    ++ [ident, t.id.crew, t.id.launch, t.id.extents, t.id.alloc]
    ++ t.ports.toList.flatMap Port.words
    ++ (t.reports.flatMap TrapInfo.words ++ List.replicate (12 - 3 * t.reports.length) 0)
    ++ [BitVec.ofNat 64 t.reports.length, t.merged, 0, 0]

/-- Words as a register file. -/
def regFile (w : List Word) : Vector Word 32 := Vector.ofFn (fun i => w.getD i.val 0)

/-- A thread from the words of its record (R348), with its logical coordinates and slot from the identity register (R17). -/
def threadOf (w : List Word) : Thread × Nat × Nat :=
  let at_ (i n : Nat) : List Word := (w.drop i).take n
  let word (i : Nat) : Word := w.getD i 0
  let id := word 87
  let reports := (pieces 3 4 (at_ 112 12)).map (fun r => ({ cause := r.getD 0 0 &&& causeFields, taddr := r.getD 1 0, tval := r.getD 2 0 } : TrapInfo))
  let t : Thread := {
    live := true, pc := word 0, g := regFile (0 :: at_ 1 31), f := regFile (at_ 32 32), loops := (loopsOf (at_ 64 6)).aligned
    status := word 70 &&& statusFields, fflags := fld (word 71) 0 6, fenable := fld (word 72) 0 6
    srseed := if fldN (word 73) 0 32 = 0 then 1 else fld (word 73) 0 32
    tr := {
      tcause := word 74 &&& causeFields, taddr := word 75, tpc := setFld (word 76) 0 2 0, tval := word 77
      tfLoops := loopsOf (at_ 78 6), tfStatus := word 84 &&& statusFields, uvec := bundleBits (word 85), tvec := bundleBits (word 86) }
    id := {
      cx := fld id 42 6, cy := fld id 37 5, nth := fld id 8 5, tix := fld id 0 4, w := fldN id 24 7
      crew := word 88, launch := word 89, extents := word 90, alloc := word 91 &&& allocFields }
    ports := Vector.ofFn (fun i => portOf (at_ (92 + 5 * i.val) 5))
    reports := reports.take (word 124).toNat, merged := word 125 }
  (t, 64 * fldN id 37 5 + fldN id 42 6, fldN id 20 4)

/-- The scratchpad range of a thread's crew: first byte and length (R330). -/
def Thread.range (t : Thread) : Nat × Nat := (fldN t.id.alloc 0 18, fldN t.id.alloc 32 9 * 1024)

/-- The live threads of a core by slot. -/
def Core.live (k : Core) : Map Thread := k.threads.filter (fun t => t.2.live)

/-- The first threads of the crews of threads, by slot (R330). -/
def firstsOf (ts : Map Thread) : Map Thread :=
  ts.filter (fun t => !ts.any (fun u => decide (u.1 < t.1) && u.2.id.launch == t.2.id.launch && u.2.id.crew == t.2.id.crew))

/-! ### Core and cluster records (R362) -/

/-- The numbers of configured or poisoned registers of n as a mask. -/
def maskOf (n : Nat) (p : Nat → Bool) : Nat := (List.range n).foldl (fun a i => if p i then a + 2 ^ i else a) 0

/-- The widths of an inbox entry's fields: tag, kind, status, slot, value. -/
def inboxWidths : List Nat := [16, 4, 4, 4, 64]
/-- The widths of a remembered copy's fields: count, state, status, bytes. -/
def histWidths : List Nat := [52, 2, 3, 48]

/-- The widths of a core record's fields: core; tile, accumulator and orthogonal masks with their poison; CBAR arrivals, PHASE
arrivals and votes; copies; lengths of the lists; counters, copies remembered, inbox entries, locked lines; threads that have still to
take a completed CBAR or PHASE, and those that nap (R195); the PHASE's result; the votes of threads that have ended (R184); which of a
thread's four reports are a matrix operation's (R269). -/
def coreWidths : List Nat :=
  [16, 16, 16, 4, 4, 2, 2, 16, 16] ++ List.replicate 16 32 ++ [52, 7, 7, 9] ++ List.replicate 64 64
    ++ List.replicate 64 105 ++ List.replicate 64 92 ++ List.replicate 256 57 ++ [16, 16, 16, 64, 32, 32, 64]

/-- The code of a copy's end in a core record. -/
def endCode : CopyState → Nat
  | .done => 0
  | .killed => 1
  | _ => 2

/-- A copy's end from its code. -/
def endOf (n : Nat) : CopyState :=
  match n with
  | 0 => .done
  | 1 => .killed
  | _ => .failed

/-- A list padded with zeros to a length. -/
def padTo (n : Nat) (l : List Nat) : List Nat := l ++ List.replicate (n - l.length) 0

/-- A thread was stopped in NAP (R195). -/
def Thread.naps (t : Thread) : Bool :=
  match t.wait with
  | .nap _ _ => true
  | _ => false

/-- The fields of a core's record. -/
def Core.fields (k : Core) (no : Nat) : List Nat :=
  let t (i : Nat) : TileReg := k.tile (BitVec.ofNat 4 i)
  let a (i : Nat) : AccReg := k.acc (BitVec.ofNat 2 i)
  let q (i : Nat) : OrthReg := k.orth (BitVec.ofNat 1 i)
  let th (i : Nat) : Thread := k.thread i
  let hist := k.hist.map (fun h => packBits (histWidths.zip [h.count, endCode h.st, h.status.toNat, Nat.min h.bytes (2 ^ 48 - 1)]))
  let inbox := k.inbox.map (fun e => packBits (inboxWidths.zip
    [fldN e.w0 48 16, fldN e.w0 40 8, fldN e.w0 32 8, e.slot, e.w1.toNat]))
  let locks := (k.icache.filter (·.locked)).map (fun l => l.ptr.toNat / 128)
  [no, maskOf 16 (fun i => cfgDone (t i).cfg), maskOf 16 (fun i => (t i).poison), maskOf 4 (fun i => cfgDone (a i).shape),
    maskOf 4 (fun i => (a i).poison), maskOf 2 (fun i => cfgDone (q i).st), maskOf 2 (fun i => (q i).poison),
    maskOf 16 (fun i => (th i).live && (th i).cbarArrived), maskOf 16 (fun i => (th i).live && (th i).vote.isSome)]
    ++ (List.range 16).map (fun i => if (th i).live then (((th i).vote).getD 0).toNat else 0) ++ [k.copies, hist.length, inbox.length, locks.length]
    ++ (List.range 64).map (fun i => (k.cnt i).toNat) ++ padTo 64 hist ++ padTo 64 inbox ++ padTo 256 locks
    ++ [maskOf 16 (fun i => (th i).live && (th i).cbarDone), maskOf 16 (fun i => (th i).live && (th i).phaseRes.isSome),
      maskOf 16 (fun i => (th i).live && (th i).naps),
      (((k.live.filterMap (fun (t : Nat × Thread) => t.2.phaseRes)).head?).getD 0).toNat, k.endedOr.toNat, k.endedSum.toNat,
      maskOf 64 (fun i => (th (i / 4)).live && (((th (i / 4)).reports[i % 4]?).map (·.mat)).getD false)]

/-- A core's record. -/
def Core.record (k : Core) (no : Nat) : List Byte := leBytes 4096 (packBits (coreWidths.zip (k.fields no)))

/-- The widths of a cluster record's fields: cluster, then 16 barriers: members, mode, generation, arrivals. -/
def clusterWidths : List Nat := 16 :: (List.replicate 16 ([48, 1, 32] ++ List.replicate 48 4)).flatten

/-- A cluster's record. -/
def Cluster.record (k : Cluster) (lc : Nat) : List Byte :=
  let bar (i : Nat) : List Nat :=
    let b := Map.getD k.bars i {}
    [b.mask.toNat, if b.strict then 1 else 0, b.gen.toNat] ++ (List.range 48).map (fun p => Map.getD b.n p 0)
  leBytes 1024 (packBits (clusterWidths.zip (lc :: (List.range 16).flatMap bar)))

/-- A cluster's barriers from its record. -/
def barsOf (f : List Nat) : Map Barrier :=
  (List.range 16).map (fun i =>
    let b := (f.drop (1 + 51 * i)).take 51
    let n := ((List.range 48).zip (b.drop 3)).filter (fun e => e.2 != 0)
    (i, { mask := BitVec.ofNat 48 (b.getD 0 0), strict := b.getD 1 0 == 1, gen := BitVec.ofNat 32 (b.getD 2 0), n }))

/-! ### The image -/

/-- What an image holds: header fields and the cores and clusters of the context by logical number. -/
structure Image where
  forced : Bool
  owner : Nat
  prot : Bool
  vidx : Nat
  ctr : Nat
  attempt : Nat
  phases : Nat
  cores : Map Core
  clusters : Map Cluster
  deriving DecidableEq, Repr

/-- The sections 1 to 7 of an image (R347, R362). -/
def Image.sections (m : Image) : List (List Byte) :=
  let each (f : Core → List Byte) : List Byte := m.cores.flatMap (fun e => f e.2)
  [each (fun k => k.live.flatMap (fun t => wordBytes (t.2.record (t.2.id.word m.owner t.1)))),
    each (fun k => k.live.flatMap (fun t => (t.2.v.toList.take t.2.id.w).flatMap (fun v => leBytes 64 v.toNat))),
    each (fun k => (firstsOf k.live).flatMap (fun t => k.spad.bytes t.2.range.1 t.2.range.2)),
    each (fun k => (List.range 16).flatMap (fun i =>
      let t := k.tile (BitVec.ofNat 4 i)
      if cfgDone t.cfg then
        leBytes 8 t.cfg.toNat ++ t.data.bytes 0 (cfgRows t.cfg * tileRowBytes t.cfg) ++ t.band.bytes 0 256
      else [])),
    each (fun k => (List.range 4).flatMap (fun i =>
      let a := k.acc (BitVec.ofNat 2 i)
      if cfgDone a.shape then
        leBytes 8 a.shape.toNat ++ a.data.bytes 0 (cfgRows a.shape * cfgCols a.shape * accEsz a.shape)
      else [])),
    each (fun k => (List.range 2).flatMap (fun i =>
      let q := k.orth (BitVec.ofNat 1 i)
      if cfgDone q.st then q.image else [])),
    m.cores.flatMap (fun e => e.2.record e.1) ++ m.clusters.flatMap (fun e => e.2.record e.1)]

/-- The offsets and lengths of sections from an offset on (R347, R362). -/
def placeSections (at_ : Nat) : List (List Byte) → List (Nat × Nat)
  | [] => []
  | x :: t => (at_, x.length) :: placeSections (up64 (at_ + x.length)) t

/-- The sections one after another, each filled up to the next 64-byte boundary. -/
def joinSections (l : List (List Byte)) : List Byte := l.flatMap (fun x => x ++ List.replicate (up64 x.length - x.length) 0)

/-- The bytes of the sections without the last one's fill. -/
def bodyEnd (l : List (List Byte)) : Nat := (placeSections 256 l).foldl (fun _ e => e.1 + e.2) 256

/-- The length of an image with sections (R345, R362). -/
def imageLength (l : List (List Byte)) : Nat := up64 (bodyEnd l + 16)

/-- The header of an image (R347). -/
def Image.header (m : Image) (l : List (List Byte)) : List Byte :=
  let seal_ (n : Nat) : Nat := if m.prot then n else 0
  leBytes 4 0x5A39494D ++ leBytes 2 1 ++ leBytes 2 ((if m.prot then 1 else 0) + if m.forced then 2 else 0)
    ++ leBytes 2 m.owner ++ leBytes 2 (seal_ m.vidx) ++ leBytes 4 0
    ++ leBytes 8 (seal_ m.ctr) ++ leBytes 4 (seal_ m.attempt) ++ leBytes 4 0 ++ leBytes 8 (imageLength l) ++ leBytes 8 m.phases
    ++ leBytes 16 0 ++ (placeSections 256 l).flatMap (fun e => leBytes 8 e.1 ++ leBytes 8 e.2) ++ leBytes 80 0

/-- The body of an image: its bytes from 256 up to its last 16 (R351, R362). -/
def imageBody (l : List (List Byte)) : List Byte :=
  let b := joinSections l
  (b ++ List.replicate (imageLength l - 16 - 256 - b.length) 0).take (imageLength l - 16 - 256)

/-- The IV of a sealed image (R351). -/
def imageIv (ctr attempt : Nat) : List Byte := leBytes 8 ctr ++ leBytes 4 attempt

/-- The bytes of an image, sealed under a key for a protected context (R351). -/
def Image.bytes (m : Image) (key : List Byte) : List Byte :=
  let l := m.sections
  let h := m.header l
  if m.prot then
    let (ct, tag) := gcmSeal key (imageIv m.ctr m.attempt) h (imageBody l)
    h ++ ct ++ tag
  else h ++ imageBody l ++ leBytes 16 0

/-- The image lines that hold scratchpad bytes of poisoned lines (R357): they are written poisoned (log 13). -/
def Image.poisonLines (m : Image) : List Nat :=
  let first := ((placeSections 256 m.sections).getD 2 (0, 0)).1 / 64
  let flags := m.cores.flatMap (fun e => (firstsOf e.2.live).flatMap (fun t =>
    (List.range (t.2.range.2 / 64)).map (fun i => e.2.spadPoison.contains (t.2.range.1 / 64 + i))))
  ((List.range flags.length).zip flags).filterMap (fun e => if e.2 then some (first + e.1) else none)

/-! ### Reading an image (R352) -/

/-- A part of a byte string. -/
def slice (bs : List Byte) (off len : Nat) : List Byte := (bs.drop off).take len

/-- A number at an offset. -/
def numAt (bs : List Byte) (off len : Nat) : Nat := leNat (slice bs off len)

/-- The header fields that R352 checks before a tag: magic, version, flags, reserved bytes, owner, index and length. -/
def headerOk (k : Ctx) (o len : Nat) (h : List Byte) : Bool :=
  let flags := numAt h 6 2
  numAt h 0 4 == 0x5A39494D && numAt h 4 2 == 1 && decide (flags < 4) && (flags % 2 == 1) == k.prot
    && numAt h 8 2 == o && numAt h 10 2 == (if k.prot then k.vidx else 0) && numAt h 12 4 == 0 && numAt h 28 4 == 0
    && numAt h 32 8 == len && numAt h 48 16 == 0 && numAt h 176 80 == 0 && len % 64 == 0 && decide (len ≥ 320)
    && (k.prot || (numAt h 16 8 == 0 && numAt h 24 4 == 0))

/-- The live threads of the thread records: logical core, slot, thread. -/
def threadsOf (s1 s2 : List Byte) : List (Nat × Nat × Thread) :=
  ((pieces 1024 s1.length s1).foldl (fun (acc : List (Nat × Nat × Thread) × List Byte) r =>
    let (t, no, sl) := threadOf (bytesWords r)
    let vs := acc.2.take (64 * t.id.w)
    let t := { t with v := Vector.ofFn (fun i => BitVec.ofNat 512 (numAt vs (64 * i.val) 64)) }
    (acc.1 ++ [(no, sl, t)], acc.2.drop (64 * t.id.w))) ([], s2)).1

/-- The set bits of a mask of n bits, rising. -/
def bitsOf (n m : Nat) : List Nat := (List.range n).filter (fun i => m.testBit i)

/-- A core's tiles from section 4, and the rest of it. -/
def readTiles (mask poison : Nat) (bs : List Byte) : Map TileReg × List Byte :=
  let r := (bitsOf 16 mask).foldl (fun (acc : Map TileReg × List Byte) i =>
    let cfg := BitVec.ofNat 64 (numAt acc.2 0 8)
    let n := cfgRows cfg * tileRowBytes cfg
    (Map.put acc.1 i { cfg, data := memOf (slice acc.2 8 n), band := memOf (slice acc.2 (8 + n) 256) }, acc.2.drop (264 + n))) ([], bs)
  ((bitsOf 16 poison).foldl (fun m i => Map.put m i { Map.getD m i {} with poison := true }) r.1, r.2)

/-- A core's accumulators from section 5, and the rest of it. -/
def readAccs (mask poison : Nat) (bs : List Byte) : Map AccReg × List Byte :=
  let r := (bitsOf 4 mask).foldl (fun (acc : Map AccReg × List Byte) i =>
    let shape := BitVec.ofNat 64 (numAt acc.2 0 8)
    let n := cfgRows shape * cfgCols shape * accEsz shape
    (Map.put acc.1 i { shape, data := memOf (slice acc.2 8 n) }, acc.2.drop (8 + n))) ([], bs)
  ((bitsOf 4 poison).foldl (fun m i => Map.put m i { Map.getD m i {} with poison := true }) r.1, r.2)

/-- A core's orthogonal accumulators from section 6, and the rest of it. -/
def readOrths (mask poison : Nat) (bs : List Byte) : Map OrthReg × List Byte :=
  let r := (bitsOf 2 mask).foldl (fun (acc : Map OrthReg × List Byte) i =>
    let w := BitVec.ofNat 64 (numAt acc.2 0 8)
    let n := orthSize w
    (Map.put acc.1 i (orthOfImage w (acc.2.take n)), acc.2.drop n)) ([], bs)
  ((bitsOf 2 poison).foldl (fun m i => Map.put m i { Map.getD m i {} with poison := true }) r.1, r.2)

/-- A core's registers and lists from its record's fields. -/
def coreOfFields (f : List Nat) : Core :=
  let n (i : Nat) : Nat := f.getD i 0
  let cnts := ((List.range 64).map (fun i => (i, BitVec.ofNat 64 (n (29 + i))))).filter (fun e => e.2 != 0)
  let hist := ((List.range (n 26)).map (fun i => unpackBits histWidths (n (93 + i)))).map (fun h =>
    ({ count := h.getD 0 0, st := endOf (h.getD 1 0), status := BitVec.ofNat 8 (h.getD 2 0), bytes := h.getD 3 0 } : CopyDone))
  let inbox := ((List.range (n 27)).map (fun i => unpackBits inboxWidths (n (157 + i)))).map (fun e =>
    ({ slot := e.getD 3 0, w0 := entryWord (e.getD 0 0) (e.getD 1 0) (e.getD 2 0) (e.getD 3 0), w1 := BitVec.ofNat 64 (e.getD 4 0) } : InboxEntry))
  let icache := (List.range (n 28)).map (fun i =>
    ({ ptr := BitVec.ofNat 64 (128 * n (221 + i)), key := 0, bytes := [], ok := 0, locked := true } : ILine))
  { cnts, hist, inbox, icache, copies := n 25, endedOr := BitVec.ofNat 32 (n 481), endedSum := BitVec.ofNat 32 (n 482) }

/-- A thread with the barrier and PHASE state of its core's record (R178, R184) and the marks of its reports (R269); one that was saved in
NAP has its event (R195). -/
def Thread.withArrivals (t : Thread) (f : List Nat) (sl : Nat) : Thread :=
  { t with
    cbarArrived := (f.getD 7 0).testBit sl
    cbarDone := (f.getD 477 0).testBit sl
    reports := ((List.range 4).zip t.reports).map (fun e => { e.2 with mat := (f.getD 483 0).testBit (4 * sl + e.1) })
    phaseRes := if (f.getD 478 0).testBit sl then some (BitVec.ofNat 64 (f.getD 480 0)) else none
    wait := if (f.getD 479 0).testBit sl then .nap 0 true else .none
    vote := if (f.getD 8 0).testBit sl then some (BitVec.ofNat 32 (f.getD (9 + sl) 0)) else none }

/-- What reading the core records has left of the sections, and the cores so far. -/
structure CoreRead where
  cores : Map Core := []
  s3 : List Byte
  s4 : List Byte
  s5 : List Byte
  s6 : List Byte

/-- One core read from its record and its parts of the sections. -/
def CoreRead.core (r : CoreRead) (ts : List (Nat × Nat × Thread)) (f : List Nat) : CoreRead :=
  let n (i : Nat) : Nat := f.getD i 0
  let mine := (ts.filter (fun t => t.1 == n 0)).map (fun t => (t.2.1, t.2.2.withArrivals f t.2.1))
  let threads : Map Thread := mine.foldl (fun m t => Map.put m t.1 t.2) []
  let (spad, s3) := (firstsOf threads).foldl (fun (acc : Mem × List Byte) t =>
    (acc.1.setBytes t.2.range.1 (acc.2.take t.2.range.2), acc.2.drop t.2.range.2)) ([], r.s3)
  let (tiles, s4) := readTiles (n 1) (n 2) r.s4
  let (accs, s5) := readAccs (n 3) (n 4) r.s5
  let (qs, s6) := readOrths (n 5) (n 6) r.s6
  { cores := r.cores ++ [(n 0, { coreOfFields f with threads, tiles, accs, qs, spad })], s3, s4, s5, s6 }

/-- The section descriptors of a header. -/
def sectionsOf (img : List Byte) : List (List Byte) :=
  (List.range 7).map (fun i => slice img (numAt img (64 + 16 * i) 8) (numAt img (72 + 16 * i) 8))

/-- The image that decrypted bytes hold, for a context of n clusters. -/
def imageOf (prot : Bool) (n : Nat) (img : List Byte) : Image :=
  let sec := sectionsOf img
  let s (i : Nat) : List Byte := sec.getD i []
  let ts := threadsOf (s 0) (s 1)
  let recs := (pieces 4096 (48 * n) ((s 6).take (4096 * 48 * n))).map (fun b => unpackBits coreWidths (leNat b))
  let r := recs.foldl (fun (r : CoreRead) f => r.core ts f) { s3 := s 2, s4 := s 3, s5 := s 4, s6 := s 5 }
  let clusters := (pieces 1024 n ((s 6).drop (4096 * 48 * n))).map (fun b =>
    let f := unpackBits clusterWidths (leNat b)
    (f.getD 0 0, ({ bars := barsOf f } : Cluster)))
  { forced := (numAt img 6 2).testBit 1, owner := numAt img 8 2, prot, vidx := numAt img 10 2, ctr := numAt img 16 8
    attempt := numAt img 24 4, phases := numAt img 40 8, cores := r.cores, clusters }

/-- The configuration words of a core's registers are ones that TCFG, ACZ and QCFG take (R253, R262, R274), so that no reserved field holds
a one (R4); no orthogonal accumulator holds more reflectors than it has room for. -/
def Core.configsOk (k : Core) : Bool :=
  k.tiles.all (fun t => !cfgDone t.2.cfg || !tileBad (setBit t.2.cfg 31 false))
    && k.accs.all (fun a => !cfgDone a.2.shape || !accBad (setBit a.2.shape 31 false))
    && k.qs.all (fun q => !cfgDone q.2.st || (!orthBad (q.2.st &&& 0x3FFFF) && decide (orthK q.2.st ≤ orthCap q.2.st)))

/-- The sections are consistent with the context and with one another (R352): the cores and clusters are the context's, in order, the
configurations are ones that registers can hold, and what was read, laid out again, is what was offered. -/
def Image.fits (m : Image) (k : Ctx) (img : List Byte) : Bool :=
  m.cores.map (·.1) == k.cores.map (fun c => k.logNo c) && m.clusters.map (·.1) == k.tab.map (·.1)
    && m.cores.all (fun c => c.2.configsOk) && m.header m.sections ++ imageBody m.sections == img.take (img.length - 16)
    && (m.prot || img.drop (img.length - 16) == leBytes 16 0)

end Sys2Proof.Machine
end

