-- ==== Sys2Proof/Machine/Transc.lean ====
section
/-! DEFINITION. The transcendentals (spec/05_floating_point.md R133 to R138; spec/10_vector_streams.md R231): the true result to far
more bits than any format holds, and the choice that its bound and monotonicity leave (log 10). -/

namespace Sys2Proof

/-- Fraction bits of the fixed-point numbers below. -/
def fxBits : Nat := 480

/-- ln 2 with 480 fraction bits. -/
def fxLn2 : Int :=
    0xb17217f7d1cf79abc9e3 * 2 ^ 400 +
    0xb39803f2f6af40f343267298b62d8a0d175b8baafa2be7b876206debac98559552fb4afa1b10ed2eae35c138214427573b29

/-- 2 / sqrt pi with 480 fraction bits. -/
def fxErfC : Int :=
    0x120dd750429b6d11ae3a9 * 2 ^ 400 +
    0x14fed7fd8688281341d7587cea2e7342b06199cc416180eb39f0b24e1e2281806c12d98f35d77a3e9ddc91c394f0e9eedf0e

/-- pi / 2 with 1460 fraction bits. -/
def halfPi : Nat :=
    0x1921fb54442d18469898cc51701b839a252049c1114cf98e804177d4c76273644a * 2 ^ 1200 +
    0x29410f31c6809bbdf2a33679a748636605614dbe4be286e9fc26adadaa3848bc90b6aecc4bcfd8de89885d34c6fdad617feb * 2 ^ 800 +
    0x96de80d6fdbdc70d7f6b5133f4b5d3e4822f8963fcc9250cca3d9c8b67b8400f97142c77e0b31b4906c38aba734d22c7f51f * 2 ^ 400 +
    0xa499ebf06caba47b9475b2c38c5e6ac410aa5773daa520ee12d2cdace186a9c95793009e2e8d811943042f86520bc8c5c6d9

/-- The product of two fixed-point numbers. -/
def fxMul (a b : Int) : Int := a * b / 2 ^ fxBits

/-- A finite number of magnitude at least 2^-400 and exponent at least -480 in fixed point. -/
def Xr.fx (x : Xr) : Int :=
  let a : Int := if x.e + fxBits ≥ 0 then ((x.m <<< (x.e + fxBits).toNat : Nat) : Int) else ((x.m >>> (-(x.e + fxBits)).toNat : Nat) : Int)
  if x.neg then -a else a

/-- A fixed-point number times 2^k, inexact. -/
def ofFx (a : Int) (k : Int) : Xr := { neg := decide (a < 0), m := a.natAbs, e := k - fxBits, st := true }

/-- floor(log2 |x|) of a nonzero number. -/
def Xr.exp2 (x : Xr) : Int := (x.m.log2 : Int) + x.e

/-- x moved by less than one part in 2^200, toward zero. -/
def Xr.below (x : Xr) : Xr := { neg := x.neg, m := (x.m <<< 200) - 1, e := x.e - 200, st := true }
/-- x moved by less than one part in 2^200, away from zero. -/
def Xr.above (x : Xr) : Xr := { neg := x.neg, m := x.m <<< 200, e := x.e - 200, st := true }

/-- The number 1. -/
def Xr.one : Xr := { m := 1, e := 0 }

/-- The sum of r^k / k! from a term on: term is r^n / n!. -/
def expSeries (r : Int) : Nat → Nat → Int → Int
  | 0, _, _ => 0
  | f + 1, n, term => if term = 0 then 0 else term + expSeries r f (n + 1) (fxMul term r / ((n : Int) + 1))

/-- e^r for a fixed-point r of magnitude below 1. -/
def fxExp (r : Int) : Int := expSeries r 120 0 (2 ^ fxBits)

/-- The sum of t^(2k+1) / (2k+1): term is t^n, n odd. -/
def atanhSeries (t2 : Int) : Nat → Nat → Int → Int
  | 0, _, _ => 0
  | f + 1, n, term => if term = 0 then 0 else term / (n : Int) + atanhSeries t2 f (n + 2) (fxMul term t2)

/-- ln z for a fixed-point z between 1/2 and 2. -/
def fxLog (z : Int) : Int :=
  let t := (z - 2 ^ fxBits) * 2 ^ fxBits / (z + 2 ^ fxBits)
  2 * atanhSeries (fxMul t t) 200 1 t

/-- The alternating series of sine or cosine: term is r^n / n!. -/
def trigSeries (r2 : Int) : Nat → Nat → Int → Int
  | 0, _, _ => 0
  | f + 1, n, term =>
    if term = 0 then 0 else term + trigSeries r2 f (n + 2) (-(fxMul term r2 / (((n : Int) + 1) * ((n : Int) + 2))))

/-- The series of erf without its factor: term is (−1)^k r^(2k+1) / k!. -/
def erfSeries (r2 : Int) : Nat → Nat → Int → Int
  | 0, _, _ => 0
  | f + 1, k, term =>
    if term = 0 then 0 else term / (2 * (k : Int) + 1) + erfSeries r2 f (k + 1) (-(fxMul term r2 / ((k : Int) + 1)))

/-- e^x. -/
def xrExp (x : Xr) : Xr :=
  if x.exp2 < -100 then (if x.neg then Xr.one.below else Xr.one.above)
  else if x.exp2 ≥ 12 then (if x.neg then { m := 1, e := -6000, st := true } else { m := 1, e := 6000, st := true })
  else
    let k := x.fx / fxLn2
    ofFx (fxExp (x.fx - k * fxLn2)) k

/-- 2^x; exact for an integer x (R136). -/
def xrExp2 (x : Xr) : Xr :=
  if x.exp2 < -100 then (if x.neg then Xr.one.below else Xr.one.above)
  else if x.exp2 ≥ 13 then (if x.neg then { m := 1, e := -9000, st := true } else { m := 1, e := 9000, st := true })
  else
    let k := x.fx / 2 ^ fxBits
    let r := x.fx - k * 2 ^ fxBits
    if r = 0 then { m := 1, e := k } else ofFx (fxExp (fxMul r fxLn2)) k

/-- ln x in fixed point, for a positive x. -/
def fxLn (x : Xr) : Int :=
  let k := x.exp2
  let z : Xr := { x with e := x.e - k }
  -- z lies in [1, 2); above 3/2 it is halved, so that the sum does not cancel
  let (z, k) := if z.fx * 2 > 3 * 2 ^ fxBits then ({ z with e := z.e - 1 }, k + 1) else (z, k)
  fxLog z.fx + k * fxLn2

/-- A positive number is a power of two. -/
def Xr.pow2 (x : Xr) : Bool := x.m == 2 ^ x.m.log2

/-- ln x, for a positive x. -/
def xrLog (x : Xr) : Xr :=
  if x.pow2 && x.exp2 == 0 then {} else ofFx (fxLn x) 0

/-- log2 x, for a positive x; exact for a power of two (R136). -/
def xrLog2 (x : Xr) : Xr :=
  if x.pow2 then Xr.ofInt x.exp2 else ofFx (fxLn x * 2 ^ fxBits / fxLn2) 0

/-- 1 / sqrt x, for a positive x; exact for a power of four (R136). -/
def xrRsq (x : Xr) : Xr :=
  if x.pow2 && x.exp2 % 2 == 0 then { m := 1, e := -(x.exp2 / 2) }
  else
    let (m, e) := if x.e % 2 = 0 then (x.m, x.e) else (2 * x.m, x.e - 1)
    { m := isqrt 400 (2 ^ 800 / m), e := -(e / 2) - 400, st := true }

/-- The quadrant of a number's magnitude and its remainder modulo pi / 2 (R137). -/
def reducePi (x : Xr) : Nat × Int :=
  let a := x.m <<< (x.e + 1460).toNat
  (a / halfPi % 4, ((a % halfPi) >>> (1460 - fxBits) : Nat))

/-- sin r for 0 ≤ r < pi / 2. -/
def fxSin (r : Int) : Int := trigSeries (fxMul r r) 120 1 r
/-- cos r for 0 ≤ r < pi / 2. -/
def fxCos (r : Int) : Int := trigSeries (fxMul r r) 120 0 (2 ^ fxBits)

/-- sin x, for a nonzero x. -/
def xrSin (x : Xr) : Xr :=
  if x.exp2 < -40 then x.below
  else
    let (q, r) := reducePi x
    let y := if q % 2 = 0 then fxSin r else fxCos r
    ofFx (if (q ≥ 2) != x.neg then -y else y) 0

/-- cos x, for a nonzero x. -/
def xrCos (x : Xr) : Xr :=
  if x.exp2 < -100 then Xr.one.below
  else
    let (q, r) := reducePi x
    let y := if q % 2 = 0 then fxCos r else fxSin r
    ofFx (if q = 1 ∨ q = 2 then -y else y) 0

/-- tanh x, for a nonzero x. -/
def xrTanh (x : Xr) : Xr :=
  if x.exp2 < -40 then x.below
  else if x.exp2 ≥ 6 then { Xr.one.below with neg := x.neg }
  else
    let a := { x with neg := false }.fx
    let k := 2 * a / fxLn2
    let e := fxExp (2 * a - k * fxLn2) * 2 ^ k.toNat
    { ofFx ((e - 2 ^ fxBits) * 2 ^ fxBits / (e + 2 ^ fxBits)) 0 with neg := x.neg }

/-- erf x, for a nonzero x. -/
def xrErf (x : Xr) : Xr :=
  if x.exp2 < -150 then { neg := x.neg, m := x.m * fxErfC.toNat, e := x.e - fxBits, st := true }
  else
    let a := { x with neg := false }.fx
    if a ≥ 6 * 2 ^ fxBits then { Xr.one.below with neg := x.neg }
    else { ofFx (fxMul fxErfC (erfSeries (fxMul a a) 400 0 a)) 0 with neg := x.neg }

/-- The true result of a function at a finite nonzero operand in its domain. -/
def transcTrue (fn : TFn) (x : Xr) : Xr :=
  match fn with
  | .exp => xrExp x
  | .exp2 => xrExp2 x
  | .log => xrLog x
  | .log2 => xrLog2 x
  | .rcp => Xr.one.div x
  | .rsq => xrRsq x
  | .sin => xrSin x
  | .cos => xrCos x
  | .tanh => xrTanh x
  | .erf => xrErf x

/-- The bound of a function beyond faithful rounding: 2 ulp (R134). -/
def TFn.wide : TFn → Bool
  | .tanh | .erf => true
  | _ => false

/-- The interval of pi / 2 that a number's magnitude lies in. -/
def quarterOf (x : Xr) : Nat := x.m <<< (x.e + 1460).toNat / halfPi

/-- The interval on which a function is monotonic and that an operand lies in, by number, and whether the function rises there (R137). -/
def TFn.piece (fn : TFn) (x : Xr) : Int × Bool :=
  match fn with
  | .rcp | .rsq => (0, false)
  | .sin =>
    let n := (quarterOf x + 1) / 2
    (if x.neg then -(n : Int) else n, n % 2 == 0)
  | .cos =>
    let n := quarterOf x / 2
    (if x.neg then -(n : Int) - 1 else n, (n % 2 == 0) == x.neg)
  | _ => (0, true)

/-- The magnitudes M × 2^q, rising, that a bound and a mode admit for an inexact result between t and t + 1 units 2^q (R133, R135). With a
bound of 2 ulp these are the two values on either side, below a power of two those of half the spacing; the value 3/2 ulp below one lies
within the bound above it too, but could not be returned there without breaking R137 against what the bound admits just below it
(DEDUCED, log 27). Nor is the value half an ulp below a power of two returned for a result from 1 to 3/2 ulp above that power, which the bound
admits too (DESIGN CHOICE, log 27). tanh and erf stay within 1, their value at infinity (R137, R138). -/
def transcValues (fn : TFn) (p : FmtP) (rm : RM) (neg : Bool) (t : Nat) (q : Int) : List (Nat × Int) :=
  let top := 2 ^ (p.mb + 1)
  let below : List (Nat × Int) :=
    if !fn.wide || t == 0 then []
    else if 2 * t = top ∧ q > 1 - p.bias - p.mb then [(top - 2, q - 1), (top - 1, q - 1)]
    else [(t - 1, q)]
  let down := below ++ [(t, q)]
  let up := if fn.wide then [(t + 1, q), (t + 2, q)] else [(t + 1, q)]
  let all := match rm with
    | .rne | .rna | .rsr => down ++ up
    | .rtz => down
    | .rdn => if neg then up else down
    | .rup => if neg then down else up
  all.filter (fun v => decide (v.1 ≤ top) && !(fn.wide && v.2 ≤ 0 && decide (v.1 > 2 ^ (-v.2).toNat)))

/-- An operand's place in the order of its format. -/
def operandPlace (p : FmtP) (b : Nat) : Int :=
  let mag := b % 2 ^ (p.eb + p.mb)
  if b / 2 ^ (p.eb + p.mb) % 2 = 1 then -(mag : Int) else mag

/-- The result at an operand reaches a value (R137): the results of an interval reach each value from one operand on, in the direction in
which their magnitude rises; a free value says from which. -/
def reachesValue (fn : TFn) (f : Fmt) (p : FmtP) (rm : RM) (operand : Nat) (x : Xr) (neg : Bool) (seed : BitVec 32) (v : Nat × Int) : Bool :=
  let (n, rises) := fn.piece x
  let at_ := Config.transcAt fn f rm (if rm = .rsr then seed else 0) n (withSign p neg (encodeMag p v.1 v.2))
  if rises != neg then decide (at_ ≤ operandPlace p operand) else decide (operandPlace p operand ≤ at_)

/-- A result rounded within its bound (R133 to R137): an exact result that the format holds is returned as it is, with no flag; otherwise
the greatest of the admitted magnitudes that the operand reaches, or else the least, with NX and, under R48, UF or OF. -/
def transcRound (fn : TFn) (f : Fmt) (p : FmtP) (rm : RM) (operand : Nat) (x y : Xr) (l : Fl) : Nat × Fl :=
  let q := p.quantum y
  let (t, inexact) := roundAt .rtz 1 y q
  if !inexact then roundNum f p rm false y l
  else
    let vs := transcValues fn p rm y.neg t q
    let v := ((vs.drop 1).filter (reachesValue fn f p rm operand x y.neg l.seed)).getLastD (vs.headD (t, q))
    let (b, l) := roundNum f p rm false { neg := y.neg, m := v.1, e := v.2 } l
    let mag := b % 2 ^ (p.eb + p.mb)
    (b, (l.raise fNX).raiseIf (mag != 0 && decide (mag < 2 ^ p.mb)) fUF)

/-- A function at a special operand (R138): the exact result, or a value to compute. -/
def transcPre (fn : TFn) (v : Val) : Option Pre :=
  let one : Val := .num Xr.one
  match fn, v with
  | _, .nan s _ => some (.nan s)
  | .exp, .inf n | .exp2, .inf n => some (.val (if n then .num {} else .inf false))
  | .log, .inf n | .log2, .inf n => some (if n then .invalid else .val (.inf false))
  | .rcp, .inf n => some (.val (.num { neg := n }))
  | .rsq, .inf n => some (if n then .invalid else .val (.num {}))
  | .sin, .inf _ | .cos, .inf _ => some .invalid
  | .tanh, .inf n | .erf, .inf n => some (.val (.num { Xr.one with neg := n }))
  | fn, .num x =>
    if x.isZero then
      match fn with
      | .exp | .exp2 | .cos => some (.val one)
      | .log | .log2 => some (.divZero true)
      | .rcp | .rsq => some (.divZero x.neg)
      | .sin | .tanh | .erf => some (.val (.num x))
    else
      match fn with
      | .log | .log2 | .rsq => if x.neg then some .invalid else none
      | _ => none

/-- A transcendental of an operand's bits in a format, one rounding (R119, R133 to R138); FRCP is the division of 1 (R134). -/
def transc (fn : TFn) (f : Fmt) (rm : RM) (b : Nat) (l : Fl) : Nat × Fl :=
  match f.fp with
  | none => (0, l)
  | some p =>
    let v := f.val b
    if fn = .rcp then roundPre f rm (preDiv (.num Xr.one) v) l
    else
      match transcPre fn v with
      | some r => roundPre f rm r l
      | none =>
        match v with
        | .num x => transcRound fn f p rm b x (transcTrue fn x) (l.step rm)
        | _ => (0, l)

end Sys2Proof
end

