-- ==== Sys2Proof/Machine/Fp.lean ====
section
/-! DEFINITION. FP instructions (spec/05_floating_point.md R117 to R140). -/

namespace Sys2Proof.Machine

/-- An arithmetic instruction of two operands: its exact result rounded once (R122). -/
def State.fp2 (s : State) (w : Width) (rm : RM) (d a b : Reg) (f : Val → Val → Pre) : Out :=
  let F := widthFmt w
  s.finishF d (roundPre F rm (f (s.fval F a) (s.fval F b)) s.fl)

/-- FADD (R122). -/
def execFadd (w : Width) (rm : RM) (d a b : Reg) (s : State) : Out := s.fp2 w rm d a b (preAdd rm)
/-- FSUB (R122). -/
def execFsub (w : Width) (rm : RM) (d a b : Reg) (s : State) : Out := s.fp2 w rm d a b (fun x y => preAdd rm x y.negate)
/-- FMUL (R122). -/
def execFmul (w : Width) (rm : RM) (d a b : Reg) (s : State) : Out := s.fp2 w rm d a b preMul
/-- FDIV (R122). -/
def execFdiv (w : Width) (rm : RM) (d a b : Reg) (s : State) : Out := s.fp2 w rm d a b preDiv
/-- FSQRT (R122). -/
def execFsqrt (w : Width) (rm : RM) (d a : Reg) (s : State) : Out :=
  let F := widthFmt w
  s.finishF d (roundPre F rm (preSqrt (s.fval F a)) s.fl)

/-- FMIN, FMAX, FMINM and FMAXM (R124). -/
def State.fpMinMax (s : State) (w : Width) (max propagate : Bool) (d a b : Reg) : Out :=
  let F := widthFmt w
  s.finishF d (minMax F max propagate (s.fbits F a) (s.fbits F b) s.fl)

/-- FMIN (R124). -/
def execFmin (w : Width) (_rm : RM) (d a b : Reg) (s : State) : Out := s.fpMinMax w false false d a b
/-- FMAX (R124). -/
def execFmax (w : Width) (_rm : RM) (d a b : Reg) (s : State) : Out := s.fpMinMax w true false d a b
/-- FMINM (R124). -/
def execFminm (w : Width) (_rm : RM) (d a b : Reg) (s : State) : Out := s.fpMinMax w false true d a b
/-- FMAXM (R124). -/
def execFmaxm (w : Width) (_rm : RM) (d a b : Reg) (s : State) : Out := s.fpMinMax w true true d a b

/-- The compares of R125 on values: whether they hold, and whether NV is raised; quiet compares raise it for a signalling NaN
only. -/
def fpCompare (quiet : Bool) (holds : Int → Bool) (x y : Val) (l : Fl) : Bool × Fl :=
  let nv := if quiet then x.isSNaN || y.isSNaN else x.isNaN || y.isNaN
  (match compareVal x y with
    | some c => holds c
    | none => false, l.raiseIf nv fNV)

/-- A compare of two f registers into a g register (R125). -/
def State.fpCmp (s : State) (w : Width) (quiet : Bool) (holds : Int → Bool) (d a b : Reg) : Out :=
  let F := widthFmt w
  let (c, l) := fpCompare quiet holds (s.fval F a) (s.fval F b) s.fl
  s.finishG d (ofBool c, l)

/-- FEQ (R125). -/
def execFeq (w : Width) (_rm : RM) (d a b : Reg) (s : State) : Out := s.fpCmp w true (· == 0) d a b
/-- FLT (R125). -/
def execFlt (w : Width) (_rm : RM) (d a b : Reg) (s : State) : Out := s.fpCmp w false (· == -1) d a b
/-- FLE (R125). -/
def execFle (w : Width) (_rm : RM) (d a b : Reg) (s : State) : Out := s.fpCmp w false (fun c => c == -1 || c == 0) d a b

/-- The class bit of a value in a format (R126). -/
def fpClass (F : Fmt) (v : Val) : Nat :=
  match v with
  | .inf n => if n then 0 else 7
  | .nan s _ => if s then 8 else 9
  | .num x =>
    let small := match F.fp with
      | some p => decide (x.m < 2 ^ p.mb)
      | none => false
    if x.isZero then (if x.neg then 3 else 4)
    else if small then (if x.neg then 2 else 5)
    else if x.neg then 1 else 6

/-- FCLASS (R126). -/
def execFclass (w : Width) (_rm : RM) (d a : Reg) (s : State) : Out :=
  .next (s.setG d (ofBits (2 ^ fpClass (widthFmt w) (s.fval (widthFmt w) a))))

/-- The magnitude of a with a sign computed from both sign bits (R127). -/
def State.fpSign (s : State) (w : Width) (d a b : Reg) (f : Bool → Bool → Bool) : Out :=
  let F := widthFmt w
  let x := s.fbits F a
  let y := s.fbits F b
  let top := F.bits - 1
  let sign := f (x / 2 ^ top % 2 == 1) (y / 2 ^ top % 2 == 1)
  .next (s.setF d (ofBits (x % 2 ^ top + if sign then 2 ^ top else 0)))

/-- FSGN (R127). -/
def execFsgn (w : Width) (_rm : RM) (d a b : Reg) (s : State) : Out := s.fpSign w d a b (fun _ y => y)
/-- FSGNN (R127). -/
def execFsgnn (w : Width) (_rm : RM) (d a b : Reg) (s : State) : Out := s.fpSign w d a b (fun _ y => !y)
/-- FSGNX (R127). -/
def execFsgnx (w : Width) (_rm : RM) (d a b : Reg) (s : State) : Out := s.fpSign w d a b (fun x y => x != y)

/-- A value rounded to an integral value of its format (R128); only the .X form raises NX. -/
def frint (F : Fmt) (rm : RM) (x : Bool) (v : Val) (l : Fl) : Nat × Fl :=
  match v with
  | .num y =>
    let l := l.step rm
    let (M, inexact) := roundAt rm l.seed y 0
    let (b, _) := roundPre F .rne (.val (.num { neg := y.neg, m := M, e := 0 })) {}
    (b, l.raiseIf (x && inexact) fNX)
  | v => roundPre F rm (.val v) l

/-- FRINT (R128). -/
def execFrint (w : Width) (rm : RM) (x : Bool) (d a : Reg) (s : State) : Out :=
  let F := widthFmt w
  s.finishF d (frint F rm x (s.fval F a) s.fl)

/-- The source and destination formats of a conversion: the prefix's where one is pending, else the defaults (R130). -/
def State.cvtFmts (s : State) (src dst : Fmt) : Fmt × Fmt :=
  match s.pending with
  | some pf => (pfFmt1 pf, pfFmtD pf)
  | none => (src, dst)

/-- FCVT (R130, R131). -/
def execFcvt (w : Width) (rm : RM) (sat : Bool) (d a : Reg) (s : State) : Out :=
  let (src, dst) := s.cvtFmts (if w = .w32 then .fp64 else .fp32) (widthFmt w)
  ((s.takePrefix ruleFcvt).bind fun s _ =>
    let (b, l) := convert src dst rm sat (s.f a).toNat s.fl
    (s.commitFl l).bind fun s _ => .ok (s.setF d (ofBits b)) ()).out s
/-- FCVTI (R130, R131): the integer, sign-extended, or zero-extended for UINT8. -/
def execFcvti (w : Width) (rm : RM) (d a : Reg) (s : State) : Out :=
  let (src, dst) := s.cvtFmts (widthFmt w) .int64
  ((s.takePrefix ruleFcvti).bind fun s _ =>
    let (i, l) := convertInt dst rm (src.val (s.f a).toNat) s.fl
    (s.commitFl l).bind fun s _ => .ok (s.setG d (ofInt i)) ()).out s
/-- FCVTF (R130, R131): an integer of the low bits of ga. -/
def execFcvtf (w : Width) (rm : RM) (d a : Reg) (s : State) : Out :=
  let (src, dst) := s.cvtFmts .int64 (widthFmt w)
  ((s.takePrefix ruleFcvtf).bind fun s _ =>
    let (b, l) := convert src dst rm false (s.g a).toNat s.fl
    (s.commitFl l).bind fun s _ => .ok (s.setF d (ofBits b)) ()).out s
/-- FMVG (R132). -/
def execFmvg (w : Width) (_rm : RM) (d a : Reg) (s : State) : Out := .next (s.setG d (ofBits (s.fbits (widthFmt w) a)))
/-- FMVF (R132). -/
def execFmvf (w : Width) (_rm : RM) (d a : Reg) (s : State) : Out :=
  .next (s.setF d (ofBits ((s.g a).toNat % 2 ^ (widthFmt w).bits)))

/-- A value times a power of two before rounding (R129); an exponent beyond every format's range is held at one. -/
def preScale (v : Val) (k : Int) : Pre :=
  let k := if k > 10000 then 10000 else if k < -10000 then -10000 else k
  match v with
  | .num x => .val (.num (if x.isZero then x else x.scale k))
  | v => .val v

/-- FSCALE (R129). -/
def execFscale (w : Width) (rm : RM) (d a b : Reg) (s : State) : Out :=
  let F := widthFmt w
  s.finishF d (roundPre F rm (preScale (s.fval F a) (s.g b).toInt) s.fl)

/-- A transcendental of an f register (R133 to R138). -/
def State.fpFn (s : State) (fn : TFn) (w : Width) (rm : RM) (d a : Reg) : Out :=
  let F := widthFmt w
  s.finishF d (transc fn F rm (s.fbits F a) s.fl)

/-- FEXP (R133). -/
def execFexp (w : Width) (rm : RM) (d a : Reg) (s : State) : Out := s.fpFn .exp w rm d a
/-- FEXP2 (R133). -/
def execFexp2 (w : Width) (rm : RM) (d a : Reg) (s : State) : Out := s.fpFn .exp2 w rm d a
/-- FLOG (R133). -/
def execFlog (w : Width) (rm : RM) (d a : Reg) (s : State) : Out := s.fpFn .log w rm d a
/-- FLOG2 (R133). -/
def execFlog2 (w : Width) (rm : RM) (d a : Reg) (s : State) : Out := s.fpFn .log2 w rm d a
/-- FRCP (R134): FDIV of 1 by a. -/
def execFrcp (w : Width) (rm : RM) (d a : Reg) (s : State) : Out := s.fpFn .rcp w rm d a
/-- FRSQ (R133). -/
def execFrsq (w : Width) (rm : RM) (d a : Reg) (s : State) : Out := s.fpFn .rsq w rm d a
/-- FSIN (R133). -/
def execFsin (w : Width) (rm : RM) (d a : Reg) (s : State) : Out := s.fpFn .sin w rm d a
/-- FCOS (R133). -/
def execFcos (w : Width) (rm : RM) (d a : Reg) (s : State) : Out := s.fpFn .cos w rm d a
/-- FTANH (R133). -/
def execFtanh (w : Width) (rm : RM) (d a : Reg) (s : State) : Out := s.fpFn .tanh w rm d a
/-- FERF (R133). -/
def execFerf (w : Width) (rm : RM) (d a : Reg) (s : State) : Out := s.fpFn .erf w rm d a

/-- A fused product and sum with exact negations of the product and the addend (R123). -/
def State.fpFma (s : State) (w : Width) (rm : RM) (negP negC : Bool) (d a b c : Reg) : Out :=
  let F := widthFmt w
  let x := s.fval F a
  let z := s.fval F c
  s.finishF d (roundPre F rm
    (preFma rm (if negP then x.negate else x) (s.fval F b) (if negC then z.negate else z)) s.fl)

/-- FMA (R123). -/
def execFma (w : Width) (rm : RM) (d a b c : Reg) (s : State) : Out := s.fpFma w rm false false d a b c
/-- FMS (R123). -/
def execFms (w : Width) (rm : RM) (d a b c : Reg) (s : State) : Out := s.fpFma w rm false true d a b c
/-- FNMA (R123). -/
def execFnma (w : Width) (rm : RM) (d a b c : Reg) (s : State) : Out := s.fpFma w rm true false d a b c
/-- FNMS (R123). -/
def execFnms (w : Width) (rm : RM) (d a b c : Reg) (s : State) : Out := s.fpFma w rm true true d a b c

end Sys2Proof.Machine
end

