-- ==== Sys2Proof/Machine/Stream.lean ====
section
/-! DEFINITION. Stream ports: descriptors, pieces, pops and pushes, and STRCFG, STRGO and STRSTOP (spec/10_vector_streams.md R232
to R240). -/

namespace Sys2Proof.Machine

/-! ### Descriptors and pieces (R234, R236) -/

/-- DIR: the port is write-bound. -/
def Port.isWrite (q : Port) : Bool := bitAt q.d1 50
/-- The element size code. -/
def Port.eszCode (q : Port) : Nat := fldN q.d1 48 2
/-- The element size in bytes. -/
def Port.esz (q : Port) : Nat := 2 ^ q.eszCode
/-- C0. -/
def Port.c0 (q : Port) : Nat := fldN q.d1 0 16
/-- C1. -/
def Port.c1 (q : Port) : Nat := fldN q.d1 16 16
/-- C2. -/
def Port.c2 (q : Port) : Nat := fldN q.d1 32 16
/-- A signed 32-bit field of a word as a word. -/
def simm32 (x : Word) (lo : Nat) : Word := (fld x lo 32).signExtend 64
/-- Elements of the whole walk. -/
def Port.total (q : Port) : Nat := q.c0 * q.c1 * q.c2
/-- The number of the next element. -/
def Port.next (q : Port) : Nat := q.total - q.left

/-- The pointer of element k (R236). -/
def Port.elem (q : Port) (k : Nat) : Word :=
  q.base + BitVec.ofNat 64 (k % q.c0) * simm32 q.d2 0 + BitVec.ofNat 64 (k / q.c0 % q.c1) * simm32 q.d2 32
    + BitVec.ofNat 64 (k / q.c0 / q.c1) * simm32 q.d3 0

/-- The length of the next piece (R236). -/
def Port.piece (q : Port) : Nat := Nat.min (64 / q.esz) (q.c0 - q.next % q.c0)

/-- The pointers of the next piece's elements, each with its number. -/
def Port.pieceElems (q : Port) : List (Nat × Word) :=
  (List.range q.piece).map (fun m => (q.next + m, q.elem (q.next + m)))

/-- The port with its next piece claimed (R237). -/
def Port.claim (q : Port) : Port :=
  { q with left := q.left - q.piece, ahead := q.ahead.filter (fun e => decide (e.1 ≥ q.next + q.piece)) }

/-- The number of the port that a vector register is bound to, if it is. -/
def Thread.boundTo (t : Thread) (r : VReg) : Option (Fin 4) :=
  (List.finRange 4).find? (fun i => t.ports[i].st != .unbound && t.ports[i].vreg == r.toNat)

/-- STRFLT with its code (R235). -/
def strflt (code : Nat) : TrapInfo := Cause.strflt.info 0 (BitVec.ofNat 64 code)

/-- The stream check of a register named as a source or as the destination (R237). -/
def Thread.streamCheck (t : Thread) (dest : Bool) (r : VReg) : Option TrapInfo :=
  match t.boundTo r with
  | none => none
  | some i =>
    let q := t.ports[i]
    if q.isWrite != dest then some (strflt 6)
    else if q.st == .bound then some (strflt 7)
    else if q.left == 0 then some (strflt 5)
    else none

/-! ### Checks and reads by lane (R153, R238) -/

/-- The trap of a lane: tval[15:8] holds its number (R153, R238). -/
def TrapInfo.atLane (i : TrapInfo) (n : Nat) : TrapInfo := { i with tval := i.tval ||| BitVec.ofNat 64 (n <<< 8) }

/-- A wait of a lane's access: the PFAULT of a rejected fault names the lane. -/
def Wait.atLane (w : Wait) (n : Nat) : Wait :=
  match w with
  | .fault p f i => .fault p f (i.atLane n)
  | w => w

/-- The outcome of a lane's check names the lane where it traps. -/
def Res.atLane {α : Type} (r : Res α) (n : Nat) : Res α :=
  match r with
  | .ok s x => .ok s x
  | .trap s i => .trap s (i.atLane n)
  | .wait s w => .wait s (w.atLane n)
  | .stop f => .stop f

/-- The checks of lanes from number i on, each of n bytes (R142, R153). -/
def State.checkLanes (s : State) (wr : Bool) (n i : Nat) : List Word → Res (List (Word × Target))
  | [] => .ok s []
  | p :: t =>
    ((s.check (s.req p n (!wr) wr)).atLane i).bind fun s x =>
      (State.checkLanes s wr n (i + 1) t).bind fun s xs => .ok s ((p, x) :: xs)

/-- Checked writes may issue (R373, R404, R406). -/
def State.writesReady (s : State) (l : List (Word × Target)) : Option Wait :=
  l.findSome? (fun x => s.writeReady s.cur.1 x.2)

/-- Checked lanes of n bytes read by a core: each lane's bytes, or zero and the pointer of a poisoned one (R356). -/
def State.readLanes (s : State) (c n : Nat) : List (Word × Target) → Res (List (List Byte) × List Word)
  | [] => .ok s ([], [])
  | (p, t) :: rest =>
    (s.load c t n).bind fun s r =>
      (State.readLanes s c n rest).bind fun s xs =>
        .ok s (if r.2 then (leBytes n 0 :: xs.1, p :: xs.2) else (r.1 :: xs.1, xs.2))

/-- The deferred POISON of a lane: taddr its pointer, tval the address of the step (R201). -/
def poisonReport (pc p : Word) : TrapInfo := (Cause.poison.info p pc).deferred

/-- The checks of the elements of port i's next piece that it has not read ahead (R238), with their numbers, from lane m on; a cut that the
core takes meanwhile takes from the port what it had read ahead (R320). -/
def State.checkPiece (s : State) (i : Fin 4) : Nat → List (Nat × Word) → Res (List (Nat × Word × Target))
  | _, [] => .ok s []
  | m, (k, p) :: t =>
    let q := s.th.ports[i]
    if (Map.find? q.ahead k).isSome then State.checkPiece s i (m + 1) t
    else
      ((s.check (s.req p q.esz (!q.isWrite) q.isWrite)).atLane m).bind fun s x =>
        (State.checkPiece s i (m + 1) t).bind fun s xs => .ok s ((k, p, x) :: xs)

/-- The piece a pop takes of a port as the step found it: lanes from elements read now, else ahead, zero beyond the piece (R236), and the
pointers of poisoned elements (R238). -/
def State.readPiece (s : State) (c : Nat) (q : Port) (checked : List (Nat × Word × Target)) : Res (V512 × List Word) :=
  (s.readLanes c q.esz (checked.map (fun x => x.2))).bind fun s r =>
    let fresh : Map Nat := (checked.map (·.1)).zip (r.1.map leNat)
    let value (k : Nat) : Nat := match Map.find? fresh k with
      | some x => x
      | none => (Map.getD q.ahead k 0).toNat
    .ok s (ofLanes (8 * q.esz) ((List.range q.piece).map (fun m => value (q.next + m))), r.2)

/-! ### STRCFG, STRGO and STRSTOP (R233 to R239) -/

/-- The descriptor of R234 names a valid walk: counts nonzero, reserved bits zero, BASE and strides aligned (R235). -/
def Port.valid (q : Port) : Bool :=
  q.c0 != 0 && q.c1 != 0 && q.c2 != 0 && fldN q.d1 51 13 == 0 && fldN q.d3 32 32 == 0 &&
    q.base.toNat % q.esz == 0 && fldN q.d2 0 32 % q.esz == 0 && fldN q.d2 32 32 % q.esz == 0 && fldN q.d3 0 32 % q.esz == 0

/-- A port of the current thread. -/
def State.port (s : State) (p : PortNo) : Port := s.th.ports[p.toNat]'p.isLt
/-- The device with a port of the current thread. -/
def State.setPort (s : State) (p : PortNo) (q : Port) : State :=
  s.setTh { s.th with ports := s.th.ports.set p.toNat q p.isLt }

/-- The descriptor register a + i. -/
def regPlus (a : Reg) (i : Nat) : Reg := BitVec.ofNat 5 (a.toNat + i)

/-- STRCFG (R234, R235). Where several of its traps apply, VWIN comes first, then STRFLT with the lowest code (DESIGN CHOICE, log 49: R235
gives no order). -/
def execStrcfg (p : PortNo) (v a : Reg) (s : State) : Out :=
  let q : Port :=
    { st := .bound, base := s.g a, d1 := s.g (regPlus a 1), d2 := s.g (regPlus a 2), d3 := s.g (regPlus a 3),
      vreg := v.toNat }
  let q := { q with left := q.total }
  if v.toNat ≥ s.th.id.w then .next (s.raise Cause.vwin.info)
  else if (s.port p).st ≠ .unbound then .next (s.raise (strflt 1))
  else if (s.th.boundTo (v.setWidth 6)).isSome then .next (s.raise (strflt 2))
  else if !q.valid then .next (s.raise (strflt 3))
  else .next (s.setPort p q)

/-- STRGO (R235). -/
def execStrgo (p : PortNo) (s : State) : Out :=
  if (s.port p).st ≠ .bound then .next (s.raise (strflt 4))
  else .next (s.setPort p { s.port p with st := .running })

/-- STRSTOP (R239). LEFT, DIR, ESZ and VREG of the port read as zero from then on, as after reset (DESIGN CHOICE, log 49: R239 says only that
the port is unbound). -/
def execStrstop (p : PortNo) (s : State) : Out :=
  if (s.port p).st = .unbound then .next (s.raise (strflt 4)) else .next (s.setPort p {})

end Sys2Proof.Machine
end

