-- ==== Sys2Proof/Machine/Vec.lean ====
section
/-! DEFINITION. VEC instructions and the vector memory instructions (spec/10_vector_streams.md R220 to R231, R237, R238;
spec/06_memory_access.md R152 to R155). A vector instruction makes its checks and computes its result at issue, and enters the
thread's queue; its result is written when the operation completes (log 9). -/

namespace Sys2Proof.Machine

/-! ### Lanes -/

/-- Lanes of a format in a vector register (R221). -/
def fmtLanes (f : Fmt) : Nat := 512 / f.store

/-- The bits of a lane (R40): unused upper bits are ignored when the element is read. -/
def laneBits (F : Fmt) (v : V512) (i : Nat) : Nat := lane F.store v i % 2 ^ F.bits

/-- The lanes of a register in a format, lane 0 first. -/
def vLanes (F : Fmt) (v : V512) : List Nat := (List.range (fmtLanes F)).map (laneBits F v)

/-- A register from lanes of a format, lane 0 first. -/
def ofVLanes (F : Fmt) (xs : List Nat) : V512 := ofLanes F.store xs

/-- A function of one lane: its result bits, flags and seed. -/
abbrev LaneOp := List Nat → Fl → Nat × Fl

/-- Lanes computed in increasing order (R224). -/
def mapLanes (f : LaneOp) : List (List Nat) → Fl → List Nat × Fl
  | [], l => ([], l)
  | xs :: t, l =>
    let (r, l) := f xs l
    let (rs, l) := mapLanes f t l
    (r :: rs, l)

/-- The lanes of several registers side by side. -/
def zipLanes (F : Fmt) (vs : List V512) : List (List Nat) :=
  (List.range (fmtLanes F)).map (fun i => vs.map (fun v => laneBits F v i))

/-- A lane read as an integer: signed, or unsigned for UINT8 (R225). -/
def laneInt (F : Fmt) (x : Nat) : Int := valInt F x

/-- An integer lane's result, modulo 2 to the power of its width (R225). -/
def wrapLane (F : Fmt) (x : Int) : Nat := (x % (2 ^ F.bits : Int)).toNat

/-- A lane operation: a floating one rounded once, or an integer one that wraps (R225). -/
def arithLane (F : Fmt) (rm : RM) (fp : List Val → Pre) (int : List Int → Int) : LaneOp := fun xs l =>
  if F.isFp then roundPre F rm (fp (xs.map F.val)) l else (wrapLane F (int (xs.map (laneInt F))), l)

/-- The values of two or three operands. -/
def vals2 (f : Val → Val → Pre) : List Val → Pre
  | a :: b :: _ => f a b
  | _ => .val (.nan false false)
/-- The values of three operands. -/
def vals3 (f : Val → Val → Val → Pre) : List Val → Pre
  | a :: b :: c :: _ => f a b c
  | _ => .val (.nan false false)
/-- The integers of two operands. -/
def ints2 (f : Int → Int → Int) : List Int → Int
  | a :: b :: _ => f a b
  | _ => 0
/-- The integers of three operands. -/
def ints3 (f : Int → Int → Int → Int) : List Int → Int
  | a :: b :: c :: _ => f a b c
  | _ => 0

/-- Integer division of a lane: all ones for a zero divisor (R96, R225). -/
def laneDiv (a b : Int) : Int := if b = 0 then -1 else a.tdiv b

/-- The smaller or larger of two lanes (R225). -/
def minMaxLane (F : Fmt) (max : Bool) : LaneOp := fun xs l =>
  match xs with
  | a :: b :: _ =>
    if F.isFp then minMax F max false a b l
    else
      let lt := decide (laneInt F a < laneInt F b)
      (if lt == max then b else a, l)
  | _ => (0, l)

/-- A compare of two lanes: all ones or zero (R227). -/
def cmpLane (F : Fmt) (quiet : Bool) (holds : Int → Bool) : LaneOp := fun xs l =>
  match xs with
  | a :: b :: _ =>
    let (c, l) :=
      if F.isFp then fpCompare quiet holds (F.val a) (F.val b) l
      else
        let x := laneInt F a
        let y := laneInt F b
        (holds (if x < y then -1 else if x = y then 0 else 1), l)
    (if c then 2 ^ F.store - 1 else 0, l)
  | _ => (0, l)

/-- A shift of a lane by the low log2(width) bits of another (R226). -/
def shiftLane (F : Fmt) (f : Nat → Nat → Nat) : LaneOp := fun xs l =>
  match xs with
  | a :: b :: _ => (f a (b % F.bits) % 2 ^ F.bits, l)
  | _ => (0, l)

/-- An arithmetic right shift at a format's width: copies of the lane's top bit come in (R226). -/
def sraBits (F : Fmt) (a n : Nat) : Nat := ((BitVec.ofNat F.bits a).sshiftRight n).toNat

/-- The tree of R59. -/
def treeLevel (f : LaneOp) : List Nat → Fl → List Nat × Fl
  | a :: b :: t, l =>
    let (r, l) := f [a, b] l
    let (rs, l) := treeLevel f t l
    (r :: rs, l)
  | xs, l => (xs, l)

/-- The levels of the tree, at most n of them. -/
def treeReduce (f : LaneOp) : Nat → List Nat → Fl → Nat × Fl
  | _, [x], l => (x, l)
  | 0, xs, l => (xs.headD 0, l)
  | n + 1, xs, l => let (xs, l) := treeLevel f xs l; treeReduce f n xs l

/-- The infinity of a floating format by its sign, or the greatest or least value of an integer one (R59, R228). -/
def extremeBits (F : Fmt) (low : Bool) : Nat :=
  match F.fp with
  | some p => (if low then 2 ^ (p.eb + p.mb) else 0) + (2 ^ p.eb - 1) * 2 ^ p.mb
  | none => wrapLane F (if low then F.intRange.1 else F.intRange.2)

/-! ### Issue -/

/-- What a vector instruction's computation answers: the new value of its destination vector register, scalar destinations, the
bytes it stores with their checked targets, the poison it met (pointers), and flags and seed. -/
structure VOut where
  vd : V512 := 0
  gd : Option (Reg × Word) := none
  fd : Option (Reg × Word) := none
  stores : List (Target × List Byte × Word) := []
  poisoned : List Word := []
  fl : Fl := {}

/-- The named registers lie in the window (R9). -/
def Thread.inWindow (t : Thread) (rs : List VReg) : Bool := rs.all (fun r => decide (r.toNat < t.id.w))

/-- Each register once, in order. -/
def distinct : List VReg → List VReg
  | [] => []
  | r :: t => r :: (distinct t).filter (· != r)

/-- The pops of an instruction under way: port number, checked elements. -/
abbrev Pops := List (VReg × Fin 4 × List (Nat × Word × Target))

/-- The checks of the pieces that source registers pop (R238). -/
def State.checkPops (s : State) : List VReg → Res Pops
  | [] => .ok s []
  | r :: t =>
    match s.th.boundTo r with
    | none => State.checkPops s t
    | some i =>
      (s.checkPiece i 0 s.th.ports[i].pieceElems).bind fun s x =>
        (State.checkPops s t).bind fun s xs => .ok s ((r, i, x) :: xs)

/-- The values of the pops of a thread's ports, with poisoned elements; their pieces are claimed (R237). -/
def State.doPops (s : State) (t0 : Thread) : Pops → Res (List (VReg × V512) × List Word)
  | [] => .ok s ([], [])
  | (r, i, x) :: t =>
    (s.readPiece s.cur.1 t0.ports[i] x).bind fun s p =>
      let s := s.setTh { s.th with ports := s.th.ports.set i s.th.ports[i].claim }
      (State.doPops s t0 t).bind fun s ps => .ok s ((r, p.1) :: ps.1, p.2 ++ ps.2)

/-- The stores of a pushed value: its first lanes to the checked elements (R236, R237). -/
def pushStores (q : Port) (v : V512) (x : List (Nat × Word × Target)) : List (Target × List Byte × Word) :=
  (List.range x.length).zip x |>.map (fun e =>
    (e.2.2.2, leBytes q.esz (lane (8 * q.esz) v e.1), e.2.2.1))

/-- The issue of a vector instruction after its prefix checks (R222): VWIN of the named registers, an operand check (ILLINS of a
lane or part), the stream checks, the checks of the pieces, the instruction's own computation on its sources, and its entry into
the queue. A full queue stalls it. Where several stream conditions hold, the sources are tested in operand order and the destination
after them (DESIGN CHOICE, log 49). -/
def State.vecIssue (s0 : State) (bad : Bool) (named srcs : List VReg) (dst : Option VReg)
    (f : State → (VReg → V512) → Res VOut) : Res Unit :=
  let t := s0.th
  let srcs := distinct srcs
  if !t.inWindow named then .trap s0 Cause.vwin.info
  else if bad then .trap s0 (s0.badWord .illins)
  else
    match srcs.findSome? (t.streamCheck false), dst.bind (t.streamCheck true) with
    | some i, _ => .trap s0 i
    | none, some i => .trap s0 i
    | none, none =>
      (s0.checkPops srcs).bind fun s pops =>
        let out : Option (Fin 4) := dst.bind t.boundTo
        let push : Res (List (Nat × Word × Target)) := match out with
          | none => .ok s []
          | some i => s.checkPiece i 0 t.ports[i].pieceElems
        push.bind fun s pushed =>
          match s.writesReady (pushed.map (fun x => x.2)) with
          | some w => .wait s w
          | none =>
            (s.doPops t pops).bind fun s got =>
              let value (r : VReg) : V512 := match got.1.find? (fun e => e.1 == r) with
                | some e => e.2
                | none => s.v r
              (f s value).bind fun s o =>
                if s.th.queue.length ≥ 2 then .wait (s0.keepRecords s) .queueFull
                else
                  let pc := s.th.pc
                  let s := match out with
                    | none => s
                    | some i => s.setTh { s.th with ports := s.th.ports.set i s.th.ports[i].claim }
                  let op : VecOp := {
                    pc, word := s.iss.word
                    vd := match dst, out with
                      | some r, none => some (r, o.vd)
                      | _, _ => none
                    gd := o.gd
                    fd := o.fd
                    stores := o.stores ++ (match out with
                      | none => []
                      | some i => pushStores t.ports[i] o.vd pushed)
                    reports := (got.2 ++ o.poisoned).map (poisonReport pc)
                    flags := o.fl.flags
                    enabled := s.th.fenable }
                  .ok ((s.setTh { s.th with srseed := o.fl.seed }).enqueue (.vec op)) ()

/-- A vector instruction with a prefix rule: the formats it uses, then its issue (R87, R221). -/
def State.vecOp (s : State) (rule : PfxRule) (dflt : Fmt) (named srcs : List VReg) (dst : Option VReg)
    (bad : Fmt → Fmt → Bool) (f : Fmt → Fmt → State → (VReg → V512) → VOut) : Out :=
  let (src, d) := s.cvtFmts dflt dflt
  ((s.takePrefix rule).bind fun s _ =>
    s.vecIssue (bad src d) named srcs dst (fun s v => .ok s (f src d s v))).out s

/-- A vector instruction of one format whose lanes are computed one by one. -/
def State.vecLanes (s : State) (rule : PfxRule) (dflt : Fmt) (srcs : List VReg) (d : VReg) (op : Fmt → LaneOp) : Out :=
  s.vecOp rule dflt (d :: srcs) srcs (some d) (fun _ _ => false) fun F _ s v =>
    let (r, l) := mapLanes (op F) (zipLanes F (srcs.map v)) s.fl
    { vd := ofVLanes F r, fl := l }

/-! ### Arithmetic (R225) -/

/-- VADD (R225). -/
def execVadd (w : Width) (rm : RM) (d a b : VReg) (s : State) : Out :=
  s.vecLanes ruleArith (widthFmt w) [a, b] d (fun F => arithLane F rm (vals2 (preAdd rm)) (ints2 (· + ·)))
/-- VSUB (R225). -/
def execVsub (w : Width) (rm : RM) (d a b : VReg) (s : State) : Out :=
  s.vecLanes ruleArith (widthFmt w) [a, b] d
    (fun F => arithLane F rm (vals2 (fun x y => preAdd rm x y.negate)) (ints2 (· - ·)))
/-- VMUL (R225). -/
def execVmul (w : Width) (rm : RM) (d a b : VReg) (s : State) : Out :=
  s.vecLanes ruleArith (widthFmt w) [a, b] d (fun F => arithLane F rm (vals2 preMul) (ints2 (· * ·)))
/-- VFMA (R225). -/
def execVfma (w : Width) (rm : RM) (d a b : VReg) (s : State) : Out :=
  s.vecLanes ruleArith (widthFmt w) [a, b, d] d
    (fun F => arithLane F rm (vals3 (preFma rm)) (ints3 (fun x y z => x * y + z)))
/-- VFMS (R225). -/
def execVfms (w : Width) (rm : RM) (d a b : VReg) (s : State) : Out :=
  s.vecLanes ruleArith (widthFmt w) [a, b, d] d
    (fun F => arithLane F rm (vals3 (fun x y z => preFma rm x y z.negate)) (ints3 (fun x y z => x * y - z)))
/-- VDIV (R225). -/
def execVdiv (w : Width) (rm : RM) (d a b : VReg) (s : State) : Out :=
  s.vecLanes ruleArith (widthFmt w) [a, b] d (fun F => arithLane F rm (vals2 preDiv) (ints2 laneDiv))
/-- VSQRT (R225). -/
def execVsqrt (w : Width) (rm : RM) (d a : VReg) (s : State) : Out :=
  s.vecLanes ruleSqrt (widthFmt w) [a] d
    (fun F xs l => roundPre F rm (preSqrt (F.val (xs.headD 0))) l)
/-- VMIN (R225). -/
def execVmin (w : Width) (_rm : RM) (d a b : VReg) (s : State) : Out :=
  s.vecLanes ruleArith (widthFmt w) [a, b] d (fun F => minMaxLane F false)
/-- VMAX (R225). -/
def execVmax (w : Width) (_rm : RM) (d a b : VReg) (s : State) : Out :=
  s.vecLanes ruleArith (widthFmt w) [a, b] d (fun F => minMaxLane F true)

/-! ### Bits and shifts (R226) -/

/-- An instruction on all 512 bits of two registers. -/
def State.vecBits (s : State) (d a b : VReg) (f : V512 → V512 → V512) : Out :=
  s.vecOp ruleNone .int64 [d, a, b] [a, b] (some d) (fun _ _ => false) fun _ _ s v =>
    { vd := f (v a) (v b), fl := s.fl }

/-- VAND (R226). -/
def execVand (_w : Width) (_rm : RM) (d a b : VReg) (s : State) : Out := s.vecBits d a b (· &&& ·)
/-- VOR (R226). -/
def execVor (_w : Width) (_rm : RM) (d a b : VReg) (s : State) : Out := s.vecBits d a b (· ||| ·)
/-- VXOR (R226). -/
def execVxor (_w : Width) (_rm : RM) (d a b : VReg) (s : State) : Out := s.vecBits d a b (· ^^^ ·)

/-- The default element format of the shifts (R221). -/
def widthInt : Width → Fmt
  | .w32 => .int32
  | .w64 => .int64

/-- VSLL (R226). -/
def execVsll (w : Width) (_rm : RM) (d a b : VReg) (s : State) : Out :=
  s.vecLanes ruleShift (widthInt w) [a, b] d (fun F => shiftLane F (fun x n => x <<< n))
/-- VSRL (R226). -/
def execVsrl (w : Width) (_rm : RM) (d a b : VReg) (s : State) : Out :=
  s.vecLanes ruleShift (widthInt w) [a, b] d (fun F => shiftLane F (fun x n => x >>> n))
/-- VSRA (R226). -/
def execVsra (w : Width) (_rm : RM) (d a b : VReg) (s : State) : Out :=
  s.vecLanes ruleShift (widthInt w) [a, b] d (fun F => shiftLane F (sraBits F))

/-! ### Compares and selection (R227) -/

/-- VCMPEQ (R227). -/
def execVcmpeq (w : Width) (_rm : RM) (d a b : VReg) (s : State) : Out :=
  s.vecLanes ruleArith (widthFmt w) [a, b] d (fun F => cmpLane F true (· == 0))
/-- VCMPLT (R227). -/
def execVcmplt (w : Width) (_rm : RM) (d a b : VReg) (s : State) : Out :=
  s.vecLanes ruleArith (widthFmt w) [a, b] d (fun F => cmpLane F false (· == -1))
/-- VCMPLE (R227). -/
def execVcmple (w : Width) (_rm : RM) (d a b : VReg) (s : State) : Out :=
  s.vecLanes ruleArith (widthFmt w) [a, b] d (fun F => cmpLane F false (fun c => c == -1 || c == 0))

/-- A lane is selected when any of its bits is nonzero (R221). -/
def selected (F : Fmt) (m : V512) (i : Nat) : Bool := lane F.store m i != 0

/-- VSEL (R227): lanes pass bit for bit; the unused bits of a six-bit element are written as zero (R40). -/
def execVsel (w : Width) (_rm : RM) (d a b : VReg) (s : State) : Out :=
  s.vecOp ruleSel (widthFmt w) [d, a, b] [a, b, d] (some d) (fun _ _ => false) fun F _ s v =>
    let pick (i : Nat) : Nat := laneBits F (if selected F (v d) i then v a else v b) i
    { vd := ofVLanes F ((List.range (fmtLanes F)).map pick), fl := s.fl }

/-! ### Conversion (R229) -/

/-- VCVT (R229). -/
def execVcvt (w : Width) (rm : RM) (sat : Bool) (d a : VReg) (part : BitVec 4) (s : State) : Out :=
  let n (src dst : Fmt) : Nat := Nat.min (fmtLanes src) (fmtLanes dst)
  s.vecOp ruleVcvt (widthFmt w) [d, a] [a] (some d)
    (fun src dst => decide (Nat.max (fmtLanes src) (fmtLanes dst) / n src dst ≤ part.toNat))
    fun src dst s v =>
      let N := n src dst
      let o := part.toNat * N
      let xs := (List.range N).map (fun i => [laneBits src (v a) (if (fmtLanes src) > (fmtLanes dst) then o + i else i)])
      let (rs, l) := mapLanes (fun x l => convert src dst rm sat (x.headD 0) l) xs s.fl
      let first := if (fmtLanes dst) > (fmtLanes src) then o else 0
      let old (i : Nat) : Nat := lane dst.store (s.v d) i
      let new (i : Nat) : Nat := if first ≤ i ∧ i < first + N then rs.getD (i - first) 0 else old i
      { vd := ofVLanes dst ((List.range (fmtLanes dst)).map new), fl := l }

/-! ### Reductions (R228) -/

/-- A reduction of lanes by the tree of R59, an unselected lane entering as the identity; the result stands in lane 0. -/
def State.vecReduce (s : State) (w : Width) (d a m : VReg) (op : Fmt → LaneOp) (ident : Fmt → Nat) : Out :=
  let masked := m != a
  s.vecOp ruleArith (widthFmt w) [d, a, m] (if masked then [a, m] else [a]) (some d) (fun _ _ => false) fun F _ s v =>
    let x (i : Nat) : Nat := if masked && !selected F (v m) i then ident F else laneBits F (v a) i
    let (r, l) := treeReduce (op F) 7 ((List.range (fmtLanes F)).map x) s.fl
    { vd := ofVLanes F [r], fl := l }

/-- VRSUM (R228). -/
def execVrsum (w : Width) (rm : RM) (d a b : VReg) (s : State) : Out :=
  s.vecReduce w d a b (fun F => arithLane F rm (vals2 (preAdd rm)) (ints2 (· + ·))) (fun _ => 0)
/-- VRMAX (R228). -/
def execVrmax (w : Width) (_rm : RM) (d a b : VReg) (s : State) : Out :=
  s.vecReduce w d a b (fun F => minMaxLane F true) (fun F => extremeBits F true)
/-- VRMIN (R228). -/
def execVrmin (w : Width) (_rm : RM) (d a b : VReg) (s : State) : Out :=
  s.vecReduce w d a b (fun F => minMaxLane F false) (fun F => extremeBits F false)
/-- VDOT (R228): products rounded once, then the tree. -/
def execVdot (w : Width) (rm : RM) (d a b : VReg) (s : State) : Out :=
  s.vecOp ruleArith (widthFmt w) [d, a, b] [a, b] (some d) (fun _ _ => false) fun F _ s v =>
    let (ps, l) := mapLanes (arithLane F rm (vals2 preMul) (ints2 (· * ·))) (zipLanes F [v a, v b]) s.fl
    let (r, l) := treeReduce (arithLane F rm (vals2 (preAdd rm)) (ints2 (· + ·))) 7 ps l
    { vd := ofVLanes F [r], fl := l }

/-! ### Moves (R230) -/

/-- The value of a scalar operand. -/
def State.sreg (s : State) (r : SReg) : Word :=
  match r with
  | .g r => s.g r
  | .f r => s.f r

/-- VBCST (R230). -/
def execVbcst (w : Width) (_rm : RM) (d : VReg) (rs : SReg) (s : State) : Out :=
  s.vecOp ruleBcst (widthFmt w) [d] [] (some d) (fun _ _ => false) fun _ F s _ =>
    { vd := ofVLanes F (List.replicate (fmtLanes F) ((s.sreg rs).toNat % 2 ^ F.bits)), fl := s.fl }

/-- A lane as a general register's value: sign-extended for signed integer formats (R230). -/
def laneWord (F : Fmt) (x : Nat) : Word :=
  match F with
  | .int8 | .int16 | .int32 | .int64 => ofInt (laneInt F x)
  | _ => ofBits x

/-- VEXT (R230). -/
def execVext (w : Width) (_rm : RM) (rd : SReg) (a : VReg) (lane : BitVec 6) (s : State) : Out :=
  s.vecOp ruleExt (widthFmt w) [a] [a] none (fun F _ => decide (lane.toNat ≥ (fmtLanes F))) fun F _ s v =>
    let x := laneBits F (v a) lane.toNat
    match rd with
    | .g r => { gd := some (r, laneWord F x), fl := s.fl }
    | .f r => { fd := some (r, ofBits x), fl := s.fl }

/-- VINS (R230). -/
def execVins (w : Width) (_rm : RM) (d : VReg) (rs : SReg) (lane : BitVec 6) (s : State) : Out :=
  s.vecOp ruleBcst (widthFmt w) [d] [d] (some d) (fun _ F => decide (lane.toNat ≥ (fmtLanes F))) fun _ F s v =>
    { vd := setFld (v d) (F.store * lane.toNat) F.store ((s.sreg rs).toNat % 2 ^ F.bits), fl := s.fl }

/-- VPERM (R230). -/
def execVperm (w : Width) (_rm : RM) (d a b : VReg) (s : State) : Out :=
  s.vecOp ruleSel (widthFmt w) [d, a, b] [a, b] (some d) (fun _ _ => false) fun F _ s v =>
    let pick (i : Nat) : Nat :=
      let j := laneBits F (v b) i
      if j < (fmtLanes F) then laneBits F (v a) j else 0
    { vd := ofVLanes F ((List.range (fmtLanes F)).map pick), fl := s.fl }

/-- VMOV (R230). -/
def execVmov (_w : Width) (_rm : RM) (d a : VReg) (s : State) : Out :=
  s.vecOp ruleNone .int64 [d, a] [a] (some d) (fun _ _ => false) fun _ _ s v => { vd := v a, fl := s.fl }

/-- VFN (R231). -/
def execVfn (w : Width) (rm : RM) (d a : VReg) (fn : TFn) (s : State) : Out :=
  s.vecLanes ruleFn (widthFmt w) [a] d (fun F xs l => transc fn F rm (xs.headD 0) l)

/-! ### Vector memory (R152 to R155) -/

/-- A vector load of lanes of n bytes at pointers computed from the sources: checks of every lane, then the data; a lane of a
poisoned line is zero (R153, R356). -/
def State.vecLoad (s : State) (named srcs : List VReg) (d : VReg) (n : Nat) (ps : (VReg → V512) → List Word) : Out :=
  (s.vecIssue false named srcs (some d) fun s v =>
    (s.checkLanes false n 0 (ps v)).bind fun s xs =>
      (s.readLanes s.cur.1 n xs).bind fun s r =>
        .ok s { vd := ofVBytes r.1.flatten, poisoned := r.2, fl := s.fl }).out s

/-- A vector store of lanes of n bytes (R153). -/
def State.vecStore (s : State) (named srcs : List VReg) (d : VReg) (n : Nat) (ps : (VReg → V512) → List Word) : Out :=
  (s.vecIssue false named srcs none fun s v =>
    (s.checkLanes true n 0 (ps v)).bind fun s xs =>
      match s.writesReady xs with
      | some w => .wait s w
      | none =>
        let lanes := (List.range xs.length).map (fun i => ((vBytes (v d)).drop (n * i)).take n)
        .ok s { stores := (xs.zip lanes).map (fun e => (e.1.2, e.2, e.1.1)), fl := s.fl }).out s

/-- The pointers of strided lanes (R152). -/
def State.strided (s : State) (e : ESz) (b x : Reg) : List Word :=
  (List.range (64 / eszBytes e)).map (fun i => s.g b + BitVec.ofNat 64 i * s.g x)

/-- The pointers of gathered lanes: signed 32-bit offsets, at most 16 (R152). -/
def gathered (base : Word) (e : ESz) (v : V512) : List Word :=
  (List.range (Nat.min (64 / eszBytes e) 16)).map (fun i => base + (fld v (32 * i) 32).signExtend 64)

/-- The vector register that an x field names (R152). -/
def xVReg (x : Reg) : VReg := x.setWidth 6

/-- VLD (R152). -/
def execVld (v : VReg) (b : Reg) (disp : BitVec 6) (s : State) : Out :=
  s.vecLoad [v] [] v 64 (fun _ => [s.effective b disp 64])
/-- VST (R152). -/
def execVst (v : VReg) (b : Reg) (disp : BitVec 6) (s : State) : Out :=
  s.vecStore [v] [v] v 64 (fun _ => [s.effective b disp 64])
/-- VLDS (R152). -/
def execVlds (e : ESz) (v : VReg) (b x : Reg) (s : State) : Out :=
  s.vecLoad [v] [] v (eszBytes e) (fun _ => s.strided e b x)
/-- VSTS (R152). -/
def execVsts (e : ESz) (v : VReg) (b x : Reg) (s : State) : Out :=
  s.vecStore [v] [v] v (eszBytes e) (fun _ => s.strided e b x)
/-- VGTH (R152). -/
def execVgth (e : ESz) (v : VReg) (b x : Reg) (s : State) : Out :=
  s.vecLoad [v, xVReg x] [xVReg x] v (eszBytes e) (fun val => gathered (s.g b) e (val (xVReg x)))
/-- VSCT (R152). -/
def execVsct (e : ESz) (v : VReg) (b x : Reg) (s : State) : Out :=
  s.vecStore [v, xVReg x] [v, xVReg x] v (eszBytes e) (fun val => gathered (s.g b) e (val (xVReg x)))

end Sys2Proof.Machine
end

