-- ==== Sys2Proof/Machine/Hazard.lean ====
section
/-! DEFINITION. The registers that an instruction names (spec/03_encoding.md R70; spec/10_vector_streams.md R237), and the steps that wait for
a vector operation of their thread (spec/10_vector_streams.md R223; spec/19_scheduler.md R334). -/

namespace Sys2Proof.Machine

/-! ### Registers that an instruction names (R70) -/

/-- A register of the g, f or v file. -/
inductive Dst | g (r : Reg) | f (r : Reg) | v (r : VReg)
  deriving DecidableEq, Repr

/-- A scalar register operand as a register of its file (R220). -/
def SReg.dst : SReg → Dst
  | .g r => .g r
  | .f r => .f r

/-- The g, f and v registers that an instruction writes (R70). -/
def dests : Instr → List Dst
  | .add d _ _ | .sub d _ _ | .and d _ _ | .or d _ _ | .xor d _ _ | .andn d _ _ | .sll d _ _ | .srl d _ _ | .sra d _ _
  | .rol d _ _ | .ror d _ _ | .mul d _ _ | .mulh d _ _ | .mulhu d _ _ | .div d _ _ | .divu d _ _ | .rem d _ _ | .remu d _ _
  | .min d _ _ | .max d _ _ | .minu d _ _ | .maxu d _ _ | .seq d _ _ | .slt d _ _ | .sltu d _ _ | .sel d _ _
  | .clz d _ | .ctz d _ | .popc d _ | .brev d _ | .bswap d _ | .addw d _ _ | .subw d _ _ | .mulw d _ _ | .sllw d _ _
  | .srlw d _ _ | .sraw d _ _ | .shadd d _ _ _ | .addv d _ _ | .subv d _ _ | .xya d _ _ | .xyr d _ _ | .xyrSelf d _
  | .agep d _ _ | .agex d _ | .addi d _ _ | .andi d _ _ | .ori d _ _ | .xori d _ _ | .slli d _ _ | .srli d _ _
  | .srai d _ _ | .seqi d _ _ | .slti d _ _ | .sltui d _ _ | .addwi d _ _ | .bfx d _ _ _ | .bfi d _ _ _ | .lui d _
  | .apc d _ => [.g d]
  | .fadd _ _ d _ _ | .fsub _ _ d _ _ | .fmul _ _ d _ _ | .fdiv _ _ d _ _ | .fsqrt _ _ d _ | .fmin _ _ d _ _
  | .fmax _ _ d _ _ | .fminm _ _ d _ _ | .fmaxm _ _ d _ _ | .fsgn _ _ d _ _ | .fsgnn _ _ d _ _ | .fsgnx _ _ d _ _
  | .frint _ _ _ d _ | .fcvt _ _ _ d _ | .fcvtf _ _ d _ | .fmvf _ _ d _ | .fscale _ _ d _ _ | .fexp _ _ d _
  | .fexp2 _ _ d _ | .flog _ _ d _ | .flog2 _ _ d _ | .frcp _ _ d _ | .frsq _ _ d _ | .fsin _ _ d _ | .fcos _ _ d _
  | .ftanh _ _ d _ | .ferf _ _ d _ | .fma _ _ d _ _ _ | .fms _ _ d _ _ _ | .fnma _ _ d _ _ _ | .fnms _ _ d _ _ _ => [.f d]
  | .feq _ _ d _ _ | .flt _ _ d _ _ | .fle _ _ d _ _ | .fclass _ _ d _ | .fcvti _ _ d _ | .fmvg _ _ d _ => [.g d]
  | .vadd _ _ d _ _ | .vsub _ _ d _ _ | .vmul _ _ d _ _ | .vfma _ _ d _ _ | .vfms _ _ d _ _ | .vdiv _ _ d _ _
  | .vsqrt _ _ d _ | .vmin _ _ d _ _ | .vmax _ _ d _ _ | .vand _ _ d _ _ | .vor _ _ d _ _ | .vxor _ _ d _ _
  | .vsll _ _ d _ _ | .vsrl _ _ d _ _ | .vsra _ _ d _ _ | .vcmpeq _ _ d _ _ | .vcmplt _ _ d _ _ | .vcmple _ _ d _ _
  | .vsel _ _ d _ _ | .vcvt _ _ _ d _ _ | .vrsum _ _ d _ _ | .vrmax _ _ d _ _ | .vrmin _ _ d _ _ | .vdot _ _ d _ _
  | .vbcst _ _ d _ | .vins _ _ d _ _ | .vperm _ _ d _ _ | .vmov _ _ d _ | .vfn _ _ d _ _ => [.v d]
  | .vext _ _ r _ _ => [SReg.dst r]
  | .ldb d _ _ | .ldbu d _ _ | .ldh d _ _ | .ldhu d _ _ | .ldw d _ _ | .ldwu d _ _ | .ldd d _ _ | .ldaq _ _ _ d _
  | .amoadd _ _ _ d _ _ | .amoand _ _ _ d _ _ | .amoor _ _ _ d _ _ | .amoxor _ _ _ d _ _ | .amomin _ _ _ d _ _
  | .amomax _ _ _ d _ _ | .amominu _ _ _ d _ _ | .amomaxu _ _ _ d _ _ | .amoswp _ _ _ d _ _ | .amocas _ _ _ d _ _
  | .amofadd _ _ _ d _ _ => [.g d]
  | .fldw d _ _ | .fldd d _ _ => [.f d]
  | .vld v _ _ | .vlds _ v _ _ | .vgth _ v _ _ => [.v v]
  | .call _ => [.g 1]
  | .cntrd d _ | .cntadd _ d _ _ | .waitc d _ _ | .peek d | .bararr d _ | .phase d _ | .launch d _ | .lcancel d _ _
  | .lcount d _ _ | .cpy d _ | .cpys d _ | .cpyk d _ | .migr _ _ d _ _ | .repl d _ _ _ | .trdc d _ | .tldk d _ _ | .qrd d _
  | .csrr d _ | .csrw d _ _ | .csrs d _ _ | .csrc d _ _ | .ilock d _ _ | .iunlk d _ _ | .grant d _ _ _ | .revoke d _ _
  | .rprobe d _ => [.g d]
  | .deq d | .free d _ _ => [.g d, .g (regNext d)]
  | _ => []

/-- The vector registers that an instruction names (R70, R237). -/
def vectorNames : Instr → List VReg
  | .vadd _ _ d a b | .vsub _ _ d a b | .vmul _ _ d a b | .vfma _ _ d a b | .vfms _ _ d a b | .vdiv _ _ d a b
  | .vmin _ _ d a b | .vmax _ _ d a b | .vand _ _ d a b | .vor _ _ d a b | .vxor _ _ d a b | .vsll _ _ d a b
  | .vsrl _ _ d a b | .vsra _ _ d a b | .vcmpeq _ _ d a b | .vcmplt _ _ d a b | .vcmple _ _ d a b | .vsel _ _ d a b
  | .vrsum _ _ d a b | .vrmax _ _ d a b | .vrmin _ _ d a b | .vdot _ _ d a b | .vperm _ _ d a b => [d, a, b]
  | .vsqrt _ _ d a | .vcvt _ _ _ d a _ | .vmov _ _ d a | .vfn _ _ d a _ => [d, a]
  | .vbcst _ _ d _ | .vins _ _ d _ _ => [d]
  | .vext _ _ _ a _ => [a]
  | .vld v _ _ | .vst v _ _ | .vlds _ v _ _ | .vsts _ v _ _ => [v]
  | .vgth _ v _ x | .vsct _ v _ x => [v, x.setWidth 6]
  | .strcfg _ v _ => [v.setWidth 6]
  | _ => []

/-- The g registers that an instruction reads. -/
def gSources : Instr → List Reg
  | .add _ a b | .sub _ a b | .and _ a b | .or _ a b | .xor _ a b | .andn _ a b | .sll _ a b | .srl _ a b | .sra _ a b
  | .rol _ a b | .ror _ a b | .mul _ a b | .mulh _ a b | .mulhu _ a b | .div _ a b | .divu _ a b | .rem _ a b | .remu _ a b
  | .min _ a b | .max _ a b | .minu _ a b | .maxu _ a b | .seq _ a b | .slt _ a b | .sltu _ a b | .addw _ a b | .subw _ a b
  | .mulw _ a b | .sllw _ a b | .srlw _ a b | .sraw _ a b | .shadd _ a b _ | .addv _ a b | .subv _ a b | .xya _ a b
  | .xyr _ a b | .agep _ a b | .beq a b _ | .bne a b _ | .blt a b _ | .bge a b _ | .bltu a b _ | .bgeu a b _ | .jtab a b
  | .put a b _ | .waitc a b _ | .cntadd _ a b _ | .migr _ _ _ a b | .repl _ a b _ | .tld _ a b | .tst _ a b | .tscl _ a b
  | .acld _ a b | .acst _ a b | .qform _ _ a b | .grant _ a b _ | .revoke _ a b | .free _ a b => [a, b]
  | .sel d a b | .putb a b d _ => [d, a, b]
  | .clz _ a | .ctz _ a | .popc _ a | .brev _ a | .bswap _ a | .xyrSelf _ a | .agex _ a | .addi _ a _ | .andi _ a _
  | .ori _ a _ | .xori _ a _ | .slli _ a _ | .srli _ a _ | .srai _ a _ | .seqi _ a _ | .slti _ a _ | .sltui _ a _
  | .addwi _ a _ | .bfx _ a _ _ | .fcvtf _ _ _ a | .fmvf _ _ _ a | .fscale _ _ _ _ a | .vbcst _ _ _ (.g a)
  | .vins _ _ _ (.g a) _ | .ldb _ a _ | .ldbu _ a _ | .ldh _ a _ | .ldhu _ a _ | .ldw _ a _ | .ldwu _ a _ | .ldd _ a _
  | .fldw _ a _ | .fldd _ a _ | .fstw _ a _ | .fstd _ a _ | .pref _ a _ | .ldaq _ _ _ _ a | .cflush _ a | .cinv _ a
  | .vld _ a _ | .vst _ a _ | .vgth _ _ a _ | .vsct _ _ a _ | .lpset _ a _ | .cntset _ _ a | .barcfg _ a _ | .barwait a _
  | .phase _ a | .launch _ a | .lcancel _ a _ | .lcount _ a _ | .cpys _ a | .cpyk _ a | .tcfg _ a | .tldk _ _ a | .acz _ a
  | .qcfg _ a | .qld _ a | .qst _ a | .csrw _ _ a | .csrs _ _ a | .csrc _ _ a | .ilock _ a _ | .iunlk _ a _
  | .rprobe _ a => [a]
  | .bfi d a _ _ | .stb d a _ | .sth d a _ | .stw d a _ | .std d a _ | .strl _ _ _ d a | .vlds _ _ d a | .vsts _ _ d a =>
    [d, a]
  | .amoadd _ _ _ t b a | .amoand _ _ _ t b a | .amoor _ _ _ t b a | .amoxor _ _ _ t b a | .amomin _ _ _ t b a
  | .amomax _ _ _ t b a | .amominu _ _ _ t b a | .amomaxu _ _ _ t b a | .amoswp _ _ _ t b a | .amocas _ _ _ t b a
  | .amofadd _ _ _ t b a => [t, b, a]
  | .ret => [1]
  | .cpy _ a => (List.range 12).map (fun k => a + BitVec.ofNat 5 k)
  | .strcfg _ _ a => (List.range 4).map (fun k => a + BitVec.ofNat 5 k)
  | _ => []

/-- The f registers that an instruction reads. -/
def fSources : Instr → List Reg
  | .fadd _ _ _ a b | .fsub _ _ _ a b | .fmul _ _ _ a b | .fdiv _ _ _ a b | .fmin _ _ _ a b | .fmax _ _ _ a b
  | .fminm _ _ _ a b | .fmaxm _ _ _ a b | .fsgn _ _ _ a b | .fsgnn _ _ _ a b | .fsgnx _ _ _ a b | .feq _ _ _ a b
  | .flt _ _ _ a b | .fle _ _ _ a b => [a, b]
  | .fsqrt _ _ _ a | .frint _ _ _ _ a | .fcvt _ _ _ _ a | .fexp _ _ _ a | .fexp2 _ _ _ a | .flog _ _ _ a | .flog2 _ _ _ a
  | .frcp _ _ _ a | .frsq _ _ _ a | .fsin _ _ _ a | .fcos _ _ _ a | .ftanh _ _ _ a | .ferf _ _ _ a | .fclass _ _ _ a
  | .fcvti _ _ _ a | .fmvg _ _ _ a | .fscale _ _ _ a _ | .vbcst _ _ _ (.f a) | .vins _ _ _ (.f a) _ | .fstw a _ _
  | .fstd a _ _ | .qapp _ _ _ a _ => [a]
  | .fma _ _ _ a b c | .fms _ _ _ a b c | .fnma _ _ _ a b c | .fnms _ _ _ a b c => [a, b, c]
  | _ => []

/-- The g, f and v registers that an instruction reads, and the vector registers that it names. -/
def sources (i : Instr) : List Dst := (gSources i).map .g ++ (fSources i).map .f ++ (vectorNames i).map .v

/-- The g, f and v registers that an instruction writes, g0 apart. -/
def writes (i : Instr) : List Dst := (dests i).filter (· != .g 0)

/-! ### Waiting for a vector operation (R223, R334) -/

/-- A vector operation of a thread writes a register that a step names, or reads one that it writes; the pointers of a vector access are
read at its issue (R153). -/
def VecOp.blocks (v : VecOp) (i : Instr) : Bool :=
  match decode v.word with
  | .error _ => false
  | .ok op =>
    let read : List Dst := match op with
      | .vbcst _ _ _ _ | .vins _ _ _ _ _ => sources op
      | _ => (vectorNames op).map .v
    (writes op).any (fun r => (sources i).contains r || (writes i).contains r) || (writes i).any (fun r => read.contains r)

/-- An instruction that waits for every vector operation of its thread whatever it names (R223): DONE, a trap by TRAP or EBRK, and a CSR
instruction that names fflags or srseed. -/
def waitsForAll : Instr → Bool
  | .done | .trap _ | .ebrk _ => true
  | .csrr _ n | .csrw _ n _ | .csrs _ n _ | .csrc _ n _ => n == 0 || n == 2
  | _ => false

/-- An instruction that may access memory or order accesses: one of the classes MEM, ENG and SYS but the CSR instructions, JTAB, or one that
names a register bound to a port. -/
def Thread.accesses (t : Thread) (w : BitVec 32) (i : Instr) : Bool :=
  match i with
  | .csrr _ _ | .csrw _ _ _ | .csrs _ _ _ | .csrc _ _ _ | .yield | .nop | .fmtp _ _ _ | .trap _ | .ebrk _ | .rett => false
  | .jtab _ _ => true
  | i => fldN w 28 3 == 4 || decide (fldN w 28 3 ≥ 6) || (vectorNames i).any (fun v => (t.boundTo v).isSome)

/-- The words of a thread's next step with their instructions, where they can be fetched and have a meaning (R67, R334). -/
def State.nextWords (s : State) (c sl : Nat) : List (BitVec 32 × Instr) :=
  let t := s.thread c sl
  let one (w : BitVec 32) : List (BitVec 32 × Instr) := match decode w with
    | .ok i => [(w, i)]
    | .error _ => []
  match s.fetchWord c t.sLevel t.pc with
  | .ok s w =>
    if bitAt w 31 ∨ bitAt t.pc 2 then one w
    else one w ++ match s.fetchWord c t.sLevel (t.pc + 4) with
      | .ok _ wa => one wa
      | _ => []
  | _ => []

/-- A thread's next step waits for a vector operation of the thread (R223, R334): for one that writes a register the step names or reads one
it writes; for all of them, as R223 says of some instructions, or where a report that the thread holds is to be taken first (R201). A step
that may access memory, or order accesses, waits for vector stores too (DESIGN CHOICE, log 9). -/
def State.waitsForVector (s : State) (c sl : Nat) : Bool :=
  let k := s.core c
  let t := k.thread sl
  let ops : List VecOp := (k.vx.filter (fun e => e.1 == sl)).map (·.2) ++ t.queue.filterMap (fun q => match q with
    | .vec v => some v
    | _ => none)
  if ops.isEmpty then false
  else if !t.reports.isEmpty && !t.inTrap then true
  else (s.nextWords c sl).any (fun e =>
    waitsForAll e.2 || ops.any (fun v => v.blocks e.2 || (t.accesses e.1 e.2 && !v.stores.isEmpty)))

end Sys2Proof.Machine
end

