-- ==== Sys2Proof/Machine/Sched.lean ====
section
/-! DEFINITION. The steps of scheduling: engine acceptance and vector completion, issue leadership, deferred traps, fetching ahead,
dispatch and the ends of crews and launches, and the clocks of launches and jobs (spec/19_scheduler.md R325 to R340;
spec/08_system_traps_rights.md R201; spec/10_vector_streams.md R223, R224, R240). -/

namespace Sys2Proof.Machine

/-! ### Engines (R336, R337) -/

/-- Products that the engine makes in a cycle for an operand format (R265). -/
def productRate : Fmt → Nat
  | .fp64 => 128
  | .fp32 => 256
  | .bf16 | .fp16 => 2048
  | .e2m1 | .int4 => 8192
  | .int16 => 1024
  | _ => 4096

/-- The least cycles that an operation occupies the matrix engine (R265). -/
def MxCfg.leastCycles (m : MxCfg) : MatKind → Nat
  | .mma ta tb _ _ ka kb =>
    let a := m.tile ka
    let b := m.tile kb
    let (M, K) := operandShape a ta
    let F := Nat.min (productRate (tileFmt a)) (productRate (tileFmt b))
    (M * (operandShape b tb).2 * K + F - 1) / F
  | _ => 1

/-- The cost of an operation that occupies the engine for n cycles (R337): a fold's is at most 4,096. -/
def MatKind.cost (k : MatKind) (n : Nat) : Nat :=
  match k with
  | .qfold _ _ => Nat.min 4096 n
  | _ => n

/-- ENGINE_ACCEPT (R336): an engine accepts the head of a slot's queue; a stalled issue is released (R222). The vector unit and the
matrix engine serve one operation at a time (R337), but for those that wait on a page (R305). -/
def execEngineAccept (s : State) : Out :=
  let c := s.ev.c
  let sl := s.ev.sl
  let k := s.core c
  let t := k.thread sl
  let accept (k : Core) (q : List QOp) : Out := .next ((s.setCore c (k.setThread sl { t with queue := q })).unstall c)
  match t.queue with
  | [] => .next s
  | .vec v :: q =>
    match k.nextServed .vec with
    | some (sl', d) =>
      if sl' = sl ∧ k.vx.isEmpty then
        match accept { k.charge .vec sl d 1 with vx := k.vx ++ [(sl, v)] } q with
        | .next s => .next (s.progress (s.ownerOf c))
        | o => o
      else .next s
    | none => .next s
  | .mat m :: q =>
    match k.nextServed .mat with
    | some (sl', d) =>
      let cost : Nat := m.kind.cost (k.mxCfg.leastCycles m.kind + Config.matrixCycles s.free)
      if sl' = sl ∧ k.mx.all (fun e => e.2.waitPage.isSome) then
        match accept { k.charge .mat sl d cost with mx := k.mx ++ [(sl, m)] } q with
        | .next s => .next { s with free := s.free + 1 }
        | o => o
      else .next s
    | none => .next s
  | .copy p :: q =>
    if (Map.find? k.cps sl).isSome || p.kill then .next s
    else accept { k with cps := Map.put k.cps sl { p with st := .running } } q

/-- The bytes of a vector store reach their targets, in lane order (R152, R223). -/
def State.vecStores (s : State) (c sl : Nat) (pc : Word) : List (Target × List Byte × Word) → Res Unit
  | [] => .ok s ()
  | (t, bs, p) :: rest =>
    (s.store c sl (s.retarget t) bs p pc).bind fun s _ => State.vecStores s c sl pc rest

/-- What a vector operation writes to its thread's registers. -/
def Thread.vecResult (t : Thread) (v : VecOp) : Thread :=
  let t := match v.vd with
    | some (r, x) => t.setVr r x
    | none => t
  let t := match v.gd with
    | some (r, x) => t.setGr r x
    | none => t
  let t := match v.fd with
    | some (r, x) => t.setFr r x
    | none => t
  { t with fflags := t.fflags ||| v.flags }

/-- A trap of a thread of a slot that is not the current one. -/
def State.trapThread (s : State) (c sl : Nat) (i : TrapInfo) (tpc : Word) : State :=
  let cur := s.cur
  let s := ({ s with cur := (c, sl) }.setThread c sl { s.thread c sl with wait := .none }).takeTrap i tpc
  let pc := match s.iss.disp with
    | .goto a => a
    | _ => s.th.pc
  { s.setTh { s.th with pc } with cur }

/-- A thread whose DONE, or whose trap, waits for its vector operations ends, or enters its trap, when the last has completed (R223,
R239). -/
def State.endIfLast (s : State) (c sl : Nat) : State :=
  if (s.core c).vecBusy sl then s
  else match (s.thread c sl).wait with
    | .ending => s.endThread c sl none
    | .trapping i tpc => s.trapThread c sl i tpc
    | _ => s

/-- VECTOR_OP_COMPLETE (R223, R224): the oldest accepted vector operation of a core completes. -/
def execVectorOpComplete (s : State) : Out :=
  let c := s.ev.c
  match (s.core c).vx with
  | [] => .next s
  | (sl, v) :: rest =>
    let k := s.core c
    let s' := s.setCore c { k with vx := rest }
    let s' := s'.setThread c sl ((s'.thread c sl).vecResult v)
    match s'.vecStores c sl v.pc v.stores with
    | .ok s' _ =>
      let s' := v.reports.foldl (fun s i => s.report c sl i) s'
      let raised := v.flags &&& v.enabled
      let s' := if raised = 0 then s' else s'.report c sl (Cause.fpx.info (v.flags.setWidth 64) v.pc)
      .next ((s'.endIfLast c sl).progress (s.ownerOf c))
    | .stop f => .fault f
    | .wait _ w => .next (s.setCore c { k with vx := (sl, { v with withheld := s.withholds c w }) :: rest })
    | .trap _ _ => .next s

/-! ### Readiness and leadership (R334, R335) -/

/-- The wait of a thread has its outcome: its instruction issues again and completes (log 1). -/
def Wait.token : Wait → Bool
  | .waitcOk _ | .deqOk _ _ | .barwaitOk | .napOk | .msyncOk | .cbarOk | .phaseOk | .refillOk => true
  | _ => false

/-- A thread waits in nothing that holds back its issue (R334). -/
def Core.canIssue (k : Core) (sl : Nat) : Bool :=
  let t := k.thread sl
  t.live && (t.wait == .none || t.wait.token)

/-- A hardware context is ready to issue (R334): a context that is stopped for a save issues no step but one that takes the outcome
of its wait (R343, R344). -/
def State.ready (s : State) (c sl : Nat) : Bool :=
  let k := s.core c
  let t := k.thread sl
  let o := k.owner.toNat
  o != 0 && k.canIssue sl && ((s.ctx o).runs && !t.stopped || t.wait.token) && !s.waitsForVector c sl

/-- The next ready slot of a core in ring order after a slot, which itself comes last (R334). -/
def State.nextReady (s : State) (c sl : Nat) : Option Nat :=
  ((List.range 16).map (fun i => (sl + 1 + i) % 16)).find? (fun i => s.ready c i)

/-- The members of the issue group that have still to issue in the cycle under way (R335). -/
def State.pendingGroup (s : State) (c : Nat) : List Nat := (s.core c).group.filter (fun i => s.ready c i)

/-- Leadership of a core passes at the end of the cycle under way (R334): its leader made an off-core reference or issued YIELD, has led
for 64 cycles, is not ready, or there is none. -/
def State.leadDue (s : State) (c : Nat) : Bool :=
  let k := s.core c
  k.passes || decide (k.leadCount ≥ 64) || match k.leader with
    | some l => !s.ready c l
    | none => true

/-- Leadership of a core passes to the next ready slot in ring order after the one that led last; alone, that one keeps it; its count of
cycles starts again (R334). -/
def State.passLead (s : State) (c : Nat) : State :=
  let k := s.core c
  let l := s.nextReady c (k.leader.getD k.lastLead)
  s.setCore c { k with leader := l, lastLead := l.getD (k.leader.getD k.lastLead), leadCount := 0, passes := false, group := [] }

/-- The device at the beginning of a core's next cycle (R334): leadership has passed where it was due. -/
def State.endCycle (s : State) (c : Nat) : State := if s.leadDue c then s.passLead c else s

/-- The issue group that a core's leader makes (R335): every ready slot at its PC and privilege level. -/
def State.leadGroup (s : State) (c : Nat) : List Nat :=
  let k := s.core c
  match k.leader with
  | none => []
  | some l =>
    let b := k.thread l
    (k.threads.map (·.1)).filter (fun i => s.ready c i && (k.thread i).pc == b.pc && (k.thread i).sLevel == b.sLevel)

/-- A core at the cycle that its next step issues in: the cycle under way, while members of its group have still to issue, or the next
one, with its leader and group (R334, R335). -/
def State.openCycle (s : State) (c : Nat) : State :=
  let g := s.pendingGroup c
  if g.isEmpty then
    let s := s.endCycle c
    let k := s.core c
    s.setCore c { k with leadCount := k.leadCount + 1, group := s.leadGroup c }
  else
    let k := s.core c
    s.setCore c { k with group := g }

/-- A thread may issue in this step (R335): it is a member of its core's issue group. -/
def State.mayIssue (s : State) (c sl : Nat) : Bool := s.ready c sl && ((s.openCycle c).core c).group.contains sl

/-- LEADER_CHANGE (R334): at the end of a cycle in which leadership passes. -/
def execLeaderChange (s : State) : Out :=
  let c := s.ev.c
  .next (if (s.pendingGroup c).isEmpty && s.leadDue c then s.passLead c else s)

/-! ### Deferred traps and fetching ahead -/

/-- A thread's instruction completes in the drain of a save (R344): one that a deferred trap waits for (R201). -/
def Wait.drains : Wait → Bool
  | .free _ _ | .lcancel _ _ | .cpyk _ _ | .ending | .trapping _ _ => true
  | _ => false

/-- The oldest report of a thread may be taken (R201): outside a trap, at a step boundary that its FREE, LCANCEL or CPYK, its vector
operations (R223) and a fold of it that has begun (R279) have let come, and, while its context is being saved, only one that the save
found due at that boundary (R344). -/
def State.reportDue (s : State) (c sl : Nat) : Bool :=
  let k := s.core c
  let t := k.thread sl
  t.live && !t.reports.isEmpty && !t.inTrap && !t.wait.drains && !t.wait.token && !k.vecBusy sl && !k.folding sl
    && ((s.ctx k.owner.toNat).runs || t.trapDue)

/-- DEFERRED_TRAP (R201): a thread's oldest held report is taken; tpc is the address of the step that would have run next, or of the
waiting step. -/
def execDeferredTrap (s : State) : Out :=
  let c := s.ev.c
  let sl := s.ev.sl
  let t := s.thread c sl
  match t.reports with
  | [] => .next s
  | i :: rest =>
    if !s.reportDue c sl then .next s
    else .next ((s.setThread c sl { t with reports := rest, trapDue := false }).trapThread c sl i t.pc)

/-- STREAM_FETCH_AHEAD (R240): a running read stream reads an element that it does not hold, number k from the next one on; one whose
check fails, or that would wait, is left to the claiming instruction (R238), but for what its accesses have left (R316). -/
def execStreamFetchAhead (s : State) : Out :=
  let c := s.ev.c
  let sl := s.ev.sl
  let t := s.thread c sl
  let cur := s.cur
  let q := t.ports[s.ev.port.toNat]'s.ev.port.isLt
  if !t.live || q.st != .running || q.isWrite then .next s
  else
    let k := q.next + s.ev.k
    if k ≥ q.total || (Map.find? q.ahead k).isSome then .next s
    else
      let s' := { s with cur := (c, sl) }
      match s'.check (s'.req (q.elem k) q.esz true false) with
      | .ok s1 tgt =>
        match s1.load c tgt q.esz with
        | .ok s2 (bs, false) =>
          let q := s2.th.ports[s.ev.port.toNat]'s.ev.port.isLt
          .next { (s2.setTh { s2.th with ports := s2.th.ports.set s.ev.port.toNat { q with ahead := Map.put q.ahead k (zext bs) }
                                                    s.ev.port.isLt }) with cur }
        | .stop f => .fault f
        | .ok r _ | .trap r _ | .wait r _ => .next { s'.keepRecords r with cur }
      | .trap r _ | .wait r _ => .next { s'.keepRecords r with cur }
      | .stop f => .fault f

/-! ### Dispatch and the ends of crews and launches -/

/-- DISPATCH (R329): one decision of the dispatcher for a context. -/
def execDispatch (s : State) : Out := .next (s.dispatchOne s.ev.o)

/-- CREW_DONE (R189): crew k of launch num is counted done. -/
def execCrewDone (s : State) : Out :=
  match s.launch? s.ev.num with
  | none => .next s
  | some l =>
    match Map.find? l.crews s.ev.k with
    | none => .next s
    | some w => .next (if s.crewIdle w && (s.ctx l.owner).save != .saved then s.retireCrew s.ev.num s.ev.k else s)

/-- Every crew of a launch is done (R190). -/
def Launch.finished (l : Launch) : Bool := !l.completed && decide (l.doneCrews ≥ l.total) && l.crews.isEmpty

/-- LAUNCH_COMPLETE (R190): launch num completes. -/
def execLaunchComplete (s : State) : Out :=
  match s.launch? s.ev.num with
  | none => .next s
  | some l => .next (if l.finished then s.completeLaunch s.ev.num else s)

/-- DEPENDENCE_TEST (R188). -/
def execDependenceTest (s : State) : Out := .next (s.testDependence s.ev.num)

/-- PROMOTION (R328): launch num rises to the next level. -/
def execPromotion (s : State) : Out :=
  match s.launch? s.ev.num with
  | none => .next s
  | some l => .next (if s.promotable l then s.enterLevel s.ev.num (l.level + 1) else s)

/-- CORE_RESERVATION (R331): launch num reserves a core. -/
def execCoreReservation (s : State) : Out :=
  match s.launch? s.ev.num with
  | none => .next s
  | some l => .next (if s.reservable l then s.reserveCore s.ev.num l else s)

/-! ### The progress clock (R339, R340) -/

/-- A limit or the dirty-log throttle withholds a request of a core (R404, R406): of a thread's step, of its write-backs or refills, or of
an engine's operation. -/
def Core.withheld (k : Core) (limited : Bool) : Bool :=
  k.threads.any (fun t => t.2.wait == .bandwidth || t.2.wait == .dirtyLog || (limited && (t.2.wait == .flush || t.2.wait == .refill)))
    || k.cps.any (fun e => e.2.withheld) || k.mx.any (fun e => e.2.withheld) || k.vx.any (fun e => e.2.withheld)

/-- A context's progress clock stands still (R339): it is stopped for a save, slowed, or a request of it is withheld. -/
def State.progressHeld (s : State) (o : Nat) : Bool :=
  let k := s.ctx o
  !k.runs || s.cores.any (fun e => e.2.owner.toNat == o && (decide (e.2.rate > 1) || e.2.withheld (s.fnc k.fn).limited))

/-- A job's progress clock n cycles on; where it reaches its limit in them, its watchdog fires (R339, R340). -/
def Job.tick (j : Job) (n : Nat) : Job :=
  { j with
    progress := j.progress + n
    expired := j.expired || (decide (n ≠ 0) && decide (j.wdlog2 ≠ 0) && decide (j.progress + n ≥ 2 ^ j.wdlog2)) }

/-- Cycles pass for a context's progress clock (R339). -/
def State.tickProgress (s : State) (n o : Nat) : State :=
  match (s.ctx o).job with
  | none => s
  | some j => if s.progressHeld o then s else s.setJob o (j.tick n)

/-- Cycles pass for a grace period (R342). -/
def State.tickGrace (s : State) (n o : Nat) : State :=
  let k := s.ctx o
  match k.pre with
  | some p => if k.save = .grace then s.setCtx o { k with pre := some { p with left := p.left - n } } else s
  | none => s

/-- Cycles that a context has run count (R410). -/
def State.tickRun (s : State) (n o : Nat) : State :=
  let k := s.ctx o
  if k.save ≠ .saved ∧ k.save ≠ .gone then s.setCtx o { k with cyclesRun := k.cyclesRun + n } else s

/-- Cycles pass for the device. -/
def State.pass (s : State) (n : Nat) : State :=
  let s := { s with now := s.now + n }
  s.owners.foldl (fun s o => (((s.tickLaunches n o).tickProgress n o).tickGrace n o).tickRun n o) s

/-- A job's watchdog has fired, and nothing else has decided its end (R340). -/
def Job.hung (j : Job) : Bool := j.expired && j.ending.isNone

/-- WATCHDOG_EXPIRY (R340): the job of a context is cancelled and will end with HANG; while the context is being saved, as soon as the
save completes (R346). -/
def execWatchdogExpiry (s : State) : Out :=
  let o := s.ev.o
  match (s.ctx o).job with
  | none => .next s
  | some j =>
    .next (match j.hung, (s.ctx o).save with
      | false, _ | true, .draining | true, .gone => s
      | true, .saved => (s.cancelSaved o .hang).1
      | true, .running | true, .grace => ((s.cancelJob o none .hang).1).settleJob o)

end Sys2Proof.Machine
end

