-- ==== Sys2Proof/Machine/Preempt.lean ====
section
/-! DEFINITION. Pre-emption: the end of the grace period, the end of the drain and what it writes, and the reloading of an image
(spec/20_preemption_faults.md R342 to R352; spec/08_system_traps_rights.md R210). -/

namespace Sys2Proof.Machine

/-! ### Locked lines across a save (R210, R345) -/

/-- The locks of an owner's cores are issued again: every locked line is filled from memory, and one whose fill has to wait keeps its lock
until it is known to fail (R210, R345). -/
def State.relock (s : State) (o : Nat) : State :=
  ((s.cores.filter (fun e => e.2.owner.toNat == o)).map (·.1)).foldl (fun s c =>
    let k := s.core c
    let s := s.setCore c { k with icache := k.icache.map (fun l =>
      if l.locked then { l with key := s.lineKey c l.ptr, stale := true, relock := true, waitPage := none } else l) }
    match s.refillStale c with
    | .ok s _ | .wait s _ => s
    | _ => s) s

/-! ### The stop (R344) -/

/-- A thread stops for a save: its wait ends, whose outcome, where it has one, goes back, and a deferred report that falls at the same
boundary is entered first, or, where an instruction has to complete before it, at that boundary (R201, R344). -/
def State.stopThread (s : State) (c sl : Nat) : State :=
  let ev := s.ev
  let s := s.stopWait c sl
  let s := match execDeferredTrap { s with ev := { ev with c, sl } } with
    | .next s' => { s' with ev }
    | _ => s
  let k := s.core c
  let t := k.thread sl
  s.setThread c sl { t with trapDue := !t.inTrap && !t.reports.isEmpty && (t.wait.drains || k.vecBusy sl || k.folding sl) }

/-- Every thread of a context stops, and the drain begins (R344). -/
def State.stopForSave (s : State) (o : Nat) : State :=
  let s := (s.liveThreads o).foldl (fun s t => s.stopThread t.1 t.2.1) s
  let k := s.ctx o
  s.setCtx o { k with save := .draining }

/-- GRACE_EXPIRY (R344): the grace period of a context has elapsed and its pre-emption is forced. -/
def execGraceExpiry (s : State) : Out :=
  let o := s.ev.o
  let k := s.ctx o
  match k.save, k.pre with
  | .grace, some p => .next (if p.left = 0 then s.stopForSave o else s)
  | _, _ => .next s

/-! ### The drain (R344, R345) -/

/-- A core has nothing left to drain (R344 items 1 to 3). -/
def Core.drained (k : Core) : Bool :=
  k.mx.isEmpty && k.vx.isEmpty && k.cps.isEmpty && k.resv.isEmpty
    && k.live.all (fun t => !t.2.wait.drains && !t.2.wait.token && !t.2.trapDue) && k.threads.all (fun t => t.2.queue.isEmpty)

/-- The drain of an owner's context has ended (R344). -/
def State.drained (s : State) (o : Nat) : Bool :=
  (s.cores.filter (fun e => e.2.owner.toNat == o)).all (fun e => e.2.drained)
    && !s.hub.msgs.any (fun m => m.owner == o) && !s.hub.secQ.any (fun q => q.owner == o)
    && !s.hub.cuts.any (fun c => c.req.owner == o) && !s.hub.pageReqs.any (fun q => q.owner == o && q.post)

/-- The dirty L1 bytes of an owner's cores that can reach memory are written back (R344 item 6). -/
def State.drainL1 (s : State) (o : Nat) : State :=
  ((s.cores.filter (fun e => e.2.owner.toNat == o)).map (·.1)).foldl (fun s c => s.writeBack c) s.drainSeq

/-- No byte of an L1 of an owner's cores is dirty. -/
def State.l1sClean (s : State) (o : Nat) : Bool :=
  s.cores.all (fun e => e.2.owner.toNat != o || e.2.l1.all (fun b => !b.dirty))

/-- The image of a context as it stands, its version-table counters given (R347, R351). -/
def State.imageFor (s : State) (o : Nat) (forced : Bool) : Image :=
  let k := s.ctx o
  let v := Map.getD s.hub.vtab k.vidx {}
  { forced, owner := o, prot := k.prot, vidx := k.vidx, ctr := v.saveCtr + 1, attempt := (v.attempt + 1) % 2 ^ 32
    phases := k.phases, cores := k.cores.map (fun c => (k.logNo c, s.core c)), clusters := k.tab.map (fun e => (e.1, s.cluster e.2)) }

/-- An image is written to an SPA: its bytes clear the poison of the lines they fill, the lines of poisoned scratchpad bytes excepted
(R356, R357). -/
def State.writeImage (s : State) (o at_ : Nat) (m : Image) : State :=
  let bad := (m.poisonLines.map (· + at_ / 64)).filter (fun l => !s.downExp (l * 64))
  let s := s.putBytes o at_ (m.bytes (s.ctx o).key)
  { s with poison := bad ++ s.poison }

/-- ATTEMPT and SAVECTR of a protected context step with its image (R351). -/
def State.stepCounters (s : State) (o : Nat) : State :=
  let k := s.ctx o
  let v := Map.getD s.hub.vtab k.vidx {}
  if k.prot then
    { s with hub := { s.hub with
        vtab := Map.put s.hub.vtab k.vidx { v with saveCtr := v.saveCtr + 1, attempt := (v.attempt + 1) % 2 ^ 32 } } }
  else s

/-- What the threads of a context's cores have stored without an IFENCE, by logical core (R207). -/
def State.unfencedOf (s : State) (o : Nat) : Map (List Unfenced) :=
  let k := s.ctx o
  k.cores.filterMap (fun c => if (s.core c).unfenced.isEmpty then none else some (k.logNo c, (s.core c).unfenced))

/-- A context's image is written, its cores' owner registers are cleared, and it is saved (R319, R345); no
core is left that has a KEY_UPDATE's boundary to take (R381). What its threads have stored without an IFENCE since is kept from their
fetches across the save too (R201, R207). -/
def State.saveContext (s : State) (o at_ : Nat) (forced : Bool) : State :=
  let m := s.imageFor o forced
  let unfenced := s.unfencedOf o
  let s := ((s.writeImage o at_ m).stepCounters o).scrub o
  let k := s.ctx o
  (s.setCtx o { k with save := .saved, pre := none, imgAt := at_, imgLen := imageLength m.sections, unfenced }).endKeyUpdate o .ok

/-- What waited for the end of a save takes effect (R346, R367): of several CTX_DESTROYs the first destroys the context, and the others find
none (R407). -/
def State.afterSave (s : State) (o : Nat) : State :=
  let k := s.ctx o
  let saved := k.save == .saved
  let s := k.cancelWaits.foldl (fun s fn =>
      let (s, n) := if saved then s.cancelSaved o .cancelled else s.cancelJob o none .cancelled
      (s.settleJob o).finish fn .ok (leBytes 8 n)) (s.setCtx o { k with cancelWaits := [], destroyWaits := [] })
  match k.destroyWaits with
  | [] => s
  | fn :: rest => rest.foldl (fun s g => s.finish g .noctx) (s.destroy o .cancelled (some fn))

/-- The header of an image is written first (R345, R347; DESIGN CHOICE, log 57: the spec gives the writing no stages, but that a header may
have begun before the image is whole, R353). -/
def State.beginImage (s : State) (o : Nat) (p : PreReq) : State :=
  let k := s.ctx o
  let s := s.putBytes o p.dest (((s.imageFor o (!p.coop)).bytes k.key).take 256)
  s.setCtx o { k with pre := some { p with begun := true } }

/-- DRAIN_END (R345): the drain of a context's pre-emption has ended: NOSPACE is reported and it goes on, or the header of its image is
written, and, where that stands, the image, by a step each. What a CHECKPOINT has stopped is written by that command (R374). -/
def execDrainEnd (s : State) : Out :=
  let o := s.ev.o
  let k := s.ctx o
  match k.save, k.pre with
  | .draining, some p =>
    if p.checkpoint || !s.drained o then .next s
    else
      let s := s.drainL1 o
      if !s.l1sClean o then .next s
      else
      let len := imageLength (s.imageFor o (!p.coop)).sections
      if len > p.size then
        let s := s.relock o
        let k := s.ctx o
        .next (((s.setCtx o { k with save := .running, pre := none }).answer p.fn .nospace).afterSave o)
      else if !p.begun then .next (s.beginImage o p)
      else .next (((s.saveContext o p.dest (!p.coop)).answer p.fn .ok (leBytes 8 len)).afterSave o)
  | _, _ => .next s

/-! ### RESTORE's loading (R349, R352) -/

/-- A thread of an image as its launch stands: live while a crew of its context's job holds it (R346). -/
def State.settleThread (s : State) (o c sl : Nat) (t : Thread) : Option Thread :=
  (s.launch? t.id.launch.toNat).bind (fun l =>
    if l.owner = o ∧ !l.cancelled ∧ !l.completed ∧ l.crews.any (fun w => w.2.core == c && w.2.slots.contains sl)
    then some { t with id := { t.id with shw := l.shw } } else none)

/-- The slots of a core that crews of an owner's launches hold (R189, R330). -/
def State.heldSlots (s : State) (o c : Nat) : List Nat :=
  (s.liveLaunches o).flatMap (fun e => (e.2.crews.filter (fun w => w.2.core == c)).flatMap (fun w => w.2.slots))

/-- A core of an image is placed on a physical core (R36, R319, R349): L1, PLB and TLB empty, its poisoned scratchpad lines given, and what
its threads have stored without an IFENCE (R207). -/
def State.placeCore (s : State) (o c : Nat) (k : Core) (bad : List Nat) (unfenced : List Unfenced) : State :=
  let old := s.core c
  let live := k.threads.filterMap (fun t => (s.settleThread o c t.1 t.2).map (fun x => (t.1, x)))
  let dead := ((s.heldSlots o c).filter (fun sl => !live.any (fun t => t.1 == sl))).map (fun sl => (sl, ({} : Thread)))
  let threads : Map Thread := (live ++ dead).foldl (fun m t => Map.put m t.1 t.2) []
  s.setCore c { k with owner := BitVec.ofNat 16 o, threads, spadPoison := bad, unfenced, born := old.born, rate := old.rate }

/-- The scratchpad lines of each core that an image's poisoned lines hold, in the order of section 3. -/
def State.imagePoison (s : State) (at_ : Nat) (m : Image) : List (Nat × Nat) :=
  let first := ((placeSections 256 m.sections).getD 2 (0, 0)).1 / 64
  let lines := m.cores.flatMap (fun e => (firstsOf e.2.live).flatMap (fun t =>
    (List.range (t.2.range.2 / 64)).map (fun i => (e.1, t.2.range.1 / 64 + i))))
  ((List.range lines.length).zip lines).filterMap (fun e => if s.poison.contains (at_ / 64 + first + e.1) then some e.2 else none)

/-- Every section of an image is reloaded and the locks are issued again (R349, R352); the context runs. -/
def State.loadImage (s : State) (o at_ : Nat) (m : Image) : State :=
  let k := s.ctx o
  let bad := s.imagePoison at_ m
  let s := m.cores.foldl (fun s e =>
    match k.coreAt (e.1 % 64) (e.1 / 64) with
    | some c => s.placeCore o c e.2 ((bad.filter (fun b => b.1 == e.1)).map (·.2))
        (if at_ = k.imgAt then Map.getD k.unfenced e.1 [] else [])
    | none => s) s
  let s := m.clusters.foldl (fun s e => match Map.find? k.tab e.1 with
    | some i => s.setCluster i { s.cluster i with bars := e.2.bars }
    | none => s) s
  let s := s.setCtx o { k with save := .running, phases := m.phases, unfenced := [] }
  (s.relock o).progress o

end Sys2Proof.Machine
end

