-- ==== Sys2Proof/Machine/Cordwain.lean ====
section
/-! DEFINITION. Cordwain's commands on contexts, jobs and counters (spec/24_firmware_management.md R407 to R410;
spec/22_confidential_code.md R364 to R368, R382, R383; spec/23_host_fabric_partitions.md R392, R403). -/

namespace Sys2Proof.Machine

/-! ### Taking a command (R392, R407) -/

/-- A number of a request area. -/
def Func.arg (f : Func) (off n : Nat) : Nat := f.req.le off n

/-- The bytes of a request that no field names, below the end of its last field, are zero (R407). -/
def Func.reservedOk (f : Func) (fields : List (Nat × Nat)) : Bool :=
  let last := fields.foldl (fun a e => Nat.max a (e.1 + e.2)) 0
  (List.range last).all (fun i => fields.any (fun e => decide (e.1 ≤ i) && decide (i < e.1 + e.2)) || f.req.get i == 0)

/-- The command at the head of Cordwain's order, if it is this one: with an opcode and, for those that have one, a SUB that a
predicate admits. It is taken from the order; one that only the PF may send, or whose reserved bytes are not zero, completes
without effect. -/
def State.command (s : State) (op : Nat) (sub : Nat → Bool) (pf : Bool) (fields : List (Nat × Nat))
    (body : State → Nat → Func → State) : Out :=
  let fn := s.ev.fn
  let f := s.fnc fn
  if s.hub.cmdQ.head? ≠ some fn ∨ f.cmdOp.toNat ≠ op ∨ !sub (f.arg 0 1) then .next s
  else
    let s := { s with hub := { s.hub with cmdQ := s.hub.cmdQ.drop 1 } }
    if pf && fn != 0 then .next (s.finish fn .denied)
    else if !f.reservedOk fields then .next (s.finish fn .badreq)
    else .next (body s fn f)

/-- A command without a SUB. -/
def noSub : Nat → Bool := fun _ => true

/-- The context that a function's command names (R407): the function's own, or any for the PF. -/
def State.ownedBy (s : State) (fn o : Nat) : Option Ctx :=
  (Map.find? s.ctxs o).bind (fun k => if k.save ≠ .gone ∧ (fn = 0 ∨ k.fn = fn) then some k else none)

/-- A command on the context that its request names; NOCTX if it names none of the function's. -/
def State.onCtx (s : State) (fn o : Nat) (body : Ctx → State) : State :=
  match s.ownedBy fn o with
  | some k => body k
  | none => s.finish fn .noctx

/-- A PREEMPT of a context is under way, or it is saved (R342). -/
def Ctx.saving (k : Ctx) : Bool := k.save != .running

/-- A context is saved or being saved (R408): in a grace period it is not yet (R339). -/
def Ctx.busy (k : Ctx) : Bool := k.save == .draining || k.save == .saved

/-! ### IDENTIFY and ATTEST (R382, R383, R407) -/

/-- The firmware measurement (R382). -/
def firmware : List Byte :=
  sha256 (sha256 Config.rom ++ (match Config.patch with
    | some p => sha256 p
    | none => List.replicate 32 0))

/-- The response of IDENTIFY (R407). -/
def State.identifyBytes (s : State) (fn : Nat) : List Byte :=
  leBytes 8 Config.partCode.toNat ++ leBytes 8 Config.stepping.toNat ++ leBytes 8 s.dev.devnum.toNat ++ leBytes 8 fn ++ firmware

/-- IDENTIFY (R407). -/
def execIdentify (s : State) : Out :=
  s.command 1 noSub false [] fun s fn _ => s.finish fn .ok (s.identifyBytes fn)

/-- 64 bytes of a line of global space at their home; zeros where no leaf maps them. -/
def State.homeLine (s : State) (o : Nat) (p : Word) : State × List Byte :=
  match s.walk 0 (vaOf p) false with
  | (s, .fault _ _) => (s, List.replicate 64 0)
  | (s, .leaf e lvl) =>
    let (s, bs, _) := s.readHome o 0 (vaOf p) e (leafSpa e lvl (vaOf p)) 64
    (s, bs)

/-- n bytes of global space from the start of a line on, at their home. -/
def State.homeBytes (s : State) (o : Nat) (p : Word) (n : Nat) : State × List Byte :=
  let (s, bs) := (List.range ((n + 63) / 64)).foldl (fun (a : State × List Byte) i =>
    let (s, l) := a.1.homeLine o (p + BitVec.ofNat 64 (64 * i))
    (s, a.2 ++ l)) (s, [])
  (s, bs.take n)

/-- A window's text measurement (R382); 32 zero bytes for one not in use (R383). -/
def State.textMeasure (s : State) (o : Nat) (w : TextWin) : State × List Byte :=
  if w.valid then
    let (s, tags) := s.homeBytes o w.tagBase (w.len.toNat / 8)
    (s, sha256 (leBytes 8 w.textBase.toNat ++ leBytes 8 w.len.toNat ++ leBytes 4 w.epoch.toNat ++ tags))
  else (s, List.replicate 32 0)

/-- The text measurements of a context's windows 0 to 3. -/
def State.textMeasures (s : State) (o : Nat) : State × List (List Byte) :=
  (List.range 4).foldl (fun (a : State × List (List Byte)) i =>
    let (s, m) := a.1.textMeasure o (Map.getD (s.ctx o).wins i {})
    (s, a.2 ++ [m])) (s, [])

/-- Bytes cut or filled with zeros to a length. -/
def fit (n : Nat) (bs : List Byte) : List Byte := (bs ++ List.replicate (n - bs.length) 0).take n

/-- The signed part of an ATTEST report (R383), with the context's text measurements. -/
def State.attestBody (s : State) (fn o : Nat) (nonce : List Byte) (texts : List (List Byte)) : List Byte :=
  let k := s.ctx o
  leBytes 4 0x5A394152 ++ leBytes 2 1 ++ leBytes 2 (if k.prot then 1 else 0) ++ leBytes 4 s.dev.devnum.toNat
    ++ leBytes 4 Config.stepping.toNat ++ leBytes 8 Config.partCode.toNat ++ leBytes 8 0 ++ nonce ++ firmware
    ++ sha256 ((s.fnc k.fn).cfg.bytes 0 64) ++ leBytes 2 o ++ leBytes 2 (if k.prot then k.vidx else 0) ++ leBytes 4 0
    ++ leBytes 8 (if k.prot then (Map.getD s.hub.vtab k.vidx {}).saveCtr else 0) ++ texts.flatten
    ++ sha256 (Config.interfaceReport fn) ++ leBytes 80 0 ++ leBytes 128 0

/-- A signature with the identity key, 384 bytes (R382, R383). -/
def State.sign (s : State) (bs : List Byte) : State × List Byte :=
  ({ s with free := s.free + 1 }, fit 384 (Config.signature s.free bs))

/-- ATTEST (R383). -/
def execAttest (s : State) : Out :=
  s.command 2 noSub false [(0, 32), (32, 2)] fun s fn f =>
    let o := f.arg 32 2
    s.onCtx fn o fun k =>
      let (s, texts) := s.textMeasures o
      let body := s.attestBody k.fn o (f.req.bytes 0 32) texts
      let (s, sig) := s.sign body
      s.finish fn .ok (body ++ sig)

/-! ### CTX_CREATE (R364, R365, R368, R408) -/

/-- The clusters of a function (R403). -/
def Func.clusters (f : Func) : Nat := f.cfg.le 0 4

/-- The clusters that contexts hold, as a mask. -/
def State.heldClusters (s : State) : Nat :=
  (List.range 32).foldl (fun a i => if s.ctxs.any (fun k => k.2.tab.any (fun e => e.2 == i)) then a + 2 ^ i else a) 0

/-- The core table of a new context: its clusters under logical numbers 0, 1 and so on (R365; log 16). -/
def tableOf (mask : Nat) : Map Nat :=
  let ps := bitsOf 32 mask
  (List.range ps.length).zip ps

/-- The route table of an owner's context (R33, R366): the path of each direction from each of its logical clusters (log 60). -/
def routesOf (o : Nat) (tab : Map Nat) : Map Nat :=
  tab.flatMap (fun e => (List.range 4).map (fun d => (4 * e.1 + d, Config.routePath o (4 * e.1 + d))))

/-- The lowest owner number that is free (R364). -/
def State.freeOwner (s : State) : Option Nat :=
  ((List.range 65535).map (· + 1)).find? (fun o => (Map.find? s.ctxs o).isNone)

/-- The lowest key slot that is free (R368). -/
def State.freeKeySlot (s : State) : Option Nat :=
  ((List.range 1023).map (· + 1)).find? (fun i => !s.ctxs.any (fun k => k.2.keySlot == i))

/-- The lowest version-table entry that is free (R372). -/
def State.freeEntry (s : State) : Option Nat :=
  ((List.range 4095).map (· + 1)).find? (fun x => (Map.getD s.hub.vtab x {}).kind == 0)

/-- A new context's cores: empty, with its owner number (R22, R25, R364). -/
def State.giveCores (s : State) (o : Nat) : State :=
  let k := s.ctx o
  k.cores.foldl (fun s c =>
    let old := s.core c
    s.setCore c { owner := BitVec.ofNat 16 o, born := old.born, rate := old.rate }) s

/-- A context is created (R364, R366, R368, R372): owner number, core and route tables, key slot with its keys, the key of its images, and version-table entry. -/
def State.createCtx (s : State) (fn o : Nat) (mask : Nat) (prot : Bool) (svec : Word) (cap : Nat) (allow : Word) (slot vidx : Nat) :
    State :=
  let k : Ctx := { fn, prot, tab := tableOf mask, routes := routesOf o (tableOf mask), svec, cap := 2 ^ cap, allow }
  let k := if prot then { k with keySlot := slot, vidx, key := Config.drawKey s.hub.draws } else k
  let s := if prot then
      let v := Map.getD s.hub.vtab vidx {}
      { s with hub := { s.hub with
          draws := s.hub.draws + 2
          slotKeys := Map.put s.hub.slotKeys slot (SlotKey.draw (s.hub.draws + 1))
          vtab := Map.put s.hub.vtab vidx { v with kind := 1, owner := o, frames := [] } } }
    else s
  (s.setCtx o k).giveCores o

/-- CTX_CREATE SUB 0 (R408), in the order of its checks; any SUB but 1 and 2 comes here. -/
def execCtxCreate (s : State) : Out :=
  s.command 3 (fun n => n != 1 && n != 2) false [(0, 1), (8, 8), (16, 8), (24, 8), (32, 1), (40, 8)] fun s fn f =>
    let mask := f.arg 8 8
    let flags := f.arg 16 8
    let cap := f.arg 32 1
    let prot := flags == 1
    if f.arg 0 1 ≠ 0 ∨ flags > 1 ∨ cap < 6 ∨ cap > 20 then s.finish fn .badreq
    else if mask = 0 ∨ mask &&& f.clusters ≠ mask then s.finish fn .badreq
    else if mask &&& s.heldClusters ≠ 0 then s.finish fn .busy
    else if prot && f.tdisp != .locked && f.tdisp != .run then s.finish fn .denied
    else
      let create (o slot vidx : Nat) : State :=
        (s.createCtx fn o mask prot (BitVec.ofNat 64 (f.arg 24 8)) cap (BitVec.ofNat 64 (f.arg 40 8)) slot vidx).finish fn .ok
          (leBytes 2 o ++ leBytes 2 vidx)
      match s.freeOwner, prot, s.freeKeySlot, s.freeEntry with
      | some o, false, _, _ => create o 0 0
      | some o, true, some slot, some x => create o slot x
      | _, _, _, _ => s.finish fn .full

/-- CTX_CREATE SUB 1 (R313, R408): a root entry is installed; what its range holds of a protected context stands in HBM under the context's
key slot from then on (R369; log 61). -/
def execCtxCreateRootEntry (s : State) : Out :=
  s.command 3 (· == 1) false [(0, 1), (8, 2), (16, 8), (24, 8), (32, 1), (33, 1)] fun s fn f =>
    let o := f.arg 8 2
    let p := f.arg 16 8
    let n := f.arg 24 8
    s.onCtx fn o fun k =>
      let t := s.table o
      if p % 64 ≠ 0 ∨ n = 0 ∨ p / 2 ^ 56 ≠ 0 ∨ !oneRegion p (64 * n) ∨ f.arg 32 1 > 15
          ∨ t.any (fun e => e.meets (p / 64) n) then s.finish fn .badreq
      else if t.length ≥ k.cap then s.finish fn .full
      else
        let gid := s.hub.nextGid
        let e : REntry := {
          base := p / 64, len := n, age := BitVec.ofNat 8 (f.arg 33 1), rights := BitVec.ofNat 4 (f.arg 32 1), gid }
        let s := { s with hub := { s.hub with nextGid := gid + 1 } }.setTable o (tableInsert e t)
        (if k.prot then s.keyRange (p / 64) n else s).finish fn .ok (leBytes 8 gid)

/-- CTX_CREATE SUB 2 (R320, R408): a root entry is removed by a cut, which answers when it ends. An entry whose removal has been asked for
is removed already (log 57). -/
def execCtxCreateRemoveRoot (s : State) : Out :=
  s.command 3 (· == 2) false [(0, 1), (8, 2), (16, 8)] fun s fn f =>
    let o := f.arg 8 2
    let gid := f.arg 16 8
    s.onCtx fn o fun _ =>
      let asked := s.hub.secQ.any (fun q => match q.kind with
        | .removeRoot g _ => q.owner == o && g == gid
        | _ => false)
      if asked || !(s.table o).any (fun e => e.pgid == 0 && e.gid == gid) then s.finish fn .badreq
      else
        let q : SecReq := { kind := .removeRoot gid fn, owner := o }
        { s with hub := { s.hub with secQ := s.hub.secQ ++ [q] } }

/-- CTX_DESTROY (R367): a context that is being saved is destroyed once the save has completed. -/
def execCtxDestroy (s : State) : Out :=
  s.command 4 noSub false [(8, 2)] fun s fn f =>
    let o := f.arg 8 2
    s.onCtx fn o fun k =>
      if k.save = .grace ∨ k.save = .draining then s.setCtx o { k with destroyWaits := k.destroyWaits ++ [fn] }
      else s.destroy o .cancelled (some fn)

/-! ### Jobs (R192, R325, R408) -/

/-- A check of Cordwain's for an owner at n bytes of global space (R142, R187 as R408 applies it): aligned, translated, and a right with the
pointer's age. It reads or writes. -/
def State.rootAccess (s : State) (o : Nat) (p : Word) (n : Nat) (wr : Bool) : State × Bool :=
  if regionOf (vaOf p) ≠ .glob ∨ vaOf p % n ≠ 0 then (s, false)
  else
    match s.walk 0 (vaOf p) wr with
    | (s, .fault _ _) => (s, false)
    | (s, .leaf _ _) =>
      let (s, e) := s.tableEntry o (vaOf p / 64)
      (s, (rightsCheck e p (!wr) wr false).isNone)

/-- A check made only if those before it have passed. -/
def rootThen (a : State × Bool) (check : State → State × Bool) : State × Bool := if a.2 then check a.1 else a

/-- Steps 1 to 5 of R187 for a root launch record (R408): the record, if they pass. -/
def State.rootRecord (s : State) (o : Nat) (p : Word) : State × Option (BitVec 512) :=
  let poisoned (s : State) : Bool := match s.leafOf (vaOf p) with
    | some (_, e, lvl) => s.readPoison (s.ctx o).fn (leafSpa e lvl (vaOf p))
    | none => true
  let (s, ok) := rootThen (rootThen (s, p.toNat % 128 == 0) (fun s => s.rootAccess o p 64 false)) (fun s =>
    s.rootAccess o (p + 64) 64 true)
  if !ok then (s, none)
  else
    let bad := poisoned s
    let (s, bs) := s.homeLine o p
    let recd := BitVec.ofNat 512 (leNat bs)
    let l : Launch := { ptr := p, recd, owner := o }
    let (s, ok) := rootThen (rootThen (s, !bad && (badRecordBit recd).isNone) (fun s =>
      if l.ccaddr = 0 then (s, true) else s.rootAccess o l.ccaddr 8 true)) (fun s =>
      if l.dep then s.rootAccess o l.depPtr 8 false else (s, true))
    (s, if ok then some recd else none)

/-- JOB_START (R408), in the order of its checks. One that they refuse leaves only the records of what its accesses found (R358, R407). -/
def execJobStart (s : State) : Out :=
  s.command 5 noSub false [(8, 2), (16, 8), (24, 8), (32, 8)] fun s fn f =>
    let o := f.arg 8 2
    let p := BitVec.ofNat 64 (f.arg 16 8)
    let sched := BitVec.ofNat 64 (f.arg 24 8)
    if !schedOk sched then s.finish fn .badreq
    else
      s.onCtx fn o fun k =>
        let g := s.fnc k.fn
        if k.job.isSome || k.busy then s.finish fn .busy
        else if k.prot && (g.tdisp != .run || g.spdm.session.isNone) then s.finish fn .denied
        else
          match s.rootRecord o p with
          | (r, none) => (s.keepRecords r).finish fn .badreq
          | (r, some recd) =>
            let k := r.ctx o
            let l : Launch := { ptr := p, recd, owner := o }
            let j : Job := { sched, spillBase := BitVec.ofNat 64 (f.arg 32 8), root := r.hub.nextLaunch }
            match r.lqFull o j l.pw l.graph with
            | some _ => (s.keepRecords r).finish fn .full
            | none =>
              let s := r.setCtx o { k with job := some j, lastStatus := .running, lastDone := 0 }
              ((s.enterLaunch o 0 p recd).1).finish fn .ok

/-- JOB_CANCEL (R192, R346): at once, or as soon as a save that is under way completes. -/
def execJobCancel (s : State) : Out :=
  s.command 6 noSub false [(8, 2)] fun s fn f =>
    let o := f.arg 8 2
    s.onCtx fn o fun k =>
      match k.save with
      | .draining => s.setCtx o { k with cancelWaits := k.cancelWaits ++ [fn] }
      | .saved => let (s, n) := s.cancelSaved o .cancelled; s.finish fn .ok (leBytes 8 n)
      | _ => let (s, n) := s.cancelJob o none .cancelled; (s.settleJob o).finish fn .ok (leBytes 8 n)

/-! ### PREEMPT and RESTORE (R342, R352) -/

/-- A range of SPAs lies in the second tier, or in host memory (R342). -/
def State.imageRoom (s : State) (a n : Nat) : Bool :=
  let tier (x : Nat) : Nat := match s.home x with
    | .exp _ => 1
    | .host => 2
    | _ => 0
  n != 0 && tier a != 0 && tier a == tier (a + n - 1)

/-- Core-clock cycles of a grace period in microseconds; 0 selects 2 ms (R342). -/
def graceCycles (us : Nat) : Nat := Config.clkMHz * (if us = 0 then 2000 else us)

/-- PREEMPT (R342): the grace period begins; it completes when the save does. -/
def execPreempt (s : State) : Out :=
  s.command 7 noSub false [(8, 2), (16, 4), (24, 8), (32, 8)] fun s fn f =>
    let o := f.arg 8 2
    let g := f.arg 16 4
    let dest := f.arg 24 8
    let size := f.arg 32 8
    if g > 1000000 ∨ dest % 4096 ≠ 0 ∨ !s.imageRoom dest size then s.finish fn .badreq
    else
      s.onCtx fn o fun k =>
        if k.saving then s.finish fn .busy
        else s.setCtx o { k with save := .grace, pre := some { left := graceCycles g, dest, size, fn := some fn } }

/-- RESTORE (R352), in the order of its checks. An image in an expander that is down has no magic (R397). -/
def execRestore (s : State) : Out :=
  s.command 8 noSub false [(8, 2), (16, 8), (24, 8)] fun s fn f =>
    let o := f.arg 8 2
    let at_ := f.arg 16 8
    let len := f.arg 24 8
    s.onCtx fn o fun k =>
      let v := Map.getD s.hub.vtab k.vidx {}
      if k.save ≠ .saved then s.finish fn .busy
      else if k.prot && (s.fnc k.fn).tdisp != .run then s.finish fn .denied
      else
        let h := s.mem.bytes at_ 256
        if s.rangeDown at_ len then (s.ras 1 3 (BitVec.ofNat 64 at_) o).finish fn .badimage
        else if !headerOk k o len h then s.finish fn .badimage
        else if k.prot && numAt h 16 8 != v.saveCtr then s.finish fn .staleImage
        else
          let img := s.mem.bytes at_ len
          let body := slice img 256 (len - 272)
          let plain := if k.prot then
              (gcmOpen k.key (imageIv (numAt h 16 8) (numAt h 24 4)) h body (img.drop (len - 16))).map
                (fun b => h ++ b ++ leBytes 16 0)
            else some img
          match plain with
          | none => ((s.finish fn .tagFail).alarm2 9 (BitVec.ofNat 64 at_) o).countTagFail o
          | some img =>
            let m := imageOf k.prot k.tab.length img
            if m.fits k img then (s.loadImage o at_ m).finish fn .ok else s.finish fn .badimage

/-! ### SET_QOS (R403, R408) -/

/-- Launches of an owner above a ceiling enter the level of the ceiling (R328), in the order of their numbers (DESIGN CHOICE, log 64: the
spec gives none). -/
def State.lowerLevels (s : State) (o ceil : Nat) : State :=
  (s.liveLaunches o).foldl (fun s e => if e.2.level > ceil ∧ e.2.slot.isSome then s.enterLevel e.1 ceil
    else if e.2.level > ceil then s.setLaunch e.1 { e.2 with level := ceil } else s) s

/-- SET_QOS SUB 0 (R325, R408): the scheduling word of the running job; any SUB but 1 comes here. -/
def execSetQos (s : State) : Out :=
  s.command 10 (· != 1) false [(0, 1), (8, 2), (16, 8)] fun s fn f =>
    let o := f.arg 8 2
    let sched := BitVec.ofNat 64 (f.arg 16 8)
    if f.arg 0 1 ≠ 0 ∨ !schedOk sched then s.finish fn .badreq
    else
      s.onCtx fn o fun k =>
        match k.job with
        | none => s.finish fn .badreq
        | some j => ((s.setJob o { j with sched }).lowerLevels o (fldN sched 24 6)).finish fn .ok

/-- The sub-links of a port under a SPLIT code (R398). -/
def splitLinks (code : Nat) : List Nat := List.range (code + 1)

/-- The sub-links that a configuration record names as its function's, as numbers 4 × port + sub-link (R398, R403). -/
def linksOf (r : Mem) : List Nat :=
  (List.range 18).flatMap (fun p => (bitsOf 4 (r.le (32 + p) 1 / 4)).map (fun j => 4 * p + j))

/-- 64 KiB pages of HBM, and of the second tier (R403). -/
def hbmPages : Nat := 9437184
/-- 64 KiB pages of the second tier (R403). -/
def expPages : Nat := 201326592

/-- Reserved bits and ranges of a configuration record (R403). -/
def recordOk (fn : Nat) (r : Mem) : Bool :=
  r.le 4 4 == 0 && r.le 11 5 == 0 && decide (r.le 16 8 < 2 ^ 28) && decide (r.le 24 1 < 16) && r.le 24 1 != 0 && r.le 29 3 == 0
    && decide (r.le 8 3 ≤ hbmPages) && decide (r.le 16 4 ≤ expPages) && (fn == 0 || r.le 0 4 != 0)
    && (List.range 18).all (fun p => decide (r.le (32 + p) 1 < 64) && (fn == 0 || r.le (32 + p) 1 % 4 == 0))
    && (if fn = 0 then decide (r.le 50 6 < 2 ^ 17) else r.le 50 6 == 0) && r.le 56 8 == 0

/-- A cluster or sub-link of a record is held by another function, or the quotas pass the device's memory (R403). -/
def State.recordClash (s : State) (fn : Nat) (r : Mem) : Bool :=
  let others := s.fns.filter (fun e => e.1 != fn)
  others.any (fun e => e.2.clusters &&& r.le 0 4 != 0 || (linksOf e.2.cfg).any (fun l => (linksOf r).contains l))
    || decide ((others.map (fun e => e.2.cfg.le 8 3)).foldl (· + ·) (r.le 8 3) > hbmPages)
    || decide ((others.map (fun e => e.2.cfg.le 16 4)).foldl (· + ·) (r.le 16 4) > expPages)

/-- The SPLIT code of a port in the PF's record (R403). -/
def State.splitOf (s : State) (p : Nat) : Nat := (s.fnc 0).cfg.le (32 + p) 1 % 4

/-- The function whose record names a sub-link as its own (R403). -/
def State.linkOwner (s : State) (l : Nat) : Option Nat := (List.find? (fun f : Nat × Func => (linksOf f.2.cfg).contains l) s.fns).map (·.1)

/-- The sub-links that the records give (R398, R400, R403), where the ports were split as a given function says: those of a port whose split
has changed are trained with new keys. -/
def State.setLinks (s : State) (was : Nat → Nat) : State :=
  let old := s.hub.links
  ((List.range 18).flatMap (fun p => (splitLinks (s.splitOf p)).map (fun j => (p, 4 * p + j)))).foldl (fun (s : State) e =>
    let kept := if was e.1 = s.splitOf e.1 then Map.find? old e.2 else none
    match kept with
    | some l => { s with hub := { s.hub with links := Map.put s.hub.links e.2 { l with owner := s.linkOwner e.2 } } }
    | none => { s with hub := { s.hub with
        links := Map.put s.hub.links e.2 (SubLink.trained s.hub.draws (s.linkOwner e.2)), draws := s.hub.draws + 2 } })
    { s with hub := { s.hub with links := [] } }

/-- SET_QOS SUB 1 (R403): a function's configuration record. Where the function holds a context, only the QoS word may change. -/
def execSetQosConfigRecord (s : State) : Out :=
  s.command 10 (· == 1) false [(0, 1), (8, 8), (16, 64)] fun s fn f =>
    let g := f.arg 8 8
    let r : Mem := Mem.setBytes [] 0 (f.req.bytes 16 64)
    if g > 32 then s.finish fn .badreq
    else if fn ≠ 0 ∧ g ≠ fn then s.finish fn .denied
    else
      let old := (s.fnc g).cfg
      let other := r.bytes 0 24 != old.bytes 0 24 || r.bytes 32 32 != old.bytes 32 32
      if !recordOk g r || s.recordClash g r || (other && s.ctxs.any (fun k => k.2.fn == g)) then s.finish fn .badreq
      else ((s.setFn g { s.fnc g with cfg := r }).setLinks s.splitOf).finish fn .ok

/-! ### READ_COUNTER and RAS_LOG (R358, R408, R410) -/

/-- The code of a job status (R409). -/
def JobStatus.code : JobStatus → Nat
  | .running => 0 | .done => 1 | .cancelled => 2 | .hang => 3 | .reset => 4 | .alarm => 5 | .noJob => 6

/-- The class and index of a READ_COUNTER are in range (R410). -/
def counterOk (cls idx : Nat) : Bool :=
  match cls with
  | 0 | 2 => true
  | 1 => decide (idx % 4 ≥ 2)
  | 3 => decide (idx < 4)
  | 4 => decide (idx < 6)
  | 5 => decide (idx < 72)
  | _ => false

/-- The value of a counter (R410); sensors are free values (log 11). -/
def State.counter (s : State) (k : Ctx) (cls idx : Nat) : Nat :=
  match cls with
  | 0 => match k.job with
    | some _ => JobStatus.running.code
    | none => k.lastStatus.code
  | 1 =>
    if idx % 4 = 2 then k.phases
    else match k.job with
      | some j => j.doneLaunches
      | none => k.lastDone
  | 2 => k.cyclesRun
  | 5 => (Map.getD s.hub.links idx {}).flits
  | _ => (Config.sensor s.free cls idx).toNat

/-- READ_COUNTER (R410). -/
def execReadCounter (s : State) : Out :=
  s.command 12 noSub false [(8, 2), (16, 2), (20, 4)] fun s fn f =>
    let o := f.arg 8 2
    let cls := f.arg 16 2
    let idx := f.arg 20 4
    if !counterOk cls idx then s.finish fn .badreq
    else
      s.onCtx fn o fun k =>
        if !bitAt k.allow cls then (s.setCtx o { k with audit := k.audit + 1 }).finish fn .filtered (leBytes 8 0)
        else { s with free := s.free + 1 }.finish fn .ok (leBytes 8 (s.counter k cls idx))

/-- A RAS record's bytes (R358). -/
def RasRec.bytes (r : RasRec) : List Byte := wordBytes [r.w0, r.w1, r.w2, r.w3]

/-- The response of RAS_LOG (R407, R408), with the device after the records it returns are gone. -/
def State.takeRas (s : State) : State × List Byte :=
  let rs := s.hub.ras.take 62
  let bytes := leBytes 8 rs.length ++ leBytes 8 s.hub.rasLost ++ leBytes 48 0 ++ rs.flatMap RasRec.bytes
  ({ s with hub := { s.hub with ras := s.hub.ras.drop 62 } }, bytes)

/-- RAS_LOG (R408). -/
def execRasLog (s : State) : Out :=
  s.command 13 noSub true [] fun s fn _ =>
    let (s, bs) := s.takeRas
    s.finish fn .ok bs

end Sys2Proof.Machine
end

