-- ==== Sys2Proof/Machine/Checkpoint.lean ====
section
/-! DEFINITION. CHECKPOINT and recovery from a checkpoint region (spec/16_memory_hierarchy.md R311; spec/22_confidential_code.md R374,
R375). The layout inside the parts is the model's (log 17). -/

namespace Sys2Proof.Machine

/-! ### Numbers in order: what a part holds, and reading it -/

/-- A reader of numbers. -/
abbrev Rd := StateT (List Nat) Option

/-- The next number. -/
def rd : Rd Nat := fun l => match l with
  | [] => none
  | x :: t => some (x, t)

/-- A list, its length first. -/
def rdList {α : Type} (p : Rd α) : Rd (List α) := do
  let n ← rd
  (List.range n).mapM (fun _ => p)

/-- A list's numbers, its length first. -/
def wrList {α : Type} (f : α → List Nat) (l : List α) : List Nat := l.length :: l.flatMap f

/-- A truth value's number. -/
def wrBool (b : Bool) : Nat := if b then 1 else 0

/-- An optional number's numbers. -/
def wrOpt (o : Option Nat) : List Nat :=
  match o with
  | some x => [1, x]
  | none => [0, 0]

/-- An optional number. -/
def rdOpt : Rd (Option Nat) := do
  let a ← rd
  let x ← rd
  pure (if a = 1 then some x else none)

/-- A word. -/
def rdWord {n : Nat} : Rd (BitVec n) := do
  let x ← rd
  pure (BitVec.ofNat n x)

/-- A map of numbers. -/
def wrNats (m : Map Nat) : List Nat := wrList (fun e => [e.1, e.2]) m

/-- A map of numbers. -/
def rdNats : Rd (Map Nat) := rdList (do
  let a ← rd
  let b ← rd
  pure (a, b))

/-- A rights entry (R313). -/
def REntry.nums (e : REntry) : List Nat :=
  [e.base, e.len, e.age.toNat, e.rights.toNat, wrBool e.dm, e.gid, e.pgid, e.pown]

/-- A rights entry. -/
def rdEntry : Rd REntry := do
  let base ← rd
  let len ← rd
  let age ← rdWord
  let rights ← rdWord
  let dm ← rd
  let gid ← rd
  let pgid ← rd
  let pown ← rd
  pure { base, len, age, rights, dm := dm == 1, gid, pgid, pown }

/-- A crew. -/
def crewNums (e : Nat × Crew) : List Nat := [e.1, e.2.core, e.2.base, e.2.size] ++ wrList (fun s => [s]) e.2.slots

/-- A crew. -/
def rdCrew : Rd (Nat × Crew) := do
  let i ← rd
  let core ← rd
  let base ← rd
  let size ← rd
  let slots ← rdList rd
  pure (i, { core, slots, base, size })

/-- A launch with its number: its record as 8 words, its place, clocks and progress. -/
def launchNums (e : Nat × Launch) : List Nat :=
  let l := e.2
  [e.1, l.ptr.toNat] ++ (List.range 8).map (fun i => fldN l.recd (64 * i) 64) ++ [l.owner, l.parent] ++ wrOpt l.slot
    ++ [l.spillNo, wrBool l.depMet, l.level, l.order, l.waitClk, l.blockClk, l.state.toNat, l.started, l.doneCrews]
    ++ wrList crewNums l.crews
    ++ [l.ecause.toNat, l.failCrew.toNat, l.phaseNo, wrBool l.cancelled, l.closing, wrBool l.completed]
    ++ wrOpt (l.canceller.map (·.1)) ++ wrOpt (l.canceller.map (·.2))

/-- A launch with its number. -/
def rdLaunch : Rd (Nat × Launch) := do
  let num ← rd
  let ptr ← rdWord
  let ws ← (List.range 8).mapM (fun _ => rd)
  let owner ← rd
  let parent ← rd
  let slot ← rdOpt
  let spillNo ← rd
  let depMet ← rd
  let level ← rd
  let order ← rd
  let waitClk ← rd
  let blockClk ← rd
  let state ← rdWord
  let started ← rd
  let doneCrews ← rd
  let crews ← rdList rdCrew
  let ecause ← rdWord
  let failCrew ← rdWord
  let phaseNo ← rd
  let cancelled ← rd
  let closing ← rd
  let completed ← rd
  let byCore ← rdOpt
  let bySlot ← rdOpt
  pure (num, {
    ptr, recd := BitVec.ofNat 512 (ws.foldr (fun w a => w + 2 ^ 64 * a) 0), owner, parent, slot, spillNo
    depMet := depMet == 1, level, order, waitClk, blockClk, state, started, doneCrews, crews, ecause, failCrew, phaseNo
    cancelled := cancelled == 1, closing, completed := completed == 1, canceller := byCore.bind (fun c => bySlot.map (fun sl => (c, sl))) })

/-- A job status from its code (R409). -/
def statusOfCode (n : Nat) : JobStatus :=
  match n with
  | 0 => .running
  | 1 => .done
  | 2 => .cancelled
  | 3 => .hang
  | 4 => .reset
  | 5 => .alarm
  | _ => .noJob

/-- A job. -/
def jobNums : Option Job → List Nat
  | none => [0]
  | some j => [1, j.sched.toNat, j.spillBase.toNat, j.spilled, j.root, j.progress, j.doneLaunches, j.nextOrder, wrBool j.expired]
      ++ wrOpt (j.ending.map JobStatus.code) ++ wrNats j.graphs ++ wrNats j.rr

/-- A job. -/
def rdJob : Rd (Option Job) := do
  let have_ ← rd
  if have_ = 0 then pure none
  else
    let sched ← rdWord
    let spillBase ← rdWord
    let spilled ← rd
    let root ← rd
    let progress ← rd
    let doneLaunches ← rd
    let nextOrder ← rd
    let expired ← rd
    let ending ← rdOpt
    let graphs ← rdNats
    let rr ← rdNats
    pure (some { sched, spillBase, spilled, root, progress, doneLaunches, nextOrder, graphs, rr, expired := expired == 1
                 ending := ending.map statusOfCode })

/-- A context with its owner number, keys and windows apart. -/
def ctxNums (e : Nat × Ctx) : List Nat :=
  let k := e.2
  [e.1, wrBool k.prot] ++ wrNats k.tab
    ++ wrList (fun (u : Nat × List Unfenced) => u.1 :: wrList (fun (x : Unfenced) => [x.slot, x.place, x.old.toNat]) u.2) k.unfenced ++ [k.svec.toNat, k.cap, k.allow.toNat, k.audit.toNat, k.aliasSat.toNat, k.phases, k.keySlot,
    k.vidx, k.lastStatus.code, k.lastDone, k.cyclesRun, k.tagSeq] ++ wrList REntry.nums k.rights ++ jobNums k.job

/-- What the threads of a core have stored without an IFENCE, by logical core (R207). -/
def rdUnfenced : Rd (Nat × List Unfenced) := do
  let no ← rd
  let l ← rdList (do
    let slot ← rd
    let place ← rd
    let old ← rdWord
    pure { slot, place, old })
  pure (no, l)

/-- A context with its owner number. -/
def rdCtx : Rd (Nat × Ctx) := do
  let o ← rd
  let prot ← rd
  let tab ← rdNats
  let unfenced ← rdList rdUnfenced
  let svec ← rdWord
  let cap ← rd
  let allow ← rdWord
  let audit ← rdWord
  let aliasSat ← rdWord
  let phases ← rd
  let keySlot ← rd
  let vidx ← rd
  let last ← rd
  let lastDone ← rd
  let cyclesRun ← rd
  let tagSeq ← rd
  let rights ← rdList rdEntry
  let job ← rdJob
  pure (o, {
    prot := prot == 1, tab, routes := routesOf o tab, unfenced, svec, cap, allow, audit, aliasSat, phases, keySlot, vidx, lastStatus := statusOfCode last, lastDone
    cyclesRun, tagSeq, rights, job, save := .saved })

/-- A version-table entry. -/
def vNums (e : Nat × VEntry) : List Nat :=
  [e.1, e.2.saveCtr, e.2.attempt, e.2.owner, e.2.kind] ++ wrList (fun f => [f]) e.2.frames

/-- A version-table entry. -/
def rdV : Rd (Nat × VEntry) := do
  let x ← rd
  let saveCtr ← rd
  let attempt ← rd
  let owner ← rd
  let kind ← rd
  let frames ← rdList rd
  pure (x, { saveCtr, attempt, owner, kind, frames })

/-- A frame key table entry. -/
def rdFk : Rd (Nat × FrameKey) := do
  let f ← rd
  let vab ← rd
  let vidx ← rd
  let kslot ← rd
  pure (f, { vab, vidx, kslot })

/-- What the device block holds (R375): version table, frame key table, grant-id counter, launch counter, contexts with their rights
tables and jobs, launches; and the second-tier frames that hold what was written since the reset (R411; log 17). -/
structure DevBlock where
  vtab : Map VEntry
  fkt : Map FrameKey
  nextGid : Nat
  nextLaunch : Nat
  ctxs : Map Ctx
  launches : Map Launch
  seen : List Nat

/-- The numbers of a device block. -/
def State.devNums (s : State) : List Nat :=
  wrList vNums s.hub.vtab ++ wrList (fun e => [e.1, e.2.vab, e.2.vidx, e.2.kslot]) s.hub.fkt ++ [s.hub.nextGid, s.hub.nextLaunch]
    ++ wrList ctxNums s.ctxs ++ wrList launchNums s.launches ++ wrList (fun f => [f]) s.hub.seen

/-- A device block. -/
def rdDev : Rd DevBlock := do
  let vtab ← rdList rdV
  let fkt ← rdList rdFk
  let nextGid ← rd
  let nextLaunch ← rd
  let ctxs ← rdList rdCtx
  let launches ← rdList rdLaunch
  let seen ← rdList rd
  pure { vtab, fkt, nextGid, nextLaunch, ctxs, launches, seen }

/-- A window of a context with its key. -/
def winNums (e : Nat × TextWin) : List Nat :=
  [e.1, wrBool e.2.valid, e.2.textBase.toNat, e.2.len.toNat, e.2.tagBase.toNat, e.2.epoch.toNat]
    ++ wrList (fun b => [b.toNat]) e.2.key

/-- A window with its key. -/
def rdWin : Rd (Nat × TextWin) := do
  let i ← rd
  let valid ← rd
  let textBase ← rdWord
  let len ← rdWord
  let tagBase ← rdWord
  let epoch ← rdWord
  let key ← rdList rdWord
  pure (i, { valid := valid == 1, textBase, len, tagBase, epoch, key })

/-- What the key block (R375) holds of a protected context: its owner, its slot with the slot's keys, the key of its images, its windows
with their keys. -/
structure KeyRec where
  owner : Nat
  slot : Nat
  keys : SlotKey
  key : List Byte
  wins : Map TextWin

/-- Bytes, their number first. -/
def byteNums (bs : List Byte) : List Nat := wrList (fun b => [b.toNat]) bs

/-- The numbers of the key block (R375). -/
def State.keyNums (s : State) : List Nat :=
  wrList (fun (e : Nat × Ctx) =>
    let k := Map.getD s.hub.slotKeys e.2.keySlot {}
    [e.1, e.2.keySlot] ++ byteNums k.xts ++ byteNums k.mac ++ byteNums e.2.key ++ wrList winNums e.2.wins)
    (s.ctxs.filter (fun e => e.2.prot))

/-- The key block. -/
def rdKeys : Rd (List KeyRec) := rdList (do
  let owner ← rd
  let slot ← rd
  let xts ← rdList rdWord
  let mac ← rdList rdWord
  let key ← rdList rdWord
  let wins ← rdList rdWin
  pure { owner, slot, keys := { xts, mac }, key, wins })

/-! ### Sealed parts (R375) -/

/-- A number rounded up to a multiple of 64 KiB. -/
def up64k (n : Nat) : Nat := (n + 65535) / 65536 * 65536

/-- The IV of a sealed part (R375). -/
def partIv (ctr part : Nat) : List Byte := leBytes 8 ctr ++ leBytes 4 part

/-- A sealed part: 64 bytes in clear, the rest encrypted, the tag last. -/
def sealPart (ctr part : Nat) (head body : List Byte) : List Byte :=
  let (ct, tag) := gcmSeal Config.checkpointKey (partIv ctr part) head body
  head ++ ct ++ tag

/-- Part 2 or 3: its length in its clear bytes, its numbers sealed. -/
def numPart (ctr part : Nat) (ns : List Nat) : List Byte :=
  sealPart ctr part (leBytes 8 (80 + 8 * ns.length) ++ leBytes 56 0) (ns.flatMap (leBytes 8))

/-- The length of such a part. -/
def numPartLen (ns : List Nat) : Nat := 80 + 8 * ns.length

/-- The bytes of an opened part of a length, at an address; none that stands in an expander that is down (R397). -/
def State.openPart (s : State) (a len ctr part : Nat) : Option (List Byte) :=
  let bs := s.mem.bytes a len
  if s.rangeDown a len then none
  else gcmOpen Config.checkpointKey (partIv ctr part) (bs.take 64) (slice bs 64 (len - 80)) (bs.drop (len - 16))

/-- Accesses to a range that stands in an expander that is down are recorded (R397). -/
def State.rasRange (s : State) (a len : Nat) : State :=
  if s.rangeDown a len then s.ras 1 3 (BitVec.ofNat 64 a) 0 else s

/-- A directory entry (R375): owner, version-table index, protected flag, cluster map, the image's place in part 4 and its length. -/
def dirEntry (o : Nat) (k : Ctx) (off : Nat) : List Byte :=
  leBytes 2 o ++ leBytes 2 k.vidx ++ leBytes 1 (wrBool k.prot)
    ++ (List.range 32).map (fun lc => match Map.find? k.tab lc with
      | some p => BitVec.ofNat 8 (128 + p)
      | none => 0)
    ++ leBytes 8 off ++ leBytes 8 k.imgLen ++ leBytes 11 0

/-! ### CHECKPOINT (R311, R374) -/

/-- Entry 0's SAVECTR. -/
def State.fuse (s : State) : Nat := (Map.getD s.hub.vtab 0 {}).saveCtr

/-- The device with entry 0's SAVECTR stepped (R374). -/
def State.stepFuse (s : State) : State :=
  let v := Map.getD s.hub.vtab 0 {}
  { s with hub := { s.hub with vtab := Map.put s.hub.vtab 0 { v with saveCtr := v.saveCtr + 1 } } }

/-- The checkpoint region lies wholly in the second tier with room for what it must hold (R311). -/
def State.regionOk (s : State) : Bool :=
  let ck := s.dev.ckbase.toNat
  ck != 0 && ck % 4096 == 0 && decide (expBase ≤ ck) && decide (ck + ckBytes ≤ expBase + 8 * expBytes)

/-- A context is saved, or stopped by the command. -/
def Ctx.held (k : Ctx) : Bool := k.save == .draining && (k.pre.map (·.checkpoint)).getD false

/-- Every context is saved, or stopped by the command with its drain ended, and no page is moving (R311, R374); a context that is being
destroyed is waited for, so that the region holds nothing of it. -/
def State.checkpointReady (s : State) : Bool :=
  s.hub.mig.isEmpty && s.ctxs.all (fun e => e.2.save == .saved || (e.2.held && s.drained e.1 && s.l1sClean e.1))

/-- The images of the saved contexts among some are read, before anything is written over them (R311, R397). -/
def State.readImages (s : State) (os : List Nat) : State :=
  os.foldl (fun s o =>
    let k := s.ctx o
    if k.save = .saved then (List.range (k.imgLen / 64)).foldl (fun s i => s.noteRead o (k.imgAt + 64 * i)) s else s) s

/-- The image of a context goes to an address of part 4: written now, or moved there from where its save put it, as it was read in state r
(R374). -/
def State.checkpointImage (s r : State) (o at_ : Nat) : State :=
  let k := s.ctx o
  match k.save with
  | .saved =>
    let s := s.putBytes o at_ (r.mem.bytes k.imgAt k.imgLen)
    let bad := (List.range (k.imgLen / 64)).filter (fun i => r.readPoison k.fn (k.imgAt + 64 * i) && !s.downExp (at_ + 64 * i))
    { s with poison := bad.map (at_ / 64 + ·) ++ s.poison }.setCtx o { s.ctx o with imgAt := at_ }
  | .draining => s.saveContext o at_ true
  | _ => s

/-- The images of contexts one after another from an address on: the device, the directory's entries and the end. Those that stand already
were read in state r. -/
def State.checkpointImages (s r : State) (first : Nat) : List Nat → Nat → State × List Byte × Nat
  | [], at_ => (s, [], at_)
  | o :: t, at_ =>
    let s := s.checkpointImage r o at_
    let k := s.ctx o
    let next := (at_ + k.imgLen + 4095) / 4096 * 4096
    let (s, dir, e) := State.checkpointImages s r first t next
    (s, dirEntry o k (at_ - first) ++ dir, e)

/-! Lines of a key slot other than 0 (R373, R374) -/

/-- The frames of this device's HBM that a frame key table gives a key slot other than 0, with their slots. -/
def State.keyedFrames (s : State) (fkt : Map FrameKey) : Map Nat :=
  fkt.filterMap (fun e => if e.2.kslot ≠ 0 ∧ s.home (e.1 * 2 ^ 16) = .hbm then some (e.1, e.2.kslot) else none)

/-- The lines of a frame of HBM, with those that stand for them in part 5 of a region. -/
def State.partLines (s : State) (at_ frame : Nat) : List (Nat × Nat) :=
  (List.range 1024).map (fun i => (frame * 2 ^ 16 + 64 * i, at_ + (frame * 2 ^ 16 - s.own 0) + 64 * i))

/-- A line of HBM written to its place in part 5 as a line of a sealed buffer bound to entry 0: AES-256-XTS under its slot's key, with a MAC
of entry 0's SAVECTR (R373, R374). -/
def State.sealLine (s : State) (k : SlotKey) (src dst : Nat) : State :=
  if s.downExp dst then s
  else
    let ct := xtsSeal k.xts (spaLocal dst) (s.mem.bytes src 64)
    { s with
      mem := s.mem.setBytes dst ct
      lineMacs := Map.put s.lineMacs (dst / 64) (Config.lineMac k.mac ct (spaLocal dst) 0 s.fuse) }

/-- HBM written to part 5 (R374): every line in clear but those of a key slot other than 0. -/
def State.writeHbm (s : State) (at_ : Nat) : State :=
  let s := s.copyLines 0 (s.own 0) at_ hbmBytes
  (s.keyedFrames s.hub.fkt).foldl (fun s e =>
    (s.partLines at_ e.1).foldl (fun s l => s.sealLine (Map.getD s.hub.slotKeys e.2 {}) l.1 l.2) s) s

/-- A line of part 5 written back into HBM under its slot's key (R375 step 5): one whose MAC does not match is read as poisoned, with a record
of UNIT 1 (R373); one in an expander that is down is poisoned already. -/
def State.openLine (s : State) (k : SlotKey) (dst src : Nat) : State :=
  let ct := s.mem.bytes src 64
  if s.downExp src then s
  else if Map.find? s.lineMacs (src / 64) = some (Config.lineMac k.mac ct (spaLocal src) 0 s.fuse) then
    { s with mem := s.mem.setBytes dst (xtsOpen k.xts (spaLocal src) ct) }
  else
    let s := s.ras 1 3 (BitVec.ofNat 64 src) 0
    { s with mem := s.mem.setBytes dst (List.replicate 64 0), poison := dst / 64 :: s.poison.filter (· != dst / 64) }

/-- Part 5 written back into HBM (R375 step 5). -/
def State.readHbm (s : State) (at_ : Nat) (fkt : Map FrameKey) (slots : Map SlotKey) : State :=
  let s := s.copyLines 0 at_ (s.own 0) hbmBytes
  (s.keyedFrames fkt).foldl (fun s e =>
    (s.partLines at_ e.1).foldl (fun s l => s.openLine (Map.getD slots e.2 {}) l.1 l.2) s) s

/-- Every dirty line of the second tier is written back to its expander (R311 step 3). -/
def State.flushTier (s : State) : State :=
  { s with stored := s.stored.filter (fun e => match s.home (e.1 * 64) with
      | .exp _ => false
      | _ => true) }

/-- The length of the device block once the images of contexts are written: each of those that are stopped keeps what its threads have stored
without an IFENCE (R201, R207). -/
def State.devPartLen (s : State) (os : List Nat) : Nat :=
  numPartLen (os.foldl (fun s o =>
    let k := s.ctx o
    if k.save = .draining then s.setCtx o { k with unfenced := s.unfencedOf o } else s) s.stepFuse).devNums

/-- The checkpoint is written (R311, R374, R375): images, then entry 0's counter, then HBM; directory, key block and device block; then
what of the second tier the die caches hold. -/
def State.writeCheckpoint (s : State) : State :=
  let ck := s.own s.dev.ckbase.toNat
  let os := s.owners
  let p3 := up64k (4096 + numPartLen s.keyNums)
  let p4 := up64k (p3 + s.devPartLen os)
  let r := s.readImages os
  let (s, dir, e) := r.checkpointImages r (ck + p4) os (ck + p4)
  let p5 := up64k (e - ck)
  let s := s.stepFuse
  let ctr := s.fuse
  let s := s.writeHbm (ck + p5)
  let head := leBytes 4 0x5A39434B ++ leBytes 2 1 ++ leBytes 2 0 ++ leBytes 8 ctr ++ leBytes 8 os.length ++ leBytes 8 p3
    ++ leBytes 8 p4 ++ leBytes 8 p5 ++ leBytes 16 0
  let s := s.putBytes 0 ck (sealPart ctr 1 head (fit (4096 - 80) dir))
  let s := s.putBytes 0 (ck + 4096) (numPart ctr 2 s.keyNums)
  (s.putBytes 0 (ck + p3) (numPart ctr 3 s.devNums)).flushTier

/-- CHECKPOINT takes its second half once every context has drained (R374): the region is written and the command completes. -/
def State.endCheckpoint (s : State) (fn : Nat) : State :=
  let s := s.writeCheckpoint
  let s := { s with hub := { s.hub with ckpt := none } }
  let s := s.finish fn .ok (leBytes 8 s.fuse)
  s.owners.foldl (fun s o => s.afterSave o) s

/-- Every context is pre-empted by force (R311): one whose own pre-emption is in its grace period goes on to its drain, and what has been
stopped writes its dirty bytes. -/
def State.stopAll (s : State) (fn : Nat) : State :=
  s.owners.foldl (fun s o =>
    let k := s.ctx o
    match k.save with
    | .running => (s.setCtx o { k with pre := some { fn := some fn, checkpoint := true } }).stopForSave o
    | .grace => s.stopForSave o
    | _ => if k.held then s.drainL1 o else s) s

/-- CHECKPOINT SUB 0 (R311, R374): contexts stop, those too that come to run while it waits, and when all drains have ended the same step
writes the region. Any SUB but 1 comes here. -/
def execCheckpoint (s : State) : Out :=
  match s.hub.ckpt with
  | some fn =>
    let s := s.stopAll fn
    .next (if s.checkpointReady then s.endCheckpoint fn else s)
  | none =>
    s.command 9 (· != 1) true [(0, 1)] fun s fn f =>
      if f.arg 0 1 ≠ 0 ∨ !s.regionOk then s.finish fn .badreq
      else if s.fuse ≥ 2 ^ 20 - 1 then s.finish fn .full
      else
        let s := s.stopAll fn
        { s with hub := { s.hub with ckpt := some fn } }

/-! ### Recovery (R375) -/

/-- The function whose CLUSTERS hold a context's clusters. -/
def State.functionOf (s : State) (k : Ctx) : Option Nat :=
  (List.find? (fun (e : Nat × Func) => k.tab.all (fun c => e.2.clusters.testBit c.2)) s.fns).map (·.1)

/-- Two contexts hold a cluster together. -/
def clash (ks : Map Ctx) : Bool :=
  let all := ks.flatMap (fun k => k.2.tab.map (·.2))
  (List.range 32).any (fun i => decide ((all.filter (· == i)).length > 1))

/-- A recovered context: its function, keys, windows and image (R375 items 4 and 6). -/
def recovered (fn : Nat) (k : Ctx) (keys : Option KeyRec) (at_ len : Nat) : Ctx :=
  let k := { k with fn, imgAt := at_, imgLen := len }
  match keys with
  | some r => { k with key := r.key, wins := r.wins }
  | none => k

/-- The device as a checkpoint's parts make it (R375 items 4 to 6). -/
def State.recover (s : State) (d : DevBlock) (keys : List KeyRec) (dir : List Byte) (ck p4 p5 : Nat) : State :=
  let place (o : Nat) : Nat × Nat :=
    match (pieces 64 dir.length dir).find? (fun e => numAt e 0 2 == o) with
    | some e => (ck + p4 + numAt e 37 8, numAt e 45 8)
    | none => (0, 0)
  let ctxs := d.ctxs.map (fun e =>
    let w := place e.1
    (e.1, recovered ((s.functionOf e.2).getD 0) e.2 (keys.find? (fun r => r.owner == e.1)) w.1 w.2))
  let slots := keys.foldl (fun m r => Map.put m r.slot r.keys) s.hub.slotKeys
  let s := s.readHbm (ck + p5) d.fkt slots
  { s with
    ctxs, launches := d.launches
    hub := { s.hub with
      vtab := d.vtab, fkt := d.fkt, nextGid := d.nextGid, nextLaunch := d.nextLaunch, slotKeys := slots
      seen := s.hub.seen ++ d.seen.filter (fun f => !s.hub.seen.contains f) } }

/-- CHECKPOINT SUB 1 (R375), in the order of its steps. A region whose first bytes stand in an expander that is down has no magic, and a part
there no tag (R397). -/
def execCheckpointRecover (s : State) : Out :=
  s.command 9 (· == 1) true [(0, 1)] fun s fn _ =>
    let ck := s.own s.dev.ckbase.toNat
    let h := s.mem.bytes ck 64
    let ctr := numAt h 8 8
    let p3 := numAt h 24 8
    let p4 := numAt h 32 8
    let p5 := numAt h 40 8
    let tagFail (at_ : Nat) : State := ((s.rasRange at_ 4096).alarm1 9 (BitVec.ofNat 64 at_) 0).countTagFail 0 |>.finish fn .tagFail
    if !s.ctxs.isEmpty then s.finish fn .denied
    else if !s.regionOk then s.finish fn .badreq
    else if s.downExp ck then (s.rasRange ck 64).finish fn .badimage
    else if numAt h 0 4 ≠ 0x5A39434B ∨ numAt h 4 2 ≠ 1 then s.finish fn .badimage
    else
      match s.openPart ck 4096 ctr 1 with
      | none => tagFail ck
      | some dir =>
        if ctr ≠ s.fuse then s.finish fn .staleImage
        else
          match s.openPart (ck + 4096) (s.mem.le (ck + 4096) 8) ctr 2, s.openPart (ck + p3) (s.mem.le (ck + p3) 8) ctr 3 with
          | none, _ => tagFail (ck + 4096)
          | _, none => tagFail (ck + p3)
          | some b2, some b3 =>
            match rdKeys ((bytesWords b2).map BitVec.toNat), rdDev ((bytesWords b3).map BitVec.toNat) with
            | some (keys, _), some (d, _) =>
              if clash d.ctxs || d.ctxs.any (fun e => (s.functionOf e.2).isNone) then s.finish fn .badimage
              else (s.recover d keys dir ck p4 p5).finish fn .ok (leBytes 8 d.ctxs.length)
            | _, _ => s.finish fn .badimage

end Sys2Proof.Machine
end

