-- ==== Sys2Proof/Machine/HostLink.lean ====
section
/-! DEFINITION. What the host does through BAR0 and BAR2: registers, fault records and their answers, the dirty log, translation
invalidation, the aperture, bandwidth windows and function-level reset (spec/23_host_fabric_partitions.md R389 to R396, R404 to R406;
spec/16_memory_hierarchy.md R299, R304, R305; spec/19_scheduler.md R326; spec/20_preemption_faults.md R353). -/

namespace Sys2Proof.Machine

/-- Owners of a function's contexts. -/
def State.ofFn (s : State) (fn o : Nat) : Bool := o != 0 && (s.ctx o).fn == fn

/-- Function fn takes a host transaction that comes in its own IDE stream or outside it (R395): the interface in RUN of a function drops the
latter; it completes as an Unsupported Request. A function that is being reset takes none (R353). -/
def Func.takes (f : Func) (ide : Bool) : Bool := !f.flr && (f.tdisp != .run || ide)

/-- A host transaction to function fn. -/
def State.hostAccess (s : State) (body : State → State) : Out := .next (if (s.fnc s.ev.fn).takes s.ev.ide then body s else s)

/-! ### Commands (R392) -/

/-- An opcode that R407 lists. -/
def opcodeKnown (n : Nat) : Bool := decide (1 ≤ n) && decide (n ≤ 14)

/-- BUSY of a function (R392): a command runs, or a cold reset has not ended (R411). -/
def State.fnBusy (s : State) (fn : Nat) : Bool := (s.fnc fn).busy || s.hub.booting

/-- A write of CMDREQ (R392): discarded with ERR while BUSY = 1; otherwise accepted. In a level-3 alarm the command completes at
once (R359); an opcode that is none completes BADCMD. -/
def State.writeCmdreq (s : State) (fn : Nat) (v : Word) : State :=
  let f := s.fnc fn
  if s.fnBusy fn then s.setFn fn { f with stErr := true }
  else
    let op := fldN v 0 8
    let s := s.setFn fn { f with
      busy := true, stErr := false, cmdSeq := fld v 16 16, stSeq := fld v 16 16, cmdOp := fld v 0 8 }
    if s.hub.alarm3 then
      if op = 1 then (s.finish fn .alarm3).setFn fn { (s.finish fn .alarm3).fnc fn with resp := Mem.setBytes [] 0 (s.identifyBytes fn) }
      else if op = 13 ∧ fn = 0 then
        let (s, bs) := s.takeRas
        (s.finish fn .alarm3).setFn fn { (s.finish fn .alarm3).fnc fn with resp := Mem.setBytes [] 0 bs }
      else s.finish fn .alarm3
    else if !opcodeKnown op then s.finish fn .badcmd
    else { s with hub := { s.hub with cmdQ := s.hub.cmdQ ++ [fn] } }

/-! ### The dirty log (R405, R406) -/

/-- What waits for a function's dirty log goes on once the throttle holds no longer (R406). -/
def State.endThrottle (s : State) (fn : Nat) : State :=
  if (s.fnc fn).throttled then s else (s.unhold).wakeWhere (s.ofFn fn) (· == .dirtyLog)

/-- Every logged write of a function that can reach memory does: those that its cores' L1s hold, and the sequencer's. -/
def State.performLogged (s : State) (fn : Nat) : State :=
  ((s.cores.filter (fun e => s.ofFn fn e.2.owner.toNat)).map (·.1)).foldl (fun s c => s.writeBack c) s.drainSeq

/-- Every write that a function's dirty log holds an entry of has been performed. -/
def State.loggedDone (s : State) (fn : Nat) : Bool :=
  s.hub.seqQ.isEmpty && s.cores.all (fun e => !s.ofFn fn e.2.owner.toNat || e.2.l1.all (fun b => !b.dirty))

/-- A reset of a function's dirty log that has been asked for (R405): it takes place once every write whose entry precedes it has been
performed, and waits until then. -/
def State.tryLogReset (s : State) (fn : Nat) : State :=
  let s := s.performLogged fn
  if s.loggedDone fn then
    let f := s.fnc fn
    (s.setFn fn { f with dlProd := 0, dlCons := 0, dlRst := false, dlCtl := setBit f.dlCtl 61 false }).endThrottle fn
  else s

/-- A write of RST (R405). -/
def State.resetDirtyLog (s : State) (fn : Nat) : State := (s.setFn fn { s.fnc fn with dlRst := true }).tryLogReset fn

/-- A write of DLCONS (R391, R406): discarded where the ring cannot hold what would remain; the stall ends below the threshold. -/
def State.writeDlcons (s : State) (fn : Nat) (v : BitVec 32) : State :=
  let f := s.fnc fn
  if (f.dlProd - v).toNat > 2 ^ f.dlSize then s else (s.setFn fn { f with dlCons := v }).endThrottle fn

/-- A log2 of ring entries is in range (R391). -/
def sizeOk (lo hi : Nat) (v : Word) : Bool := decide (lo ≤ fldN v 0 5) && decide (fldN v 0 5 ≤ hi)

/-- A write of DLCTL (R391, R405): RST resets the log; while EN = 1 only EN can be cleared; a size out of range changes nothing. -/
def State.writeDlctl (s : State) (fn : Nat) (v : Word) : State :=
  let s := if bitAt v 62 then s.resetDirtyLog fn else s
  let f := s.fnc fn
  if f.dlEn then (if bitAt v 63 then s else s.setFn fn { f with dlCtl := setBit f.dlCtl 63 false })
  else if !sizeOk 10 24 v then s
  else s.setFn fn { f with dlCtl := setBit (setFld f.dlCtl 0 5 (fldN v 0 5)) 63 (bitAt v 63) }

/-- A write of DLBASE (R391): discarded while EN = 1. -/
def State.writeDlbase (s : State) (fn : Nat) (v : Word) : State :=
  let f := s.fnc fn
  if f.dlEn then s else s.setFn fn { f with dlBase := setFld v 0 12 0 }

/-- DIRTY_LOG_RESET (R405). -/
def execDirtyLogReset (s : State) : Out := s.hostAccess fun s => s.resetDirtyLog s.ev.fn

/-- DLCONS_WRITE (R406). -/
def execDlconsWrite (s : State) : Out := s.hostAccess fun s => s.writeDlcons s.ev.fn (fld s.ev.v 0 32)

/-- DIRTY_LOG_CFG (R408): DLBASE and DLCTL of the named function, as its own writes would set them. -/
def execDirtyLogCfg (s : State) : Out :=
  s.command 11 noSub true [(8, 8), (16, 8), (24, 8)] fun s fn f =>
    let g := f.arg 8 8
    if g > 32 then s.finish fn .badreq
    else
      let s := (s.writeDlbase g (BitVec.ofNat 64 (f.arg 16 8))).writeDlctl g (BitVec.ofNat 64 (f.arg 24 8))
      s.finish fn .ok (leBytes 8 (s.fnc g).dlProd.toNat)

/-! ### The fault queue (R305, R396) -/

/-- Fault records are written for a function (R391). -/
def Func.fqEn (f : Func) : Bool := bitAt f.fqCtl 63
/-- The log2 of the fault ring's entries (R391). -/
def Func.fqSize (f : Func) : Nat := fldN f.fqCtl 0 5
/-- The fault ring of a function has room (R396). -/
def Func.fqRoom (f : Func) : Bool := f.fqEn && decide ((f.fqProd - f.fqCons).toNat < 2 ^ f.fqSize)

/-- Word 1 of a fault record (R305). -/
def FaultRec.word1 (r : FaultRec) (tag : Nat) : Word :=
  BitVec.ofNat 64 (tag % 65536 * 2 ^ 48 + r.span % 32 * 2 ^ 43 + r.reason.toNat * 2 ^ 36 + r.level.toNat * 2 ^ 34 + r.kind.toNat * 2 ^ 32
    + (if r.fetch then 2 ^ 31 else 0) + r.owner)

/-- The lowest tag from a number on that no outstanding record carries. -/
def State.freeTag (s : State) : Nat :=
  let used := s.hub.faults.filterMap (·.tag)
  (((List.range (used.length + 1)).map (fun i => (s.hub.nextTag + i) % 65536)).find? (fun t => !used.contains t)).getD s.hub.nextTag

/-- FAULT_RECORD (R305, R396): record k of the faults that wait is written to its function's ring, which then advances and signals. -/
def execFaultRecord (s : State) : Out :=
  match s.hub.faults[s.ev.k]? with
  | none => .next s
  | some r =>
    let f := s.fnc r.fn
    if r.tag.isSome || !f.fqRoom then .next s
    else
      let tag := s.freeTag
      let a := s.hostSpa (f.fqBase.toNat + 16 * (f.fqProd.toNat % 2 ^ f.fqSize))
      let s := { s with
        mem := s.mem.setBytes a (wordBytes [r.p, r.word1 tag])
        hub := { s.hub with nextTag := (tag + 1) % 65536, faults := s.hub.faults.set s.ev.k { r with tag := some tag } } }
      .next ((s.setFn r.fn { f with fqProd := f.fqProd + 1 }).msix r.fn 1)

/-- The outstanding record of a function that carries a tag. -/
def State.outstanding (s : State) (fn tag : Nat) : Option FaultRec :=
  s.hub.faults.find? (fun r => r.fn == fn && r.tag == some tag)

/-- A response that names no outstanding record sets FQST.ERR (R396). -/
def State.badResponse (s : State) (fn : Nat) : State := s.setFn fn { s.fnc fn with fqErr := true }

/-- RESOLVE (R305): what waits on the tag walks again. -/
def State.resolveTag (s : State) (fn tag : Nat) : State :=
  match s.outstanding fn tag with
  | none => s.badResponse fn
  | some r => s.walkAgain r

/-- A thread's waiting access takes PFAULT precisely at its step (R305), once its vector operations have completed (R223). -/
def State.rejectThread (s : State) (c sl : Nat) (page : Nat) : State :=
  let t := s.thread c sl
  match t.wait with
  | .fault p _ info =>
    if vaOf p / 2 ^ 16 ≠ page then s
    else if (s.core c).vecBusy sl then s.setThread c sl { t with wait := .trapping info t.pc }
    else s.trapThread c sl info t.pc
  | _ => s

/-- REJECT (R305): every waiting thread access takes PFAULT, and waiting copies, operations and requests fail. -/
def State.rejectTag (s : State) (fn tag : Nat) : State :=
  match s.outstanding fn tag with
  | none => s.badResponse fn
  | some r =>
    let s := ((s.dropFault r).answerPage r.page true).rejectDevs r.page
    s.cores.foldl (fun s k => k.2.threads.foldl (fun s t => s.rejectThread k.1 t.1 r.page) s) s

/-- RESOLVE (R305): tag num of function fn. -/
def execResolve (s : State) : Out := s.hostAccess fun s => s.resolveTag s.ev.fn s.ev.num

/-- REJECT (R305): tag num of function fn. -/
def execReject (s : State) : Out := s.hostAccess fun s => s.rejectTag s.ev.fn s.ev.num

/-- A write of FQRESP (R391). -/
def State.writeFqresp (s : State) (fn : Nat) (v : Word) : State :=
  if bitAt v 0 then s.rejectTag fn (fldN v 48 16) else s.resolveTag fn (fldN v 48 16)

/-- FQST_READ (R391): the read returns ERR, as hostRead gives it, and clears it. -/
def execFqstRead (s : State) : Out := s.hostAccess fun s => s.setFn s.ev.fn { s.fnc s.ev.fn with fqErr := false }

/-- A write of FQCTL (R391): discarded while EN = 1; a size out of range changes nothing. -/
def State.writeFqctl (s : State) (fn : Nat) (v : Word) : State :=
  let f := s.fnc fn
  if f.fqEn || !sizeOk 4 16 v then s
  else s.setFn fn { f with fqCtl := setBit (setFld f.fqCtl 0 5 (fldN v 0 5)) 63 (bitAt v 63) }

/-- A write of FQBASE (R391): discarded while EN = 1. -/
def State.writeFqbase (s : State) (fn : Nat) (v : Word) : State :=
  let f := s.fnc fn
  if f.fqEn then s else s.setFn fn { f with fqBase := setFld v 0 12 0 }

/-- A write of FQCONS (R391). -/
def State.writeFqcons (s : State) (fn : Nat) (v : BitVec 32) : State :=
  let f := s.fnc fn
  if (f.fqProd - v).toNat > 2 ^ f.fqSize then s else s.setFn fn { f with fqCons := v }

/-! ### Invalidation (R304) -/

/-- A write of TLBI (R304): discarded with ERR while an invalidation runs. One that begins drops the entries that overlap its range and
records the accesses that were translated before it and are not performed. -/
def State.writeTlbi (s : State) (v : Word) : State :=
  if s.dev.tlbi.isSome then { s with dev := { s.dev with tlbiErr := true } }
  else
    let va := fldN v 16 40 * 2 ^ 16
    let len := (fldN v 0 16 + 1) * 2 ^ 16
    { s with dev := { s.dev with
        tlbi := some (va, len), tlbiErr := false
        tlbiHeld := s.cores.map (fun (k : Nat × Core) => (k.1, k.2.held (va / 64) (len / 64))) } }.invalidate va len

/-- TLBI (R304). -/
def execTlbi (s : State) : Out := .next (s.writeTlbi s.ev.v)

/-- INVALIDATION_DONE (R304): every access translated before is performed; none of the entries that overlap the range is held, and BUSY
returns to 0. -/
def execInvalidationDone (s : State) : Out :=
  match s.dev.tlbi with
  | none => .next s
  | some (va, len) =>
    if s.cores.any (fun k => k.2.holds (va / 64) (len / 64) (Map.getD s.dev.tlbiHeld k.1 [])) then .next s
    else .next ({ s.drainSeq with dev := { s.dev with tlbi := none, tlbiHeld := [] } }.invalidate va len)

/-! ### Writes of registers (R299, R326, R391) -/

/-- A write to the device register window at an offset (R299, R326), which the PF alone reaches. None is refused for the sake of a protected
context (DESIGN CHOICE, log 62: R299 refers to checks of which none is named). -/
def State.writeDev (s : State) (o : Nat) (v : Word) : State :=
  let d := s.dev
  if o < 0x1070 ∧ 0x1000 ≤ o then { s with dev := { d with ttroot := Map.put d.ttroot ((o - 0x1000) / 8) (setFld v 49 9 0) } }
  else if o = 0x1080 then s.writeTlbi v
  else if o = 0x1090 then { s with dev := { d with npcfg := v &&& 0x8000000000001F0F } }
  else if o = 0x1098 then { s with dev := { d with mxbase := setFld v 0 15 0 } }
  else if o = 0x10A0 then { s with dev := { d with mxlim := setFld v 0 15 0 } }
  else if o = 0x10A8 then { s with dev := { d with mxscale := setFld v 0 10 0 } }
  else if o = 0x10B8 then { s with dev := { d with ckbase := v } }
  else if 0x1100 ≤ o ∧ o < 0x1160 then { s with dev := { d with ffr := Map.put d.ffr ((o - 0x1100) / 8) v } }
  else if 0x1400 ≤ o ∧ o < 0x15F8 then { s with dev := { d with promo := Map.put d.promo ((o - 0x1400) / 8) (setFld v 32 32 0) } }
  else if o = 0x1600 then { s with dev := { d with draint := setFld v 32 32 0 } }
  else s

/-- A function whose pending vectors are signalled where their entries mask them no longer (R391; log 56). -/
def Func.sendPending (f : Func) : Func :=
  (List.range 8).foldl (fun f v => if bitAt f.pend v then f.signal v else f) f

/-- A host write of 8 bytes to BAR0 of a function at an 8-aligned offset (R391). -/
def State.writeBar0 (s : State) (fn o : Nat) (v : Word) : State :=
  let f := s.fnc fn
  if o % 8 ≠ 0 then s
  else if o = 0 then s.writeCmdreq fn v
  else if 0x40 ≤ o ∧ o < 0x800 then
    if s.fnBusy fn then s else s.setFn fn { f with req := f.req.setLe (o - 0x40) 8 v.toNat }
  else if o = 0x1000 then s.writeFqbase fn v
  else if o = 0x1008 then s.writeFqctl fn v
  else if o = 0x1018 then s.writeFqcons fn (fld v 0 32)
  else if o = 0x1020 then s.writeFqresp fn v
  else if o = 0x1100 then s.writeDlbase fn v
  else if o = 0x1108 then s.writeDlctl fn v
  else if o = 0x1118 then s.writeDlcons fn (fld v 0 32)
  else if 0x2000 ≤ o ∧ o < 0x2080 then s.setFn fn { f with msix := f.msix.setLe (o - 0x2000) 8 v.toNat }.sendPending
  else if 0x10000 ≤ o ∧ o < 0x20000 ∧ fn = 0 then s.writeDev (o - 0x10000) v
  else s

/-- REGISTER_WRITE (R391): offset off of function fn's BAR0. -/
def execRegisterWrite (s : State) : Out := s.hostAccess fun s => s.writeBar0 s.ev.fn s.ev.off s.ev.v

/-- Pool slots in use across the device (R326). -/
def State.poolUsed (s : State) : Nat := (s.launches.filter (fun l => l.2.slot.isSome && !l.2.completed)).length

/-! ### Reads of registers (R4, R299, R304, R326, R391) -/

/-- What the device register window holds at an offset (R299, R304, R326). -/
def State.readDev (s : State) (o : Nat) : Word :=
  let d := s.dev
  if o < 0x1070 ∧ 0x1000 ≤ o then Map.getD d.ttroot ((o - 0x1000) / 8) 0
  else if o = 0x1088 then BitVec.ofNat 64 ((if d.tlbi.isSome then 1 else 0) + if d.tlbiErr then 2 else 0)
  else if o = 0x1090 then d.npcfg
  else if o = 0x1098 then d.mxbase
  else if o = 0x10A0 then d.mxlim
  else if o = 0x10A8 then d.mxscale
  else if o = 0x10B0 then d.devnum.setWidth 64
  else if o = 0x10B8 then d.ckbase
  else if 0x1100 ≤ o ∧ o < 0x1160 then Map.getD d.ffr ((o - 0x1100) / 8) 0
  else if 0x1400 ≤ o ∧ o < 0x15F8 then Map.getD d.promo ((o - 0x1400) / 8) 0x0010_0000
  else if o = 0x1600 then d.draint
  else if o = 0x1608 then BitVec.ofNat 64 s.poolUsed
  else 0

/-- What 8 bytes of BAR0 of a function hold at an 8-aligned offset (R391): reserved bits, registers that are only written, and a virtual
function's device register window read zero; BUSY reads 1 until a cold reset has ended (R411). -/
def State.readBar0 (s : State) (fn o : Nat) : Word :=
  let f := s.fnc fn
  let num (x : Nat) : Word := BitVec.ofNat 64 x
  if o = 0 then num (f.cmdSeq.toNat * 2 ^ 16 + f.cmdOp.toNat)
  else if o = 8 then
    num (f.stSeq.toNat * 2 ^ 16 + f.stStatus.toNat * 2 ^ 8 + (if f.stErr then 2 else 0) + if s.fnBusy fn then 1 else 0)
  else if 0x40 ≤ o ∧ o < 0x800 then num (f.req.le (o - 0x40) 8)
  else if 0x800 ≤ o ∧ o < 0x1000 then num (f.resp.le (o - 0x800) 8)
  else if o = 0x1000 then f.fqBase
  else if o = 0x1008 then f.fqCtl
  else if o = 0x1010 then f.fqProd.setWidth 64
  else if o = 0x1018 then f.fqCons.setWidth 64
  else if o = 0x1028 then (if f.fqErr then 1 else 0)
  else if o = 0x1100 then f.dlBase
  else if o = 0x1108 then f.dlCtl
  else if o = 0x1110 then f.dlProd.setWidth 64
  else if o = 0x1118 then f.dlCons.setWidth 64
  else if 0x2000 ≤ o ∧ o < 0x2080 then num (f.msix.le (o - 0x2000) 8)
  else if o = 0x2800 then f.pend.setWidth 64
  else if 0x10000 ≤ o ∧ o < 0x20000 ∧ fn = 0 then s.readDev (o - 0x10000)
  else 0

/-- What a host read of 8 bytes of BAR0 of a function returns at an 8-aligned offset, in its IDE stream or outside it; none for an Unsupported
Request (R391, R395). It changes nothing, but for that of FQST. -/
def State.hostRead (s : State) (fn off : Nat) (ide : Bool) : Option Word :=
  if (s.fnc fn).takes ide then some (s.readBar0 fn off) else none

/-! ### The aperture (R394) -/

/-- The local address of a BAR2 offset, where the PF's record enables the aperture (R394, R403). -/
def State.apertureAddr (s : State) (off : Nat) : Option Nat :=
  let r := (s.fnc 0).cfg.le 50 6
  if r.testBit 16 ∧ off < 2 ^ 36 then some (r % 65536 * 2 ^ 36 + off) else none

/-- A frame of HBM is another function's: its contexts' pages or their replicas stand there. -/
def State.heldByOther (s : State) (fn a : Nat) : Bool :=
  s.fns.any (fun f => f.1 != fn && (
    let held := s.pageSpas f.1
    held.any (fun spa => spaDev spa == s.dev.devnum.toNat && spaLocal spa / 2 ^ 16 == a / 2 ^ 16)
      || (s.copiesOf held).any (fun r => r.2 == a / 2 ^ 16)))

/-- An aperture access of a function reaches a byte (R394): of a frame of HBM with key slot 0 that stands within the function's HBM quota,
which is one that the pages of no other function hold (DEDUCED, log 19: R403 gives quotas as numbers of pages). -/
def State.apertureOk (s : State) (fn a : Nat) : Bool :=
  localHome a == .hbm && (s.frameKey (s.own a)).kslot == 0 && (s.fnc fn).cfg.le 8 3 != 0 && !s.heldByOther fn a

/-- The local address that an aperture access of a function to n bytes reaches; none for an Unsupported Request (R394). -/
def State.aperture (s : State) (fn off n : Nat) : Option Nat :=
  (s.apertureAddr off).filter (fun a => (List.range n).all (fun i => s.apertureOk fn (a + i)))

/-- The bytes that a host read of n bytes through BAR2 returns, in the function's IDE stream or outside it; none for an Unsupported Request
(R394, R395). -/
def State.apertureRead (s : State) (fn off n : Nat) (ide : Bool) : Option (List Byte) :=
  ((s.aperture fn off n).filter (fun _ => (s.fnc fn).takes ide)).map (fun a => (List.range n).map (fun i => s.mem.get (s.redirect (s.own (a + i)))))

/-- APERTURE_ACCESS (R394): a host read or write through BAR2 reaches HBM past the rights. A read returns apertureRead, and its lines are
read as any line is; a write is performed. An access that reaches another frame is an Unsupported Request and changes nothing. -/
def execApertureAccess (s : State) : Out :=
  s.hostAccess fun s =>
    let e := s.ev
    let n := if e.wr then e.bytes.length else e.len
    match s.aperture e.fn e.off n with
    | none => s
    | some a =>
      if e.wr then s.putBytes 0 (s.own a) e.bytes
      else (List.range ((a % 64 + n + 63) / 64)).foldl (fun s i => s.noteRead 0 (s.redirect (s.own (a / 64 * 64 + 64 * i)))) s

/-! ### Bandwidth windows (R404) -/

/-- BANDWIDTH_WINDOW_END (R404): a new window begins; what was withheld is released, and write-backs
that wait are tried again. -/
def execBandwidthWindowEnd (s : State) : Out :=
  let s := { s with
    fns := s.fns.mapV (fun _ f => { f with hbmUsed := 0, expUsed := 0 })
    hub := { s.hub with window := s.now / 4096 } }
  .next (s.unhold.wakeWhere (fun _ => true) (fun w => w == .bandwidth || w == .flush))

/-! ### Function-level reset (R353, R392) -/

/-- What waits to answer a command of a function answers none; a cancellation or destruction that its command waited with is not made. -/
def State.dropAnswers (s : State) (fn : Nat) : State :=
  let other (a : Option Nat) : Option Nat := if a = some fn then none else a
  let s := s.forgetAnswers (· == fn)
  let s : State := { s with
    ctxs := s.ctxs.mapV (fun _ k => { k with
      pre := k.pre.map (fun p => { p with fn := other p.fn })
      cancelWaits := k.cancelWaits.filter (· != fn), destroyWaits := k.destroyWaits.filter (· != fn)
      oldWin := k.oldWin.map (fun w => (w.1, w.2.1, other w.2.2)) })
    hub := { s.hub with cmdQ := s.hub.cmdQ.filter (· != fn), ckpt := other s.hub.ckpt } }
  s.walkAgainAll (fun r => r.fn == fn)

/-- A function-level reset completes once every core of the function's contexts is scrubbed (R353): the function's registers, its interface
and its session are as after reset; its configuration record, which Cordwain keeps, and the status of its last command stay. -/
def State.settleFlr (s : State) (fn : Nat) : State :=
  let f := s.fnc fn
  if !f.flr || s.ctxs.any (fun k => k.2.fn == fn) then s
  else s.setFn fn {
    cfg := f.cfg, cmdSeq := f.cmdSeq, cmdOp := f.cmdOp, stSeq := f.stSeq, stStatus := f.stStatus, pend := f.pend, sent := f.sent }

/-- FUNCTION_LEVEL_RESET (R353): the function's contexts are destroyed, their jobs ending with RESET; the running command completes with
ABORTED_BY_RESET and the window is left with BUSY = 0. The reset completes after the scrub, at once where no context waits for it; until
then the function takes no access of the host. -/
def execFunctionLevelReset (s : State) : Out :=
  let fn := s.ev.fn
  let mine := (s.ctxs.filter (fun k => k.2.fn == fn)).map (·.1)
  let s := s.setFn fn { s.fnc fn with flr := true }
  let s := mine.foldl (fun s o => s.resetContext o) s
  let s := if (s.fnc fn).busy then s.finish fn .aborted else s
  .next ((s.dropAnswers fn).settleFlr fn)

end Sys2Proof.Machine
end

