-- ==== Sys2Proof/Machine/Confidential.lean ====
section
/-! DEFINITION. Program text under a key, and the messages of SPDM and TDISP (spec/22_confidential_code.md R377 to R381, R384, R385;
spec/20_preemption_faults.md R355; spec/24_firmware_management.md R407, R410). How DSP0274 and TDISP lay a message out is a free
value (log 12); what the spec says that a message does and carries is modelled. -/

namespace Sys2Proof.Machine

/-! ### Fills (R355, R379) -/

/-- INSTRUCTION_FILL (R379): the line at pointer v is fetched ahead into core c's instruction cache. -/
def execInstructionFill (s : State) : Out := .next (s.fetchAhead s.ev.c s.ev.v)

/-! ### KEY_UPDATE (R377, R378, R381) -/

/-- A window record of R377, from its 32 bytes as a number. -/
def TextWin.ofRecord (n : Nat) (key : List Byte) : TextWin :=
  { valid := n.testBit 192
    textBase := BitVec.ofNat 64 n
    len := BitVec.ofNat 64 (n / 2 ^ 64)
    tagBase := BitVec.ofNat 64 (n / 2 ^ 128)
    epoch := BitVec.ofNat 32 (n / 2 ^ 224)
    key }

/-- A window record is in form (R377): its reserved bits are zero, its base, length and tag area aligned, its length at most 2^32. -/
def windowOk (n : Nat) : Bool :=
  let w := TextWin.ofRecord n []
  n / 2 ^ 193 % 2 ^ 31 == 0 && w.textBase.toNat % 2 ^ 16 == 0 && w.len.toNat % 128 == 0 && decide (w.len.toNat ≤ 2 ^ 32)
    && w.tagBase.toNat % 64 == 0

/-- The IV of a KEY_UPDATE request (R378). -/
def updateIv (counter : Nat) : List Byte := leBytes 8 counter ++ leBytes 4 0

/-- The key that wraps text keys in a function's session (R378). -/
def Spdm.wrapKey (p : Spdm) : List Byte := fit 32 (Config.spdmExport p.keyGen p.secret)

/-- What a KEY_UPDATE request unwraps to for a context's function, if R378 accepts it: the session is the function's, the interface is
in RUN, the counter is new and the tag verifies. -/
def State.openUpdate (s : State) (k : Ctx) (f : Func) (ct : List Byte) : Option (List Byte) :=
  let g := s.fnc k.fn
  let ctr := f.arg 16 8
  let fresh : Bool := match g.spdm.lastCounter with
    | some n => decide (n < ctr)
    | none => true
  if g.spdm.session = some (f.arg 4 4) ∧ g.tdisp = .run ∧ fresh then
    gcmOpen g.spdm.wrapKey (updateIv ctr) (f.req.bytes 0 64) ct (f.req.bytes 96 16)
  else none

/-- An accepted request's counter is the session's last (R378). -/
def State.noteCounter (s : State) (fn ctr : Nat) : State :=
  let g := s.fnc fn
  s.setFn fn { g with spdm := { g.spdm with lastCounter := some ctr } }

/-- The cores of an owner that have still to take a KEY_UPDATE's boundary. -/
def State.switching (s : State) (o : Nat) : Bool := s.cores.any (fun e => e.2.owner.toNat == o && e.2.textSwitch.isSome)

/-- A KEY_UPDATE completes when every core has taken the boundary (R381). -/
def State.settleKeyUpdate (s : State) (o : Nat) : State := if s.switching o then s else s.endKeyUpdate o .ok

/-- A window of a context is set (R377, R381): its cores have the boundary to take. -/
def State.setWindow (s : State) (o win : Nat) (w : TextWin) (fn : Nat) : State :=
  let k := s.ctx o
  let old := Map.getD k.wins win {}
  let s := s.setCtx o { k with wins := Map.put k.wins win w, oldWin := some (win, old, some fn) }
  { s with cores := s.cores.mapV (fun _ c => if c.owner.toNat = o then { c with textSwitch := some win, switchBegun := false } else c) }

/-- KEY_UPDATE SUB 0 (R377, R378, R381, R408); any SUB but 1 comes here. One whose context has an update under way waits its turn. -/
def execKeyUpdate (s : State) : Out :=
  let fn := s.ev.fn
  if s.hub.cmdQ.head? = some fn ∧ (s.ctx ((s.fnc fn).arg 8 2)).oldWin.isSome then .next s
  else
    s.command 14 (· != 1) false [(0, 1), (4, 4), (8, 2), (16, 8), (24, 1), (32, 32), (64, 32), (96, 16)] fun s fn f =>
      let o := f.arg 8 2
      let win := f.arg 24 1
      let recd := f.arg 32 32
      if f.arg 0 1 ≠ 0 ∨ win > 3 ∨ !windowOk recd then s.finish fn .badreq
      else
        s.onCtx fn o fun k =>
          if !k.prot then s.finish fn .denied
          else
            match s.openUpdate k f (f.req.bytes 64 32) with
            | none => s.finish fn .denied
            | some key =>
              ((s.noteCounter k.fn (f.arg 16 8)).setWindow o win (TextWin.ofRecord recd key) fn).settleKeyUpdate o

/-- KEY_UPDATE SUB 1 (R378, R410): a protected context's allow-list is replaced. -/
def execKeyUpdateAllowList (s : State) : Out :=
  s.command 14 (· == 1) false [(0, 1), (4, 4), (8, 2), (16, 8), (24, 8), (96, 16)] fun s fn f =>
    let o := f.arg 8 2
    s.onCtx fn o fun k =>
      if !k.prot then s.finish fn .denied
      else
        match s.openUpdate k f [] with
        | none => s.finish fn .denied
        | some _ =>
          let s := s.noteCounter k.fn (f.arg 16 8)
          (s.setCtx o { s.ctx o with allow := BitVec.ofNat 64 (f.arg 24 8) }).finish fn .ok

/-- A core takes a KEY_UPDATE's boundary (R381): the unlocked lines of the window go, and the locked ones have still to be filled again,
under the new key from here on. -/
def State.beginSwitch (s : State) (c : Nat) (old new : TextWin) : State :=
  let s := s.staleIcache c (fun l => old.holds (vaOf l.ptr) || new.holds (vaOf l.ptr))
  s.setCore c { s.core c with switchBegun := true }

/-- A core whose locked lines have all been filled again has taken the boundary (R381). -/
def State.endSwitch (s : State) (c : Nat) : State :=
  let core := s.core c
  if core.icache.any (·.stale) then s
  else (s.setCore c { core with textSwitch := none, switchBegun := false }).settleKeyUpdate core.owner.toNat

/-- TEXT_KEY_SWITCH (R381): core c takes the boundary; while the fill of a locked line has to wait (R305, R404), so does the rest. -/
def execTextKeySwitch (s : State) : Out :=
  let c := s.ev.c
  let core := s.core c
  match core.textSwitch with
  | none => .next s
  | some win =>
    let k := s.ctx core.owner.toNat
    let old := match k.oldWin with
      | some (_, w, _) => w
      | none => {}
    let s := if core.switchBegun then s else s.beginSwitch c old (Map.getD k.wins win {})
    match s.refillStale c with
    | .ok s _ | .wait s _ => .next (s.endSwitch c)
    | .trap s _ => .next s
    | .stop f => .fault f

/-! ### SPDM (R384) -/

/-- The messages that a function's responder answers. -/
inductive SpdmMsg
  | version | capabilities | algorithms | digests | certificate | challengeAuth | measurements | keyExchangeRsp | finishRsp
  | keyUpdateAck | heartbeatAck | endSessionAck | error | tdispLock | tdispReport | tdispState | tdispStart | tdispStop
  deriving DecidableEq, Repr

/-- A message's number among the free values of Config (the model's own). -/
def SpdmMsg.no : SpdmMsg → Nat
  | .version => 0 | .capabilities => 1 | .algorithms => 2 | .digests => 3 | .certificate => 4 | .challengeAuth => 5
  | .measurements => 6 | .keyExchangeRsp => 7 | .finishRsp => 8 | .keyUpdateAck => 9 | .heartbeatAck => 10
  | .endSessionAck => 11 | .error => 12 | .tdispLock => 13 | .tdispReport => 14 | .tdispState => 15 | .tdispStart => 16
  | .tdispStop => 17

/-- A function's responder answers with a message that carries given contents. -/
def State.respond (s : State) (fn : Nat) (m : SpdmMsg) (contents : List Byte) : State :=
  let f := s.fnc fn
  s.setFn fn { f with spdm := { f.spdm with response := Config.spdmFrame m.no contents } }

/-- A request out of its place is answered with an error and changes nothing else. -/
def State.refuse (s : State) (fn : Nat) : State := s.respond fn .error []

/-- A function's SPDM state. -/
def State.spdm (s : State) (fn : Nat) : Spdm := (s.fnc fn).spdm
/-- The device with a function's SPDM state. -/
def State.setSpdm (s : State) (fn : Nat) (p : Spdm) : State := s.setFn fn { s.fnc fn with spdm := p }

/-- The versions 1.2 and 1.3 (R384). -/
def spdmVersions : List Byte := [0x12, 0x13]

/-- GET_VERSION (R384): a negotiation begins. -/
def execGetVersion (s : State) : Out :=
  let fn := s.ev.fn
  let p := s.spdm fn
  .next ((s.setSpdm fn { p with version := true, caps := false, algs := none, handshake := none }).respond fn .version spdmVersions)

/-- GET_CAPABILITIES (R384), after GET_VERSION. -/
def execGetCapabilities (s : State) : Out :=
  let fn := s.ev.fn
  let p := s.spdm fn
  .next (if p.version then (s.setSpdm fn { p with caps := true }).respond fn .capabilities [] else s.refuse fn)

/-- The code of a key exchange group in the model's contents. -/
def dheCode : SpdmDhe → Byte
  | .ffdhe3072 => 0 | .secp384r1 => 1

/-- NEGOTIATE_ALGORITHMS (R384), after GET_CAPABILITIES: the requester's group is selected; the others are fixed. -/
def execNegotiateAlgorithms (s : State) : Out :=
  let fn := s.ev.fn
  let p := s.spdm fn
  .next (if p.caps then (s.setSpdm fn { p with algs := some s.ev.dhe }).respond fn .algorithms [dheCode s.ev.dhe] else s.refuse fn)

/-- A request that needs a finished negotiation (R384). -/
def State.negotiated (s : State) (body : State → Nat → State) : Out :=
  let fn := s.ev.fn
  .next (if (s.spdm fn).algs.isSome then body s fn else s.refuse fn)

/-- GET_DIGESTS (R382, R384): the digest of the chain of slot 0. -/
def execGetDigests (s : State) : Out :=
  s.negotiated fun s fn => s.respond fn .digests (sha256 Config.certChain)

/-- GET_CERTIFICATE (R382, R384): len bytes from byte off of the chain of slot 0. -/
def execGetCertificate (s : State) : Out :=
  s.negotiated fun s fn =>
    if s.ev.k ≠ 0 then s.refuse fn else s.respond fn .certificate ((Config.certChain.drop s.ev.off).take s.ev.len)

/-- CHALLENGE (R382, R384): the requester's nonce is signed with the identity key of slot 0, beside a nonce of the device's. -/
def execChallenge (s : State) : Out :=
  s.negotiated fun s fn =>
    if s.ev.k ≠ 0 then s.refuse fn
    else
      let body := sha256 Config.certChain ++ s.ev.bytes ++ Config.drawKey s.hub.draws
      let (s, sig) := { s with hub := { s.hub with draws := s.hub.draws + 1 } }.sign body
      s.respond fn .challengeAuth (body ++ sig)

/-- The protected context bound to a function's session (R384): the one with the lowest owner number. -/
def State.boundCtx (s : State) (fn : Nat) : Option Nat :=
  (List.find? (fun e : Nat × Ctx => e.2.prot && e.2.fn == fn && e.2.save != .gone) s.ctxs).map (·.1)

/-- Measurement block k of six (R384): firmware, configuration record digest, text measurements of windows 0 to 3. -/
def State.measurement (s : State) (fn k : Nat) : State × List Byte :=
  if k = 1 then (s, firmware)
  else if k = 2 then (s, sha256 ((s.fnc fn).cfg.bytes 0 64))
  else
    match s.boundCtx fn with
    | some o => s.textMeasure o (Map.getD (s.ctx o).wins (k - 3) {})
    | none => (s, List.replicate 32 0)

/-- Measurement blocks one after another. -/
def State.measurements (s : State) (fn : Nat) : List Nat → State × List Byte
  | [] => (s, [])
  | k :: t =>
    let (s, b) := s.measurement fn k
    let (s, bs) := State.measurements s fn t
    (s, b ++ bs)

/-- GET_MEASUREMENTS (R384): block k, the number of blocks for k = 0, or all for k = 255, signed over the requester's nonce. -/
def execGetMeasurements (s : State) : Out :=
  s.negotiated fun s fn =>
    let k := s.ev.k
    let answer (r : State × List Byte) : State :=
      let body := r.2 ++ s.ev.bytes
      let (s, sig) := r.1.sign body
      s.respond fn .measurements (body ++ sig)
    if k = 0 then answer (s, [6])
    else if k = 255 then answer (s.measurements fn [1, 2, 3, 4, 5, 6])
    else if k ≤ 6 then answer (s.measurement fn k)
    else s.refuse fn

/-- The session's number: the requester's half from the request, the device's half from its draws (R384). -/
def sessionId (s : State) : Nat := s.ev.num % 2 ^ 16 + 2 ^ 16 * (s.hub.draws % 2 ^ 16)

/-- KEY_EXCHANGE (R384): a handshake begins with the requester's exchange data; one session at a time. -/
def execKeyExchange (s : State) : Out :=
  s.negotiated fun s fn =>
    let p := s.spdm fn
    if p.session.isSome then s.refuse fn
    else
      let id := sessionId s
      let n := s.hub.draws
      let body := s.ev.bytes ++ Config.spdmExchange n s.ev.bytes
      let s := s.setSpdm fn { p with handshake := some id, secret := Config.spdmSecret n s.ev.bytes }
      let (s, sig) := { s with hub := { s.hub with draws := n + 1 } }.sign body
      s.respond fn .keyExchangeRsp (leBytes 4 id ++ body ++ sig)

/-- FINISH (R384): the handshake becomes the function's session if the verify data are right, and ends otherwise. -/
def execFinish (s : State) : Out :=
  let fn := s.ev.fn
  let p := s.spdm fn
  match p.handshake with
  | none => .next (s.refuse fn)
  | some id =>
    if s.ev.bytes = Config.spdmVerify id then
      .next ((s.setSpdm fn { p with session := some id, handshake := none, keyGen := 0, lastCounter := none }).respond fn .finishRsp [])
    else .next ((s.setSpdm fn { p with handshake := none, secret := [] }).refuse fn)

/-- A request inside a session (R384). -/
def State.inSession (s : State) (body : State → Nat → State) : Out :=
  let fn := s.ev.fn
  .next (if (s.spdm fn).session.isSome then body s fn else s.refuse fn)

/-- SPDM KEY_UPDATE (R384): the session's traffic keys are replaced; a verification only answers. -/
def execSpdmKeyUpdate (s : State) : Out :=
  s.inSession fun s fn =>
    let p := s.spdm fn
    let p := match s.ev.keyOp with
      | .updateKey | .updateAllKeys => { p with keyGen := p.keyGen + 1 }
      | .verifyNewKey => p
    (s.setSpdm fn p).respond fn .keyUpdateAck []

/-- HEARTBEAT (R384). -/
def execHeartbeat (s : State) : Out := s.inSession fun s fn => s.respond fn .heartbeatAck []

/-! ### TDISP (R385) -/

/-- A function's interface takes a state; leaving RUN destroys every protected context of the function (R367, R385). -/
def State.setTdisp (s : State) (fn : Nat) (t : Tdisp) : State :=
  let was := (s.fnc fn).tdisp
  let s := s.setFn fn { s.fnc fn with tdisp := t }
  if was = .run ∧ t ≠ .run then
    ((s.ctxs.filter (fun e => e.2.fn == fn && e.2.prot)).map (·.1)).foldl (fun s o => s.resetContext o) s
  else s

/-- END_SESSION (R384, R385): the session ends and with it the interface leaves the states it had reached. -/
def execEndSession (s : State) : Out :=
  s.inSession fun s fn =>
    let s := (s.respond fn .endSessionAck []).setTdisp fn .unlocked
    s.setSpdm fn { s.spdm fn with session := none, secret := [], keyGen := 0, lastCounter := none }

/-- A TDISP request to a virtual function's interface inside its session, in one of the states that admit it (R385). -/
def State.tdispRequest (s : State) (states : List Tdisp) (body : State → Nat → State) : Out :=
  let fn := s.ev.fn
  .next (if fn != 0 && (s.spdm fn).session.isSome && states.contains (s.fnc fn).tdisp then body s fn else s.refuse fn)

/-- LOCK_INTERFACE_REQUEST (R385). -/
def execLockInterfaceRequest (s : State) : Out :=
  s.tdispRequest [.unlocked] fun s fn => (s.setTdisp fn .locked).respond fn .tdispLock []

/-- GET_DEVICE_INTERFACE_REPORT (R383, R385). -/
def execGetDeviceInterfaceReport (s : State) : Out :=
  s.tdispRequest [.locked, .run] fun s fn => s.respond fn .tdispReport (Config.interfaceReport fn)

/-- The code of an interface state in the model's contents. -/
def tdispCode : Tdisp → Byte
  | .unlocked => 0 | .locked => 1 | .run => 2 | .error => 3

/-- GET_DEVICE_INTERFACE_STATE (R385). -/
def execGetDeviceInterfaceState (s : State) : Out :=
  s.tdispRequest [.unlocked, .locked, .run, .error] fun s fn => s.respond fn .tdispState [tdispCode (s.fnc fn).tdisp]

/-- START_INTERFACE_REQUEST (R385): a locked interface enters RUN. -/
def execStartInterfaceRequest (s : State) : Out :=
  s.tdispRequest [.locked] fun s fn => (s.setTdisp fn .run).respond fn .tdispStart []

/-- STOP_INTERFACE_REQUEST (R385): the interface is unlocked; one that was in RUN loses its protected contexts. -/
def execStopInterfaceRequest (s : State) : Out :=
  s.tdispRequest [.unlocked, .locked, .run, .error] fun s fn => (s.setTdisp fn .unlocked).respond fn .tdispStop []

/-- INTERFACE_ERROR (R385): a locked or running interface enters ERROR. -/
def execInterfaceError (s : State) : Out :=
  let fn := s.ev.fn
  match (s.fnc fn).tdisp with
  | .locked | .run => .next (s.setTdisp fn .error)
  | .unlocked | .error => .next s

end Sys2Proof.Machine
end

