-- ==== Sys2Proof/Machine/Ctl.lean ====
section
/-! DEFINITION. CTL instructions: branches, jumps and calls, jump tables, hardware loops and the end of a thread
(spec/04_integer_control.md R102 to R116). -/

namespace Sys2Proof.Machine

/-- A transfer to a target (R111). -/
def State.transfer (s : State) (t : Word) : Out := .next (s.setDisp (.xfer t))

/-- A conditional branch (R102). -/
def State.branch (s : State) (taken : Bool) (disp : BitVec 13) : Out :=
  if taken then s.transfer (s.target disp) else .next s

/-- BEQ (R102). -/
def execBeq (a b : Reg) (disp : BitVec 13) (s : State) : Out := s.branch (s.g a == s.g b) disp
/-- BNE (R102). -/
def execBne (a b : Reg) (disp : BitVec 13) (s : State) : Out := s.branch (s.g a != s.g b) disp
/-- BLT (R102). -/
def execBlt (a b : Reg) (disp : BitVec 13) (s : State) : Out := s.branch ((s.g a).slt (s.g b)) disp
/-- BGE (R102). -/
def execBge (a b : Reg) (disp : BitVec 13) (s : State) : Out := s.branch (!(s.g a).slt (s.g b)) disp
/-- BLTU (R102). -/
def execBltu (a b : Reg) (disp : BitVec 13) (s : State) : Out := s.branch ((s.g a).ult (s.g b)) disp
/-- BGEU (R102). -/
def execBgeu (a b : Reg) (disp : BitVec 13) (s : State) : Out := s.branch (!(s.g a).ult (s.g b)) disp
/-- JMP (R103). -/
def execJmp (disp : BitVec 23) (s : State) : Out := s.transfer (s.target disp)
/-- CALL (R103): g1 takes the address of the step after CALL's own. -/
def execCall (disp : BitVec 23) (s : State) : Out := (s.setG 1 s.iss.next).transfer (s.target disp)
/-- RET (R104): to the value of g1; IALIGN if it is misaligned. -/
def execRet (s : State) : Out :=
  if fldN (s.g 1) 0 2 ≠ 0 then .next (s.raise Cause.ialign.info) else s.transfer (s.g 1)

/-- The landing word of a jump table's target: an LPAD with the label, or LPADX (R107). -/
def State.land (s : State) (t : Word) (label : BitVec 20) : Res Unit :=
  (s.fetchWord s.cur.1 s.th.sLevel t).bind fun s w =>
    match decode w with
    | .ok (.lpad l) =>
      if l = label then .ok (s.setDisp (.xfer t)) () else .trap s (Cause.lpadx.info t (w.setWidth 64))
    | _ => .trap s (Cause.lpadx.info t (w.setWidth 64))

/-- JTAB (R106, R107). -/
def execJtab (a b : Reg) (s : State) : Out :=
  let p := s.g a
  let i := s.g b
  (if fldN p 0 3 ≠ 0 then Res.trap s (Cause.align.info p 1)
  else
    (s.readMem p 8 false).bind fun s hb =>
      let h := zext hb
      if fldN h 52 12 ≠ 0 ∨ i.toNat ≥ fldN h 0 32 then .trap s (Cause.jbound.info 0 i)
      else
        (s.readMem (p + 8 + 4 * i) 4 false).bind fun s eb =>
          let t := p + 4 * sext 4 eb
          if fldN t 0 3 ≠ 0 then .trap s (Cause.lpadx.info t)
          else s.land t (fld h 32 20)).out s

/-- LPAD (R108). -/
def execLpad (_label : BitVec 20) (s : State) : Out := .next s

/-- The set-up of a hardware loop with a count and an end offset (R110). -/
def State.setLoop (s : State) (n : LoopNo) (count : Word) (off : Nat) : Out :=
  let t := s.th
  let start := s.iss.next
  let last := start + BitVec.ofNat 64 (4 * off)
  if fldN start 0 3 ≠ 0 then .next (s.raise (s.badWord .illbun))
  else if n = .l0 ∧ t.la .l1 then .next (s.raise Cause.lpnest.info)
  else if n = .l1 ∧ t.la .l0 ∧ (start < t.loops.ls0 ∨ last > t.loops.le0) then .next (s.raise Cause.lpnest.info)
  else
    let l := (t.loops.setBody n start last).setLc n count
    if count = 0 then
      let (t, pc) := endTest ({ t with loops := l }.setLa n false) (last + 8)
      .next ((s.setTh t).setDisp (.goto pc))
    else .next ((s.setTh ({ t with loops := l }.setLa n true)).setDisp (.goto start))

/-- LPSET (R109, R110). -/
def execLpset (n : LoopNo) (c : Reg) (off : BitVec 17) (s : State) : Out := s.setLoop n (s.g c) off.toNat
/-- LPSETI (R109, R110). -/
def execLpseti (n : LoopNo) (count : BitVec 10) (off : BitVec 12) (s : State) : Out :=
  s.setLoop n (count.setWidth 64) off.toNat
/-- LPOFF (R112). -/
def execLpoff (n : LoopNo) (s : State) : Out := .next (s.setTh (s.th.setLa n false))
/-- DONE (R115): the thread leaves the live set after its step; where slot A of the step has queued a vector operation, once that has
completed (R223, R239). -/
def execDone (s : State) : Out :=
  if s.cpu.vecBusy s.cur.2 then .next (s.waitOn .ending)
  else .next ((s.endThread s.cur.1 s.cur.2 none).setDisp .stay)

end Sys2Proof.Machine
end

