-- ==== Sys2Proof/Machine/Fabric.lean ====
section
/-! DEFINITION. Links: Swisan flits and rekeying, and the loss of an expander's link (spec/23_host_fabric_partitions.md R397 to
R402). What beats a payload holds the spec does not lay out, so that what peers ask of this device stays in the payloads received. -/

namespace Sys2Proof.Machine

/-! ### Flits (R399, R400) -/

/-- A flit is 256 bytes (R399). -/
def flitBytes : Nat := 256

/-- SEQ of a flit (R399). -/
def flitSeq (b : List Byte) : Nat := leNat (b.take 6)
/-- KIND of a flit (R399). -/
def flitKind (b : List Byte) : Nat := leNat ((b.drop 6).take 1)
/-- The payload of a flit, encrypted (R399). -/
def flitPayload (b : List Byte) : List Byte := (b.drop 8).take 224
/-- The tag of a flit (R399). -/
def flitTag (b : List Byte) : List Byte := (b.drop 232).take 16

/-- The CRC of a flit is right (R399). -/
def flitCrcOk (b : List Byte) : Bool := (crc32 (b.take 248)).toNat == leNat ((b.drop 248).take 4)

/-- The sub-link id in the IV of received flits (R400): the sealing end's, that is the peer's, device number low bits, port and sub-link,
and the direction. -/
def SubLink.rxId (l : SubLink) : Nat := l.peer % 2 ^ 23 + (if Config.rxDirection then 2 ^ 23 else 0)

/-- The plaintext of a flit of a sub-link, if its tag verifies (R400). -/
def SubLink.openFlit (l : SubLink) (b : List Byte) : Option (List Byte) :=
  gcmOpen l.rxKey (leBytes 4 l.rxId ++ leBytes 8 (flitSeq b)) (b.take 8) (flitPayload b) (flitTag b)

/-- An accepted flit (R399, R400): the next sequence number is awaited; data are received, and an acknowledgement empties the replay
buffer. -/
def SubLink.accept (l : SubLink) (b pt : List Byte) : SubLink :=
  let l := { l with rxSeq := (l.rxSeq + 1) % 2 ^ 48, tagFails := 0, naking := false }
  match flitKind b with
  | 0 => { l with rxPayloads := l.rxPayloads ++ [pt] }
  | 2 => { l with replay := [] }
  | _ => l

/-- What a sub-link that is up does with a flit (R400): a CRC or tag failure is answered with a negative acknowledgement, flits are
accepted in sequence order only, and every later flit is discarded until the failed one arrives again. -/
def SubLink.receive (l : SubLink) (b : List Byte) : SubLink :=
  let l := { l with flits := l.flits + 1 }
  if !flitCrcOk b then { l with naking := true }
  else if flitSeq b ≠ l.rxSeq then l
  else
    match l.openFlit b with
    | none => { l with tagFails := l.tagFails + 1, naking := true }
    | some pt => l.accept b pt

/-- FLIT_RECEIVE (R400): sub-link k receives a flit; a sub-link that is down, or whose three failures wait for its rekeying, takes
none. -/
def execFlitReceive (s : State) : Out :=
  let k := s.ev.k
  match Map.find? s.hub.links k with
  | none => .next s
  | some l =>
    if !l.up || decide (l.tagFails ≥ 3) || s.ev.bytes.length != flitBytes then .next s
    else .next { s with hub := { s.hub with links := Map.put s.hub.links k (l.receive s.ev.bytes) } }

/-! ### Rekeying (R401) -/

/-- The copy's lines reach another device. -/
def State.copyPeers (s : State) (p : CopyOp) : Bool :=
  (p.srcLines ++ p.dstLines).any (fun e => match e.2 with
    | .glob _ _ spa => match s.home spa with
      | .peer _ => true
      | _ => false
    | _ => false)

/-- The sub-links that a function holds. -/
def State.linksOfFn (s : State) (fn : Nat) : List Nat := (s.hub.links.filter (fun l => l.2.owner == some fn)).map (·.1)

/-- A copy was carried on sub-link k (R401): its function's only one, or as a free value says (log 2). -/
def State.carried (s : State) (k c : Nat) (p : CopyOp) : Bool :=
  let mine := s.linksOfFn (s.ctx (s.ownerOf c)).fn
  mine.contains k && s.copyPeers p && (mine.length == 1 || Config.carriedOn k c p.count)

/-- A copy that was carried on a sub-link fails with LINKERR (R246, R401). -/
def State.loseCopy (s : State) (k c : Nat) (e : Nat × CopyOp) : State :=
  if e.2.st = .running ∧ s.carried k c e.2 then
    match s.flushMoved c e.2 with
    | .ok s p => s.setCopy c e.1 (p.fail 1 (p.layout.dstPtr p.next).1 false)
    | _ =>
      let p := e.2.dropBuf
      s.setCopy c e.1 (p.fail 1 (p.layout.dstPtr p.next).1 false)
  else s

/-- SUBLINK_REKEY (R401): after three tag failures in a row on one SEQ: replay buffers go, what was carried fails, new keys are set, SEQ
restarts and a level-1 alarm is recorded. -/
def execSublinkRekey (s : State) : Out :=
  let k := s.ev.k
  match Map.find? s.hub.links k with
  | none => .next s
  | some l =>
    if l.tagFails < 3 then .next s
    else
      let s := s.cores.foldl (fun s e => e.2.cps.foldl (fun s p => s.loseCopy k e.1 p) s) s
      let l := { l with
        rxKey := Config.drawKey s.hub.draws, txKey := Config.drawKey (s.hub.draws + 1), rxSeq := 0, txSeq := 0, tagFails := 0, naking := false, replay := [] }
      let s := { s with hub := { s.hub with links := Map.put s.hub.links k l, draws := s.hub.draws + 2 } }
      .next (s.alarm1 8 0 0)

/-! ### Expanders (R397) -/

/-- EXPANDER_LINK_DOWN (R397): expander k's link goes down. -/
def execExpanderLinkDown (s : State) : Out :=
  let k := s.ev.k
  if k < 8 ∧ k ∉ s.hub.expDown then .next { s with hub := { s.hub with expDown := s.hub.expDown ++ [k] } } else .next s

end Sys2Proof.Machine
end

