-- ==== Sys2Proof/Machine/Errors.lean ====
section
/-! DEFINITION. Errors, alarms, power and the cold reset (spec/20_preemption_faults.md R355 to R361; spec/24_firmware_management.md
R411, R412). -/

namespace Sys2Proof.Machine

/-! ### Uncorrectable and corrected errors -/

/-- THREAD_REGISTER_ERROR (R357): the thread ends as R191 does, with POISON and DEF. -/
def execThreadRegisterError (s : State) : Out :=
  let c := s.ev.c
  let sl := s.ev.sl
  if (s.thread c sl).live then .next (s.endThread c sl (some Cause.poison.info.deferred.cause)) else .next s

/-- A core with an engine register poisoned (R357). -/
def Core.poisonReg (k : Core) (r : EngReg) : Core :=
  match r with
  | .tile i => k.setTile i { k.tile i with poison := true }
  | .acc i => k.setAcc i { k.acc i with poison := true }
  | .orth i => k.setOrth i { k.orth i with poison := true }

/-- ENGINE_REGISTER_ERROR (R357). -/
def execEngineRegisterError (s : State) : Out := .next (s.setCore s.ev.c ((s.core s.ev.c).poisonReg s.ev.reg))

/-- ICACHE_ERROR (R355): the line at pointer v of core c's instruction cache holds nothing to issue until it is fetched again from
memory; a LATENT record is written. -/
def execIcacheError (s : State) : Out :=
  let c := s.ev.c
  let k := s.core c
  match s.iline c s.ev.v with
  | none => .next s
  | some l =>
    let ic := k.icache.map (fun x => if x.key == l.key then { x with ok := 0, bad := 0, stale := l.locked } else x)
    .next ((s.setCore c { k with icache := ic }).ras 4 2 l.ptr (s.ownerOf c))

/-- CORRECTED_ERROR (R356, R358): a CORRECTED record of unit k at the address v. -/
def execCorrectedError (s : State) : Out := .next (s.ras s.ev.k 1 s.ev.v s.ev.o)

/-! ### Alarms (R360) -/

/-- SENSOR_ALARM (R360): a voltage or clock sensor outside its window. -/
def execSensorAlarm (s : State) : Out := .next (s.alarm3 9 0 0)

/-- TAMPER_MESH_BROKEN (R360). -/
def execTamperMeshBroken (s : State) : Out := .next (s.alarm3 9 0 0)

/-! ### Power (R2, R412) -/

/-- The shares of the dies, HBM, the hub and the package, in mW (R412). -/
def powerShares : List Nat := [420000, 420000, 420000, 420000, 360000, 360000, 2400000]

/-- A reading is over its share. -/
def overShare (readings : List Nat) (i : Nat) : Bool := decide (readings.getD i 0 > powerShares.getD i 0)

/-- The issue rate after a sample (R412): one step in twice as many cycles, at most 8, over a share; restored in steps once it is
met. -/
def nextRate (slow : Bool) (rate : Nat) : Nat := if slow then Nat.min 8 (2 * rate) else Nat.max 1 (rate / 2)

/-- POWER_SAMPLE (R412): the cores of a die over its share, and all cores when HBM, the hub or the package is over, are slowed. -/
def execPowerSample (s : State) : Out :=
  let r := s.ev.readings
  let all := overShare r 4 || overShare r 5 || overShare r 6
  let slow (c : Nat) : Bool := all || overShare r (dieOf c)
  .next ((List.range 1536).foldl (fun s c =>
    let k := s.core c
    let n := nextRate (slow c) k.rate
    if n = k.rate then s else s.setCore c { k with rate := n }) s)

/-! ### Cold reset (R368, R372, R411) -/

/-- Memory as the expanders and the host keep it through a cold reset: what only a die cache held of a line of the second tier is lost
(R298, R311, R411), and HBM is zeroed. -/
def State.kept (s : State) : Mem :=
  let inTier (a : Nat) : Bool := match s.home a with
    | .exp _ => true
    | _ => false
  (s.stored.filter (fun e => inTier (e.1 * 64))).foldl (fun m e => m.setBytes (e.1 * 64) e.2) (s.mem.filter (fun c => s.home c.1 != .hbm))

/-- The device after a cold reset (R411): as State.reset, but for what lies outside it or outlasts it: entry 0 of the version table,
the bytes of the second tier with the MACs beside them, which are zeroed when a frame is next mapped or handed out, host memory and other
devices, the device number and the draws of the random source. -/
def State.coldReset (s : State) : State :=
  { State.reset with
    mem := s.kept
    poison := s.poison.filter (fun l => s.home (l * 64) != .hbm)
    lineMacs := s.lineMacs
    dev := { State.reset.dev with devnum := s.dev.devnum }
    hub := { Hub.boot s.hub.draws with
      vtab := [(0, Map.getD s.hub.vtab 0 {})]
      macBad := s.hub.macBad.filter (fun l => s.home (l * 64) != .hbm) }
    ev := s.ev, turns := s.turns, free := s.free }

/-- COLD_RESET (R411): steps 1 to 6, at whose end BUSY still reads 1 in every function; the device then clears it (State.owed). The ROM or its
patch may fail its check, which raises the level-3 alarm (R360), under which the device answers (R359). -/
def execColdReset (s : State) : Out :=
  let t := s.coldReset
  .next (if s.ev.wr then t.alarm3 9 0 0 else { t with hub := { t.hub with booting := true } })

end Sys2Proof.Machine
end

