-- ==== Sys2Proof/Machine/Int.lean ====
section
/-! DEFINITION. INT-R and INT-I instructions (spec/04_integer_control.md R94 to R101). None but ADDV, SUBV, XYA, XYR and XYR.SELF
traps, and none reads or writes memory. -/

namespace Sys2Proof.Machine

/-- A 32-bit result, sign-extended (R97). -/
def sextW (x : BitVec 32) : Word := x.signExtend 64
/-- The low word of an operand (R97). -/
def lowW (x : Word) : BitVec 32 := x.setWidth 32

/-- An instruction that writes one general register. -/
def State.writeG (s : State) (d : Reg) (x : Word) : Out := .next (s.setG d x)

/-- ADD (R95). -/
def execAdd (d a b : Reg) (s : State) : Out := s.writeG d (s.g a + s.g b)
/-- SUB (R95). -/
def execSub (d a b : Reg) (s : State) : Out := s.writeG d (s.g a - s.g b)
/-- AND (R95). -/
def execAnd (d a b : Reg) (s : State) : Out := s.writeG d (s.g a &&& s.g b)
/-- OR (R95). -/
def execOr (d a b : Reg) (s : State) : Out := s.writeG d (s.g a ||| s.g b)
/-- XOR (R95). -/
def execXor (d a b : Reg) (s : State) : Out := s.writeG d (s.g a ^^^ s.g b)
/-- ANDN (R95). -/
def execAndn (d a b : Reg) (s : State) : Out := s.writeG d (s.g a &&& ~~~(s.g b))
/-- SLL (R95). -/
def execSll (d a b : Reg) (s : State) : Out := s.writeG d (s.g a <<< fldN (s.g b) 0 6)
/-- SRL (R95). -/
def execSrl (d a b : Reg) (s : State) : Out := s.writeG d (s.g a >>> fldN (s.g b) 0 6)
/-- SRA (R95). -/
def execSra (d a b : Reg) (s : State) : Out := s.writeG d ((s.g a).sshiftRight (fldN (s.g b) 0 6))
/-- ROL (R95). -/
def execRol (d a b : Reg) (s : State) : Out := s.writeG d ((s.g a).rotateLeft (fldN (s.g b) 0 6))
/-- ROR (R95). -/
def execRor (d a b : Reg) (s : State) : Out := s.writeG d ((s.g a).rotateRight (fldN (s.g b) 0 6))
/-- MUL (R95). -/
def execMul (d a b : Reg) (s : State) : Out := s.writeG d (s.g a * s.g b)
/-- MULH (R95): bits 127:64 of the signed product. -/
def execMulh (d a b : Reg) (s : State) : Out :=
  s.writeG d (ofInt ((s.g a).toInt * (s.g b).toInt / 2 ^ 64))
/-- MULHU (R95): bits 127:64 of the unsigned product. -/
def execMulhu (d a b : Reg) (s : State) : Out :=
  s.writeG d (ofBits ((s.g a).toNat * (s.g b).toNat / 2 ^ 64))
/-- DIV (R96): all ones for a zero divisor; the overflow gives a. -/
def execDiv (d a b : Reg) (s : State) : Out :=
  s.writeG d (if s.g b = 0 then -1 else ofInt ((s.g a).toInt.tdiv (s.g b).toInt))
/-- DIVU (R96): all ones for a zero divisor. -/
def execDivu (d a b : Reg) (s : State) : Out :=
  s.writeG d (if s.g b = 0 then -1 else ofBits ((s.g a).toNat / (s.g b).toNat))
/-- REM (R96): a for a zero divisor; the sign of the dividend. -/
def execRem (d a b : Reg) (s : State) : Out :=
  s.writeG d (if s.g b = 0 then s.g a else ofInt ((s.g a).toInt.tmod (s.g b).toInt))
/-- REMU (R96): a for a zero divisor. -/
def execRemu (d a b : Reg) (s : State) : Out :=
  s.writeG d (if s.g b = 0 then s.g a else ofBits ((s.g a).toNat % (s.g b).toNat))
/-- MIN (R95). -/
def execMin (d a b : Reg) (s : State) : Out := s.writeG d (if (s.g a).slt (s.g b) then s.g a else s.g b)
/-- MAX (R95). -/
def execMax (d a b : Reg) (s : State) : Out := s.writeG d (if (s.g a).slt (s.g b) then s.g b else s.g a)
/-- MINU (R95). -/
def execMinu (d a b : Reg) (s : State) : Out := s.writeG d (if (s.g a).ult (s.g b) then s.g a else s.g b)
/-- MAXU (R95). -/
def execMaxu (d a b : Reg) (s : State) : Out := s.writeG d (if (s.g a).ult (s.g b) then s.g b else s.g a)
/-- SEQ (R95). -/
def execSeq (d a b : Reg) (s : State) : Out := s.writeG d (ofBool (s.g a == s.g b))
/-- SLT (R95). -/
def execSlt (d a b : Reg) (s : State) : Out := s.writeG d (ofBool ((s.g a).slt (s.g b)))
/-- SLTU (R95). -/
def execSltu (d a b : Reg) (s : State) : Out := s.writeG d (ofBool ((s.g a).ult (s.g b)))
/-- SEL (R95): the old gd is the condition. -/
def execSel (d a b : Reg) (s : State) : Out := s.writeG d (if s.g d ≠ 0 then s.g a else s.g b)
/-- Leading zero bits of a word; 64 for zero. -/
def clz64 (x : Word) : Nat := if x = 0 then 64 else 63 - x.toNat.log2
/-- Trailing zero bits of a word; 64 for zero. -/
def ctz64 (x : Word) : Nat := ((List.range 64).find? (fun i => bitAt x i)).getD 64
/-- One bits of a word. -/
def popc64 (x : Word) : Nat := ((List.range 64).filter (fun i => bitAt x i)).length
/-- CLZ (R95). -/
def execClz (d a : Reg) (s : State) : Out := s.writeG d (ofBits (clz64 (s.g a)))
/-- CTZ (R95). -/
def execCtz (d a : Reg) (s : State) : Out := s.writeG d (ofBits (ctz64 (s.g a)))
/-- POPC (R95). -/
def execPopc (d a : Reg) (s : State) : Out := s.writeG d (ofBits (popc64 (s.g a)))
/-- BREV (R95): bit i of the result is a[63 − i]. -/
def execBrev (d a : Reg) (s : State) : Out := s.writeG d (s.g a).reverse
/-- BSWAP (R95): byte i of the result is byte 7 − i of a. -/
def execBswap (d a : Reg) (s : State) : Out := s.writeG d (zext (leBytes 8 (s.g a).toNat).reverse)
/-- ADDW (R97). -/
def execAddw (d a b : Reg) (s : State) : Out := s.writeG d (sextW (lowW (s.g a) + lowW (s.g b)))
/-- SUBW (R97). -/
def execSubw (d a b : Reg) (s : State) : Out := s.writeG d (sextW (lowW (s.g a) - lowW (s.g b)))
/-- MULW (R97). -/
def execMulw (d a b : Reg) (s : State) : Out := s.writeG d (sextW (lowW (s.g a) * lowW (s.g b)))
/-- SLLW (R97). -/
def execSllw (d a b : Reg) (s : State) : Out := s.writeG d (sextW (lowW (s.g a) <<< fldN (s.g b) 0 5))
/-- SRLW (R97). -/
def execSrlw (d a b : Reg) (s : State) : Out := s.writeG d (sextW (lowW (s.g a) >>> fldN (s.g b) 0 5))
/-- SRAW (R97). -/
def execSraw (d a b : Reg) (s : State) : Out := s.writeG d (sextW ((lowW (s.g a)).sshiftRight (fldN (s.g b) 0 5)))
/-- SHADD (R95). -/
def execShadd (d a b : Reg) (sh : BitVec 3) (s : State) : Out := s.writeG d ((s.g a <<< sh.toNat) + s.g b)

/-- An exact signed result, or OVF with its low 64 bits in tval (R98). -/
def State.writeExact (s : State) (d : Reg) (x : Int) : Out :=
  if -(2 ^ 63) ≤ x ∧ x < 2 ^ 63 then .next (s.setG d (ofInt x)) else .next (s.raise (Cause.ovf.info 0 (ofInt x)))

/-- ADDV (R98). -/
def execAddv (d a b : Reg) (s : State) : Out := s.writeExact d ((s.g a).toInt + (s.g b).toInt)
/-- SUBV (R98). -/
def execSubv (d a b : Reg) (s : State) : Out := s.writeExact d ((s.g a).toInt - (s.g b).toInt)

/-- A scratchpad-window pointer of age 0 (R31, R100). -/
def windowPtr (mode x y off : Nat) : Word := BitVec.ofNat 64 (0xF8 * 2 ^ 48 + mode * 2 ^ 46 + x * 2 ^ 40 + y * 2 ^ 35 + off)

/-- XYA (R100). -/
def execXya (d a b : Reg) (s : State) : Out :=
  let (x, y) := coordU (s.g a)
  if x > 63 ∨ y > 23 ∨ (s.g b).toNat ≥ 2 ^ 18 then .next (s.raise (Cause.spaddr.info))
  else .next (s.setG d (windowPtr 0 x y (s.g b).toNat))
/-- XYR (R100). -/
def execXyr (d a b : Reg) (s : State) : Out :=
  let (x, y) := coordS (s.g a)
  if (s.g b).toNat ≥ 2 ^ 18 then .next (s.raise (Cause.spaddr.info))
  else .next (s.setG d (windowPtr 1 x y (s.g b).toNat))
/-- XYR.SELF (R100). -/
def execXyrSelf (d b : Reg) (s : State) : Out :=
  if (s.g b).toNat ≥ 2 ^ 18 then .next (s.raise (Cause.spaddr.info))
  else .next (s.setG d (windowPtr 2 0 0 (s.g b).toNat))
/-- AGEP (R100). -/
def execAgep (d a b : Reg) (s : State) : Out := s.writeG d (setFld (s.g a) 56 8 (fldN (s.g b) 0 8))
/-- AGEX (R100). -/
def execAgex (d a : Reg) (s : State) : Out := s.writeG d ((fld (s.g a) 56 8).setWidth 64)

/-! ### INT-I (R99) -/

/-- ADDI. -/
def execAddi (d a : Reg) (imm : BitVec 12) (s : State) : Out := s.writeG d (s.g a + simm imm)
/-- ANDI. -/
def execAndi (d a : Reg) (imm : BitVec 12) (s : State) : Out := s.writeG d (s.g a &&& simm imm)
/-- ORI. -/
def execOri (d a : Reg) (imm : BitVec 12) (s : State) : Out := s.writeG d (s.g a ||| simm imm)
/-- XORI. -/
def execXori (d a : Reg) (imm : BitVec 12) (s : State) : Out := s.writeG d (s.g a ^^^ simm imm)
/-- SLLI. -/
def execSlli (d a : Reg) (sh : BitVec 6) (s : State) : Out := s.writeG d (s.g a <<< sh.toNat)
/-- SRLI. -/
def execSrli (d a : Reg) (sh : BitVec 6) (s : State) : Out := s.writeG d (s.g a >>> sh.toNat)
/-- SRAI. -/
def execSrai (d a : Reg) (sh : BitVec 6) (s : State) : Out := s.writeG d ((s.g a).sshiftRight sh.toNat)
/-- SEQI. -/
def execSeqi (d a : Reg) (imm : BitVec 12) (s : State) : Out := s.writeG d (ofBool (s.g a == simm imm))
/-- SLTI. -/
def execSlti (d a : Reg) (imm : BitVec 12) (s : State) : Out := s.writeG d (ofBool ((s.g a).slt (simm imm)))
/-- SLTUI. -/
def execSltui (d a : Reg) (imm : BitVec 12) (s : State) : Out := s.writeG d (ofBool ((s.g a).ult (simm imm)))
/-- ADDWI. -/
def execAddwi (d a : Reg) (imm : BitVec 12) (s : State) : Out := s.writeG d (sextW (lowW (s.g a) + imm.signExtend 32))
/-- BFX: a field of pos and len, zero-extended. -/
def execBfx (d a : Reg) (pos lenM1 : BitVec 6) (s : State) : Out :=
  s.writeG d (ofBits (fldN (s.g a) pos.toNat (lenM1.toNat + 1)))
/-- BFI: the low bits of a into a field of the old gd. -/
def execBfi (d a : Reg) (pos lenM1 : BitVec 6) (s : State) : Out :=
  s.writeG d (setFld (s.g d) pos.toNat (lenM1.toNat + 1) (s.g a).toNat)
/-- LUI. -/
def execLui (d : Reg) (imm : BitVec 17) (s : State) : Out := s.writeG d (simm imm * 4096)
/-- APC: from the address of the APC word, its age included. -/
def execApc (d : Reg) (imm : BitVec 17) (s : State) : Out := s.writeG d (s.iss.addr + simm imm * 4096)

end Sys2Proof.Machine
end

