-- ==== Sys2Proof/Machine/Dispatch.lean ====
section
/-! DEFINITION. The one dispatch from the instructions and device steps of spec/opcode_table.json to their meanings. -/

namespace Sys2Proof.Machine

def exec (i : Instr) (s : State) : Host.Outcome State Fault Refusal :=
  match i with
  | .add d a b => Sys2Proof.Machine.execAdd d a b s
  | .sub d a b => Sys2Proof.Machine.execSub d a b s
  | .and d a b => Sys2Proof.Machine.execAnd d a b s
  | .or d a b => Sys2Proof.Machine.execOr d a b s
  | .xor d a b => Sys2Proof.Machine.execXor d a b s
  | .andn d a b => Sys2Proof.Machine.execAndn d a b s
  | .sll d a b => Sys2Proof.Machine.execSll d a b s
  | .srl d a b => Sys2Proof.Machine.execSrl d a b s
  | .sra d a b => Sys2Proof.Machine.execSra d a b s
  | .rol d a b => Sys2Proof.Machine.execRol d a b s
  | .ror d a b => Sys2Proof.Machine.execRor d a b s
  | .mul d a b => Sys2Proof.Machine.execMul d a b s
  | .mulh d a b => Sys2Proof.Machine.execMulh d a b s
  | .mulhu d a b => Sys2Proof.Machine.execMulhu d a b s
  | .div d a b => Sys2Proof.Machine.execDiv d a b s
  | .divu d a b => Sys2Proof.Machine.execDivu d a b s
  | .rem d a b => Sys2Proof.Machine.execRem d a b s
  | .remu d a b => Sys2Proof.Machine.execRemu d a b s
  | .min d a b => Sys2Proof.Machine.execMin d a b s
  | .max d a b => Sys2Proof.Machine.execMax d a b s
  | .minu d a b => Sys2Proof.Machine.execMinu d a b s
  | .maxu d a b => Sys2Proof.Machine.execMaxu d a b s
  | .seq d a b => Sys2Proof.Machine.execSeq d a b s
  | .slt d a b => Sys2Proof.Machine.execSlt d a b s
  | .sltu d a b => Sys2Proof.Machine.execSltu d a b s
  | .sel d a b => Sys2Proof.Machine.execSel d a b s
  | .clz d a => Sys2Proof.Machine.execClz d a s
  | .ctz d a => Sys2Proof.Machine.execCtz d a s
  | .popc d a => Sys2Proof.Machine.execPopc d a s
  | .brev d a => Sys2Proof.Machine.execBrev d a s
  | .bswap d a => Sys2Proof.Machine.execBswap d a s
  | .addw d a b => Sys2Proof.Machine.execAddw d a b s
  | .subw d a b => Sys2Proof.Machine.execSubw d a b s
  | .mulw d a b => Sys2Proof.Machine.execMulw d a b s
  | .sllw d a b => Sys2Proof.Machine.execSllw d a b s
  | .srlw d a b => Sys2Proof.Machine.execSrlw d a b s
  | .sraw d a b => Sys2Proof.Machine.execSraw d a b s
  | .shadd d a b sh => Sys2Proof.Machine.execShadd d a b sh s
  | .addv d a b => Sys2Proof.Machine.execAddv d a b s
  | .subv d a b => Sys2Proof.Machine.execSubv d a b s
  | .xya d a b => Sys2Proof.Machine.execXya d a b s
  | .xyr d a b => Sys2Proof.Machine.execXyr d a b s
  | .xyrSelf d b => Sys2Proof.Machine.execXyrSelf d b s
  | .agep d a b => Sys2Proof.Machine.execAgep d a b s
  | .agex d a => Sys2Proof.Machine.execAgex d a s
  | .addi d a imm => Sys2Proof.Machine.execAddi d a imm s
  | .andi d a imm => Sys2Proof.Machine.execAndi d a imm s
  | .ori d a imm => Sys2Proof.Machine.execOri d a imm s
  | .xori d a imm => Sys2Proof.Machine.execXori d a imm s
  | .slli d a sh => Sys2Proof.Machine.execSlli d a sh s
  | .srli d a sh => Sys2Proof.Machine.execSrli d a sh s
  | .srai d a sh => Sys2Proof.Machine.execSrai d a sh s
  | .seqi d a imm => Sys2Proof.Machine.execSeqi d a imm s
  | .slti d a imm => Sys2Proof.Machine.execSlti d a imm s
  | .sltui d a imm => Sys2Proof.Machine.execSltui d a imm s
  | .addwi d a imm => Sys2Proof.Machine.execAddwi d a imm s
  | .bfx d a pos lenM1 => Sys2Proof.Machine.execBfx d a pos lenM1 s
  | .bfi d a pos lenM1 => Sys2Proof.Machine.execBfi d a pos lenM1 s
  | .lui d imm => Sys2Proof.Machine.execLui d imm s
  | .apc d imm => Sys2Proof.Machine.execApc d imm s
  | .fadd w rm d a b => Sys2Proof.Machine.execFadd w rm d a b s
  | .fsub w rm d a b => Sys2Proof.Machine.execFsub w rm d a b s
  | .fmul w rm d a b => Sys2Proof.Machine.execFmul w rm d a b s
  | .fdiv w rm d a b => Sys2Proof.Machine.execFdiv w rm d a b s
  | .fsqrt w rm d a => Sys2Proof.Machine.execFsqrt w rm d a s
  | .fmin w rm d a b => Sys2Proof.Machine.execFmin w rm d a b s
  | .fmax w rm d a b => Sys2Proof.Machine.execFmax w rm d a b s
  | .fminm w rm d a b => Sys2Proof.Machine.execFminm w rm d a b s
  | .fmaxm w rm d a b => Sys2Proof.Machine.execFmaxm w rm d a b s
  | .feq w rm d a b => Sys2Proof.Machine.execFeq w rm d a b s
  | .flt w rm d a b => Sys2Proof.Machine.execFlt w rm d a b s
  | .fle w rm d a b => Sys2Proof.Machine.execFle w rm d a b s
  | .fclass w rm d a => Sys2Proof.Machine.execFclass w rm d a s
  | .fsgn w rm d a b => Sys2Proof.Machine.execFsgn w rm d a b s
  | .fsgnn w rm d a b => Sys2Proof.Machine.execFsgnn w rm d a b s
  | .fsgnx w rm d a b => Sys2Proof.Machine.execFsgnx w rm d a b s
  | .frint w rm x d a => Sys2Proof.Machine.execFrint w rm x d a s
  | .fcvt w rm sat d a => Sys2Proof.Machine.execFcvt w rm sat d a s
  | .fcvti w rm d a => Sys2Proof.Machine.execFcvti w rm d a s
  | .fcvtf w rm d a => Sys2Proof.Machine.execFcvtf w rm d a s
  | .fmvg w rm d a => Sys2Proof.Machine.execFmvg w rm d a s
  | .fmvf w rm d a => Sys2Proof.Machine.execFmvf w rm d a s
  | .fscale w rm d a b => Sys2Proof.Machine.execFscale w rm d a b s
  | .fexp w rm d a => Sys2Proof.Machine.execFexp w rm d a s
  | .fexp2 w rm d a => Sys2Proof.Machine.execFexp2 w rm d a s
  | .flog w rm d a => Sys2Proof.Machine.execFlog w rm d a s
  | .flog2 w rm d a => Sys2Proof.Machine.execFlog2 w rm d a s
  | .frcp w rm d a => Sys2Proof.Machine.execFrcp w rm d a s
  | .frsq w rm d a => Sys2Proof.Machine.execFrsq w rm d a s
  | .fsin w rm d a => Sys2Proof.Machine.execFsin w rm d a s
  | .fcos w rm d a => Sys2Proof.Machine.execFcos w rm d a s
  | .ftanh w rm d a => Sys2Proof.Machine.execFtanh w rm d a s
  | .ferf w rm d a => Sys2Proof.Machine.execFerf w rm d a s
  | .fma w rm d a b c => Sys2Proof.Machine.execFma w rm d a b c s
  | .fms w rm d a b c => Sys2Proof.Machine.execFms w rm d a b c s
  | .fnma w rm d a b c => Sys2Proof.Machine.execFnma w rm d a b c s
  | .fnms w rm d a b c => Sys2Proof.Machine.execFnms w rm d a b c s
  | .vadd w rm d a b => Sys2Proof.Machine.execVadd w rm d a b s
  | .vsub w rm d a b => Sys2Proof.Machine.execVsub w rm d a b s
  | .vmul w rm d a b => Sys2Proof.Machine.execVmul w rm d a b s
  | .vfma w rm d a b => Sys2Proof.Machine.execVfma w rm d a b s
  | .vfms w rm d a b => Sys2Proof.Machine.execVfms w rm d a b s
  | .vdiv w rm d a b => Sys2Proof.Machine.execVdiv w rm d a b s
  | .vsqrt w rm d a => Sys2Proof.Machine.execVsqrt w rm d a s
  | .vmin w rm d a b => Sys2Proof.Machine.execVmin w rm d a b s
  | .vmax w rm d a b => Sys2Proof.Machine.execVmax w rm d a b s
  | .vand w rm d a b => Sys2Proof.Machine.execVand w rm d a b s
  | .vor w rm d a b => Sys2Proof.Machine.execVor w rm d a b s
  | .vxor w rm d a b => Sys2Proof.Machine.execVxor w rm d a b s
  | .vsll w rm d a b => Sys2Proof.Machine.execVsll w rm d a b s
  | .vsrl w rm d a b => Sys2Proof.Machine.execVsrl w rm d a b s
  | .vsra w rm d a b => Sys2Proof.Machine.execVsra w rm d a b s
  | .vcmpeq w rm d a b => Sys2Proof.Machine.execVcmpeq w rm d a b s
  | .vcmplt w rm d a b => Sys2Proof.Machine.execVcmplt w rm d a b s
  | .vcmple w rm d a b => Sys2Proof.Machine.execVcmple w rm d a b s
  | .vsel w rm d a b => Sys2Proof.Machine.execVsel w rm d a b s
  | .vcvt w rm sat d a part => Sys2Proof.Machine.execVcvt w rm sat d a part s
  | .vrsum w rm d a b => Sys2Proof.Machine.execVrsum w rm d a b s
  | .vrmax w rm d a b => Sys2Proof.Machine.execVrmax w rm d a b s
  | .vrmin w rm d a b => Sys2Proof.Machine.execVrmin w rm d a b s
  | .vdot w rm d a b => Sys2Proof.Machine.execVdot w rm d a b s
  | .vbcst w rm d rs => Sys2Proof.Machine.execVbcst w rm d rs s
  | .vext w rm rd a lane => Sys2Proof.Machine.execVext w rm rd a lane s
  | .vins w rm d rs lane => Sys2Proof.Machine.execVins w rm d rs lane s
  | .vperm w rm d a b => Sys2Proof.Machine.execVperm w rm d a b s
  | .vmov w rm d a => Sys2Proof.Machine.execVmov w rm d a s
  | .vfn w rm d a fn => Sys2Proof.Machine.execVfn w rm d a fn s
  | .ldb t b disp => Sys2Proof.Machine.execLdb t b disp s
  | .ldbu t b disp => Sys2Proof.Machine.execLdbu t b disp s
  | .ldh t b disp => Sys2Proof.Machine.execLdh t b disp s
  | .ldhu t b disp => Sys2Proof.Machine.execLdhu t b disp s
  | .ldw t b disp => Sys2Proof.Machine.execLdw t b disp s
  | .ldwu t b disp => Sys2Proof.Machine.execLdwu t b disp s
  | .ldd t b disp => Sys2Proof.Machine.execLdd t b disp s
  | .stb t b disp => Sys2Proof.Machine.execStb t b disp s
  | .sth t b disp => Sys2Proof.Machine.execSth t b disp s
  | .stw t b disp => Sys2Proof.Machine.execStw t b disp s
  | .std t b disp => Sys2Proof.Machine.execStd t b disp s
  | .fldw t b disp => Sys2Proof.Machine.execFldw t b disp s
  | .fldd t b disp => Sys2Proof.Machine.execFldd t b disp s
  | .fstw t b disp => Sys2Proof.Machine.execFstw t b disp s
  | .fstd t b disp => Sys2Proof.Machine.execFstd t b disp s
  | .pref h b disp => Sys2Proof.Machine.execPref h b disp s
  | .ldaq w o sc t a => Sys2Proof.Machine.execLdaq w o sc t a s
  | .strl w o sc t a => Sys2Proof.Machine.execStrl w o sc t a s
  | .amoadd w o sc t b a => Sys2Proof.Machine.execAmoadd w o sc t b a s
  | .amoand w o sc t b a => Sys2Proof.Machine.execAmoand w o sc t b a s
  | .amoor w o sc t b a => Sys2Proof.Machine.execAmoor w o sc t b a s
  | .amoxor w o sc t b a => Sys2Proof.Machine.execAmoxor w o sc t b a s
  | .amomin w o sc t b a => Sys2Proof.Machine.execAmomin w o sc t b a s
  | .amomax w o sc t b a => Sys2Proof.Machine.execAmomax w o sc t b a s
  | .amominu w o sc t b a => Sys2Proof.Machine.execAmominu w o sc t b a s
  | .amomaxu w o sc t b a => Sys2Proof.Machine.execAmomaxu w o sc t b a s
  | .amoswp w o sc t b a => Sys2Proof.Machine.execAmoswp w o sc t b a s
  | .amocas w o sc t b a => Sys2Proof.Machine.execAmocas w o sc t b a s
  | .amofadd w o sc t b a => Sys2Proof.Machine.execAmofadd w o sc t b a s
  | .fence o sc => Sys2Proof.Machine.execFence o sc s
  | .cflush sc a => Sys2Proof.Machine.execCflush sc a s
  | .cinv sc a => Sys2Proof.Machine.execCinv sc a s
  | .vld v b disp => Sys2Proof.Machine.execVld v b disp s
  | .vst v b disp => Sys2Proof.Machine.execVst v b disp s
  | .vlds e v b x => Sys2Proof.Machine.execVlds e v b x s
  | .vsts e v b x => Sys2Proof.Machine.execVsts e v b x s
  | .vgth e v b x => Sys2Proof.Machine.execVgth e v b x s
  | .vsct e v b x => Sys2Proof.Machine.execVsct e v b x s
  | .beq a b disp => Sys2Proof.Machine.execBeq a b disp s
  | .bne a b disp => Sys2Proof.Machine.execBne a b disp s
  | .blt a b disp => Sys2Proof.Machine.execBlt a b disp s
  | .bge a b disp => Sys2Proof.Machine.execBge a b disp s
  | .bltu a b disp => Sys2Proof.Machine.execBltu a b disp s
  | .bgeu a b disp => Sys2Proof.Machine.execBgeu a b disp s
  | .jmp disp => Sys2Proof.Machine.execJmp disp s
  | .call disp => Sys2Proof.Machine.execCall disp s
  | .jtab a b => Sys2Proof.Machine.execJtab a b s
  | .lpad label => Sys2Proof.Machine.execLpad label s
  | .lpset n c off => Sys2Proof.Machine.execLpset n c off s
  | .lpseti n count off => Sys2Proof.Machine.execLpseti n count off s
  | .lpoff n => Sys2Proof.Machine.execLpoff n s
  | .put a b n => Sys2Proof.Machine.execPut a b n s
  | .putb a b d n => Sys2Proof.Machine.execPutb a b d n s
  | .cntrd d n => Sys2Proof.Machine.execCntrd d n s
  | .cntset rel n b => Sys2Proof.Machine.execCntset rel n b s
  | .cntadd rel d b n => Sys2Proof.Machine.execCntadd rel d b n s
  | .waitc d b n => Sys2Proof.Machine.execWaitc d b n s
  | .deq d => Sys2Proof.Machine.execDeq d s
  | .peek d => Sys2Proof.Machine.execPeek d s
  | .barcfg m a n => Sys2Proof.Machine.execBarcfg m a n s
  | .bararr d n => Sys2Proof.Machine.execBararr d n s
  | .barwait a n => Sys2Proof.Machine.execBarwait a n s
  | .phase d a => Sys2Proof.Machine.execPhase d a s
  | .launch d a => Sys2Proof.Machine.execLaunch d a s
  | .lcancel d a lvl => Sys2Proof.Machine.execLcancel d a lvl s
  | .lcount d a lvl => Sys2Proof.Machine.execLcount d a lvl s
  | .nap m => Sys2Proof.Machine.execNap m s
  | .cpy d a => Sys2Proof.Machine.execCpy d a s
  | .cpys d a => Sys2Proof.Machine.execCpys d a s
  | .cpyk d a => Sys2Proof.Machine.execCpyk d a s
  | .migr tier die d a b => Sys2Proof.Machine.execMigr tier die d a b s
  | .repl d a b m => Sys2Proof.Machine.execRepl d a b m s
  | .strcfg p v a => Sys2Proof.Machine.execStrcfg p v a s
  | .strgo p => Sys2Proof.Machine.execStrgo p s
  | .strstop p => Sys2Proof.Machine.execStrstop p s
  | .tcfg k a => Sys2Proof.Machine.execTcfg k a s
  | .trdc d r => Sys2Proof.Machine.execTrdc d r s
  | .tld k a b => Sys2Proof.Machine.execTld k a b s
  | .tldk d k a => Sys2Proof.Machine.execTldk d k a s
  | .tst k a b => Sys2Proof.Machine.execTst k a b s
  | .tz k => Sys2Proof.Machine.execTz k s
  | .tscl k a b => Sys2Proof.Machine.execTscl k a b s
  | .mma ta tb rm ad ka kb => Sys2Proof.Machine.execMma ta tb rm ad ka kb s
  | .acz ad a => Sys2Proof.Machine.execAcz ad a s
  | .acld ad a b => Sys2Proof.Machine.execAcld ad a b s
  | .acst ad a b => Sys2Proof.Machine.execAcst ad a b s
  | .accv rm sat k aa => Sys2Proof.Machine.execAccv rm sat k aa s
  | .qcfg q a => Sys2Proof.Machine.execQcfg q a s
  | .qz q => Sys2Proof.Machine.execQz q s
  | .qapp rm q k b col => Sys2Proof.Machine.execQapp rm q k b col s
  | .qapl t rm ad q => Sys2Proof.Machine.execQapl t rm ad q s
  | .qapr t rm ad q => Sys2Proof.Machine.execQapr t rm ad q s
  | .qfold rm q => Sys2Proof.Machine.execQfold rm q s
  | .qrd d q => Sys2Proof.Machine.execQrd d q s
  | .qld q a => Sys2Proof.Machine.execQld q a s
  | .qst q a => Sys2Proof.Machine.execQst q a s
  | .qform rm q a b => Sys2Proof.Machine.execQform rm q a b s
  | .fmtp f1 f2 fd => Sys2Proof.Machine.execFmtp f1 f2 fd s
  | .trap n => Sys2Proof.Machine.execTrap n s
  | .ebrk n => Sys2Proof.Machine.execEbrk n s
  | .csrr d csr => Sys2Proof.Machine.execCsrr d csr s
  | .csrw d csr a => Sys2Proof.Machine.execCsrw d csr a s
  | .csrs d csr a => Sys2Proof.Machine.execCsrs d csr a s
  | .csrc d csr a => Sys2Proof.Machine.execCsrc d csr a s
  | .ilock d a nM1 => Sys2Proof.Machine.execIlock d a nM1 s
  | .iunlk d a nM1 => Sys2Proof.Machine.execIunlk d a nM1 s
  | .grant d a b rights => Sys2Proof.Machine.execGrant d a b rights s
  | .revoke d a b => Sys2Proof.Machine.execRevoke d a b s
  | .free d a b => Sys2Proof.Machine.execFree d a b s
  | .rprobe d a => Sys2Proof.Machine.execRprobe d a s
  | .unassignedOpcode word => Sys2Proof.Machine.execUnassignedOpcode word s
  | .ret => Sys2Proof.Machine.execRet s
  | .done => Sys2Proof.Machine.execDone s
  | .cbar => Sys2Proof.Machine.execCbar s
  | .yield => Sys2Proof.Machine.execYield s
  | .msync => Sys2Proof.Machine.execMsync s
  | .nop => Sys2Proof.Machine.execNop s
  | .rett => Sys2Proof.Machine.execRett s
  | .ifence => Sys2Proof.Machine.execIfence s
  | .deferredTrap => Sys2Proof.Machine.execDeferredTrap s
  | .engineAccept => Sys2Proof.Machine.execEngineAccept s
  | .vectorOpComplete => Sys2Proof.Machine.execVectorOpComplete s
  | .matrixService => Sys2Proof.Machine.execMatrixService s
  | .matrixOpComplete => Sys2Proof.Machine.execMatrixOpComplete s
  | .copyLine => Sys2Proof.Machine.execCopyLine s
  | .copyEnd => Sys2Proof.Machine.execCopyEnd s
  | .putDelivery => Sys2Proof.Machine.execPutDelivery s
  | .waitcSatisfied => Sys2Proof.Machine.execWaitcSatisfied s
  | .deqWake => Sys2Proof.Machine.execDeqWake s
  | .crewBarrierComplete => Sys2Proof.Machine.execCrewBarrierComplete s
  | .barwaitWake => Sys2Proof.Machine.execBarwaitWake s
  | .phaseComplete => Sys2Proof.Machine.execPhaseComplete s
  | .napWake => Sys2Proof.Machine.execNapWake s
  | .msyncComplete => Sys2Proof.Machine.execMsyncComplete s
  | .lcancelComplete => Sys2Proof.Machine.execLcancelComplete s
  | .cpykComplete => Sys2Proof.Machine.execCpykComplete s
  | .freeResult => Sys2Proof.Machine.execFreeResult s
  | .grantPerformed => Sys2Proof.Machine.execGrantPerformed s
  | .revocationCut => Sys2Proof.Machine.execRevocationCut s
  | .coreCut => Sys2Proof.Machine.execCoreCut s
  | .cutAcknowledge => Sys2Proof.Machine.execCutAcknowledge s
  | .revokeDone => Sys2Proof.Machine.execRevokeDone s
  | .migrationLineCopy => Sys2Proof.Machine.execMigrationLineCopy s
  | .migrDone => Sys2Proof.Machine.execMigrDone s
  | .replDone => Sys2Proof.Machine.execReplDone s
  | .sequencerWrite => Sys2Proof.Machine.execSequencerWrite s
  | .sealedBufferMove => Sys2Proof.Machine.execSealedBufferMove s
  | .faultRecord => Sys2Proof.Machine.execFaultRecord s
  | .dispatch => Sys2Proof.Machine.execDispatch s
  | .crewDone => Sys2Proof.Machine.execCrewDone s
  | .launchComplete => Sys2Proof.Machine.execLaunchComplete s
  | .dependenceTest => Sys2Proof.Machine.execDependenceTest s
  | .promotion => Sys2Proof.Machine.execPromotion s
  | .coreReservation => Sys2Proof.Machine.execCoreReservation s
  | .watchdogExpiry => Sys2Proof.Machine.execWatchdogExpiry s
  | .leaderChange => Sys2Proof.Machine.execLeaderChange s
  | .graceExpiry => Sys2Proof.Machine.execGraceExpiry s
  | .drainEnd => Sys2Proof.Machine.execDrainEnd s
  | .functionLevelReset => Sys2Proof.Machine.execFunctionLevelReset s
  | .coldReset => Sys2Proof.Machine.execColdReset s
  | .sensorAlarm => Sys2Proof.Machine.execSensorAlarm s
  | .tamperMeshBroken => Sys2Proof.Machine.execTamperMeshBroken s
  | .threadRegisterError => Sys2Proof.Machine.execThreadRegisterError s
  | .engineRegisterError => Sys2Proof.Machine.execEngineRegisterError s
  | .icacheError => Sys2Proof.Machine.execIcacheError s
  | .correctedError => Sys2Proof.Machine.execCorrectedError s
  | .instructionFill => Sys2Proof.Machine.execInstructionFill s
  | .textKeySwitch => Sys2Proof.Machine.execTextKeySwitch s
  | .flitReceive => Sys2Proof.Machine.execFlitReceive s
  | .sublinkRekey => Sys2Proof.Machine.execSublinkRekey s
  | .expanderLinkDown => Sys2Proof.Machine.execExpanderLinkDown s
  | .powerSample => Sys2Proof.Machine.execPowerSample s
  | .identify => Sys2Proof.Machine.execIdentify s
  | .attest => Sys2Proof.Machine.execAttest s
  | .ctxCreate => Sys2Proof.Machine.execCtxCreate s
  | .ctxCreateRootEntry => Sys2Proof.Machine.execCtxCreateRootEntry s
  | .ctxCreateRemoveRoot => Sys2Proof.Machine.execCtxCreateRemoveRoot s
  | .ctxDestroy => Sys2Proof.Machine.execCtxDestroy s
  | .jobStart => Sys2Proof.Machine.execJobStart s
  | .jobCancel => Sys2Proof.Machine.execJobCancel s
  | .preempt => Sys2Proof.Machine.execPreempt s
  | .restore => Sys2Proof.Machine.execRestore s
  | .checkpoint => Sys2Proof.Machine.execCheckpoint s
  | .checkpointRecover => Sys2Proof.Machine.execCheckpointRecover s
  | .setQos => Sys2Proof.Machine.execSetQos s
  | .setQosConfigRecord => Sys2Proof.Machine.execSetQosConfigRecord s
  | .dirtyLogCfg => Sys2Proof.Machine.execDirtyLogCfg s
  | .readCounter => Sys2Proof.Machine.execReadCounter s
  | .rasLog => Sys2Proof.Machine.execRasLog s
  | .keyUpdate => Sys2Proof.Machine.execKeyUpdate s
  | .keyUpdateAllowList => Sys2Proof.Machine.execKeyUpdateAllowList s
  | .getVersion => Sys2Proof.Machine.execGetVersion s
  | .getCapabilities => Sys2Proof.Machine.execGetCapabilities s
  | .negotiateAlgorithms => Sys2Proof.Machine.execNegotiateAlgorithms s
  | .getDigests => Sys2Proof.Machine.execGetDigests s
  | .getCertificate => Sys2Proof.Machine.execGetCertificate s
  | .challenge => Sys2Proof.Machine.execChallenge s
  | .getMeasurements => Sys2Proof.Machine.execGetMeasurements s
  | .keyExchange => Sys2Proof.Machine.execKeyExchange s
  | .finish => Sys2Proof.Machine.execFinish s
  | .spdmKeyUpdate => Sys2Proof.Machine.execSpdmKeyUpdate s
  | .heartbeat => Sys2Proof.Machine.execHeartbeat s
  | .endSession => Sys2Proof.Machine.execEndSession s
  | .lockInterfaceRequest => Sys2Proof.Machine.execLockInterfaceRequest s
  | .getDeviceInterfaceReport => Sys2Proof.Machine.execGetDeviceInterfaceReport s
  | .getDeviceInterfaceState => Sys2Proof.Machine.execGetDeviceInterfaceState s
  | .startInterfaceRequest => Sys2Proof.Machine.execStartInterfaceRequest s
  | .stopInterfaceRequest => Sys2Proof.Machine.execStopInterfaceRequest s
  | .resolve => Sys2Proof.Machine.execResolve s
  | .reject => Sys2Proof.Machine.execReject s
  | .fqstRead => Sys2Proof.Machine.execFqstRead s
  | .dirtyLogReset => Sys2Proof.Machine.execDirtyLogReset s
  | .dlconsWrite => Sys2Proof.Machine.execDlconsWrite s
  | .tlbi => Sys2Proof.Machine.execTlbi s
  | .invalidationDone => Sys2Proof.Machine.execInvalidationDone s
  | .apertureAccess => Sys2Proof.Machine.execApertureAccess s
  | .registerWrite => Sys2Proof.Machine.execRegisterWrite s
  | .bandwidthWindowEnd => Sys2Proof.Machine.execBandwidthWindowEnd s
  | .interfaceError => Sys2Proof.Machine.execInterfaceError s
  | .memoryManagerMove => Sys2Proof.Machine.execMemoryManagerMove s
  | .streamFetchAhead => Sys2Proof.Machine.execStreamFetchAhead s

end Sys2Proof.Machine
end

