-- ==== Sys2Proof/Machine/Issue.lean ====
section
/-! DEFINITION. A step of a thread: its forming from a bundle, the checks of R72, a lone instruction or a pair, and the choice of the
next PC (spec/03_encoding.md R67 to R72, R86 to R90; spec/04_integer_control.md R111; spec/08_system_traps_rights.md R201). -/

namespace Sys2Proof.Machine

/-! ### A pair's registers (R70) -/

/-- Two instructions of a pair break the rules of R70: both write one register, or both name one stream-bound register. A write of g0
is discarded and never conflicts. -/
def Thread.conflict (t : Thread) (c a : Instr) : Bool :=
  (dests c).any (fun d => d != .g 0 && (dests a).contains d)
    || (vectorNames c).any (fun v => (vectorNames a).contains v && (t.boundTo v).isSome)

/-! ### The slots of a step (R67 to R69) -/

/-- A word may stand in slot C (R69). -/
def slotC (w : BitVec 32) : Bool := (fldN w 28 3 ≤ 1 || fldN w 28 3 ≥ 4)
/-- A word may stand in slot A (R69). -/
def slotA (w : BitVec 32) : Bool := fldN w 28 3 ≤ 3

/-- The device as a word of the current thread's step begins: its word, slot and address, and the address after the step. -/
def State.begin (s : State) (w : BitVec 32) (inA : Bool) (addr next : Word) : State :=
  { s with iss := { word := w, slotA := inA, addr, next } }

/-- An outcome that a wake has given goes back (log 1): a removed inbox entry stands first in the inbox again. -/
def State.dropToken (s : State) : State :=
  match s.th.wait with
  | .deqOk w0 w1 =>
    let s := s.setTh { s.th with wait := .none }
    s.setCpu { s.cpu with inbox := { slot := s.cur.2, w0, w1 } :: s.cpu.inbox }
  | .waitcOk _ | .barwaitOk | .napOk | .msyncOk | .cbarOk | .phaseOk | .refillOk => s.setTh { s.th with wait := .none }
  | _ => s

/-- A trap of the step before any of its instructions runs (R72). -/
def State.trapStep (s : State) (i : TrapInfo) : Out := .next (s.dropToken.raise i)

/-- The ILLPFX of the step's first instruction where a prefix is pending (R87, R88). -/
def State.prefixFault (s : State) (i : Instr) : Option TrapInfo :=
  match s.pending with
  | none => none
  | some pf =>
    match pfxRule i with
    | none => some (s.badWord .illpfx)
    | some r => if r.admits pf then none else some (s.badWord .illpfx)

/-! ### A lone instruction -/

/-- The step of a lone word (R67, R72). -/
def State.runLone (s : State) (w : BitVec 32) : Out :=
  let s := s.begin w false s.th.pc (s.th.pc + 4)
  match decode w with
  | .error _ => exec (.unassignedOpcode w) s.dropToken
  | .ok i =>
    if s.illegal i then s.trapStep (s.badWord .illins)
    else
      match s.prefixFault i with
      | some t => s.trapStep t
      | none => exec i s

/-! ### A pair (R70 to R72) -/

/-- The imm12 of an FMTP. -/
def fmtpOf : Instr → Option (BitVec 12)
  | .fmtp f1 f2 fd => some (fmtpImm f1 f2 fd)
  | _ => none

/-- The instructions of slot C whose effect follows slot A's: TRAP, RETT and DONE act once the step has completed (R115, R202,
R204). -/
def afterStep : Instr → Bool
  | .trap _ | .rett | .done => true
  | _ => false

/-- A step that waits in this way has not begun (R222, R305, R373, R404, R406). -/
def Wait.stalls : Wait → Bool
  | .queueFull | .fault _ _ _ | .bandwidth | .dirtyLog | .sealed _ | .flush | .refill => true
  | _ => false

/-- The thread as slot A of a pair reads it: its registers, ports, enables and status as before the step, with the prefix that an FMTP
of its pair gives it; flags and seed as slot C left them (R70, R87). -/
def Thread.forSlotA (t0 tC : Thread) (pfx : Option (BitVec 12)) : Thread :=
  { tC with g := t0.g, f := t0.f, v := t0.v, fenable := t0.fenable, ports := t0.ports, status := t0.status }.setPrefix pfx.isSome
    (pfx.getD 0)

/-- Elements of two results of a pair, where the first is the one before the step: each that slot A changed, else slot C's. -/
def mergeRegs {n k : Nat} (v0 vC vA : Vector (BitVec n) k) : Vector (BitVec n) k :=
  Vector.ofFn (fun i => if vA[i] = v0[i] then vC[i] else vA[i])

/-- The thread after both slots of a pair (R70). -/
def Thread.joinPair (t0 tC tA : Thread) : Thread :=
  { tA with
    g := mergeRegs t0.g tC.g tA.g
    f := mergeRegs t0.f tC.f tA.f
    v := mergeRegs t0.v tC.v tA.v
    fenable := tC.fenable
    status := tC.status
    ports := Vector.ofFn (fun i => if tC.ports[i] = t0.ports[i] then tA.ports[i] else tC.ports[i]) }

/-- Slot A of a pair that began in s0, after slot C's effect sC (R70, R72): where it traps or waits the pair has had no effect. -/
def State.runSlotA (s0 sC : State) (a : Instr) (wa : BitVec 32) (pfx : Option (BitVec 12)) : Out :=
  let addr := s0.th.pc + 4
  let next := s0.th.pc + 8
  let t0 := sC.thBefore s0
  match exec a ((sC.setTh (t0.forSlotA sC.th pfx)).begin wa true addr next) with
  | .next r =>
    match r.iss.trap with
    | some i => ((s0.keepNotes r).begin wa true addr next).trapStep i
    | none =>
      if r.iss.disp = .stay then .next ((s0.keepNotes r).dropToken.waitOn r.th.wait)
      else
        .next { r.setTh ((t0.joinPair sC.th r.th).forget (cutsTaken s0.cur.1 sC.hub.cuts r.hub.cuts)) with iss := sC.iss }
  | o => o

/-- The instructions of a pair that has passed the checks 1 to 5 of R72, slot C first. -/
def State.runSlots (s : State) (c a : Instr) (wa : BitVec 32) : Out :=
  match fmtpOf c with
  | some imm => s.runSlotA s a wa (some imm)
  | none =>
    if afterStep c then
      match s.runSlotA s a wa none with
      | .next m => if m.iss.trap.isSome || m.iss.disp == .stay then .next m else exec c m
      | o => o
    else
      match exec c s with
      | .next r =>
        if r.iss.trap.isSome then .next r
        else if r.iss.disp ≠ .stay then s.runSlotA r a wa none
        else if r.th.wait.stalls then .next r
        else
          match s.runSlotA s a wa none with
          | .next m => if m.iss.trap.isSome || m.iss.disp == .stay then .next m else .next r
          | o => o
      | o => o

/-- The step of a pair (R67, R72): its checks in order, then its instructions. -/
def State.runPair (s : State) (w wa : BitVec 32) : Out :=
  let pc := s.th.pc
  let s := s.begin w false pc (pc + 8)
  let sA := s.begin wa true (pc + 4) (pc + 8)
  if !slotC w then s.trapStep (s.badWord .illbun)
  else if !slotA wa then sA.trapStep (sA.badWord .illbun)
  else
    match decode w with
    | .error _ => exec (.unassignedOpcode w) s.dropToken
    | .ok c =>
      if s.illegal c then s.trapStep (s.badWord .illins)
      else
      match (if bitAt wa 31 then .error .unassigned else decode wa) with
      | .error _ => exec (.unassignedOpcode wa) sA.dropToken
      | .ok a =>
        match s.prefixFault c with
        | some t => s.trapStep t
        | none =>
          let own : Bool := match fmtpOf c with
            | some imm => match pfxRule a with
              | some r => r.admits imm
              | none => false
            | none => true
          if !own then sA.trapStep (sA.badWord .illpfx)
          else if s.th.conflict c a then sA.trapStep (sA.badWord .illbun)
          else s.runSlots c a wa

/-! ### The step of a thread -/

/-- What the fetch of a step's words becomes where it fails (R72 item 1, R198). -/
def Res.fetched {α : Type} (r : Res α) (k : State → α → Out) : Out :=
  match r with
  | .ok s x => k s x
  | .trap s i => s.trapStep i
  | .wait s w => .next (s.dropToken.waitOn w)
  | .stop f => .fault f

/-- Fetch and run (R67): the current thread's step up to the choice of its PC. -/
def State.runStep (s : State) : Out :=
  let pc := s.th.pc
  let c := s.cur.1
  let lvl := s.th.sLevel
  (s.fetchWord c lvl pc).fetched fun s w =>
    if bitAt pc 2 then
      if bitAt w 31 then s.runLone w else s.trapStep (wordInfo .illbun true pc w)
    else if bitAt w 31 then s.runLone w
    else (s.fetchWord c lvl (pc + 4)).fetched fun s wa => s.runPair w wa

/-- A step of the current thread has completed: neither trapped nor waiting (R339). -/
def State.completed (s : State) : Bool :=
  s.iss.trap.isNone && (s.iss.disp != .stay || !s.th.live) && !s.th.wait.drains

/-- The current thread's step with the choice of its PC (R111) and its context's progress (R339). -/
def State.threadStep (s : State) : Out :=
  let s := { s with iss := {} }
  match s.runStep with
  | .next r =>
    -- the entry of a step's own trap waits for vector operations issued before it (R223)
    match s.cpu.vecBusy s.cur.2, r.iss.trap with
    | true, some i => .next ((s.keepNotes r).waitOn (.trapping i s.th.pc))
    | _, _ =>
    let r' := r.setTh (r.th.advance r.iss.disp r.iss.next)
    .next (if r.completed then r'.progress (r'.ownerOf r'.cur.1) else r')
  | o => o

end Sys2Proof.Machine
end

