-- ==== Sys2Proof/Machine/Policy.lean ====
section
/-! DEFINITION. Which step the machine makes next (log 1): a turn given from outside, a clock that has run out, the current thread, a
step that the device can make, or the next thread in turn. The spec leaves the order open; leadership follows
spec/19_scheduler.md R334 and R335. -/

namespace Sys2Proof.Machine

/-! ### Turns from outside -/

/-- A row of the table that is a step of the device: it has no encoding, and is not the issue of a word without a meaning. -/
def deviceStep (i : Instr) : Bool :=
  match i with
  | .unassignedOpcode _ => false
  | i => (encode 1 i).isNone

/-- A step of the device with its parameters. -/
def State.event (s : State) (i : Instr) (e : Ev) : Out := exec i { s with ev := e }

/-- The current thread's core at the cycle that its step issues in: the thread has still to issue in it no longer (R334, R335). -/
def State.lead (s : State) : State :=
  let s := s.openCycle s.cur.1
  s.setCpu { s.cpu with group := s.cpu.group.erase s.cur.2 }

/-- The current thread takes a report that it holds, or issues its step. -/
def State.issueCur (s : State) : Out :=
  let s := s.lead
  if s.reportDue s.cur.1 s.cur.2 then s.event .deferredTrap { c := s.cur.1, sl := s.cur.2 } else s.threadStep

/-! ### Outside changes of stored bits (R316, R370, R371, R373) -/

/-- Bits of a stored line change: its MAC fails when it is next read from memory (R370, R373); a line that its home die cache holds is
read there (R298). -/
def State.corruptLine (s : State) (line : Nat) : State :=
  if (s.home (line * 64) == .hbm || (s.sealedIn (line * 64)).isSome) && !s.dieHolds line && !s.hub.macBad.contains line then
    { s with hub := { s.hub with macBad := line :: s.hub.macBad } }
  else s

/-- Bits of a 256-byte block change on its die-to-stack link, each time it is sent: its four lines fail when they are next read
(R371). -/
def State.corruptBlock (s : State) (line : Nat) : State :=
  let more := ((List.range 4).map (4 * (line / 4) + ·)).filter (fun l =>
    s.home (l * 64) == .hbm && !s.dieHolds l && !s.hub.linkBad.contains l)
  if more.isEmpty then s else { s with hub := { s.hub with linkBad := more ++ s.hub.linkBad } }

/-- Bits of line i of an owner's rights table change (R316). -/
def State.corruptTable (s : State) (o i : Nat) : State :=
  let k := s.ctx o
  if (Map.find? s.ctxs o).isNone || k.badRights.contains i then s else s.setCtx o { k with badRights := i :: k.badRights }

/-- A turn given from outside. -/
def State.takeTurn (s : State) : Turn → Out
  | .event i e => if deviceStep i && e.wf then s.event i e else .next s
  | .issue c sl => if s.mayIssue c sl then { s with cur := (c, sl) }.issueCur else .next s
  | .tick n => .next (s.pass n)
  | .evict c line => .next (s.evictLine c line)
  | .corrupt line => .next (s.corruptLine line)
  | .corruptLink line => .next (s.corruptBlock line)
  | .corruptRights o i => .next (s.corruptTable o i)

/-! ### What the device can do -/

/-- The first of a list of steps that changes the device, made. -/
def State.firstStep (s : State) : List (Instr × Ev) → Option Out
  | [] => none
  | (i, e) :: t =>
    match s.event i e with
    | .next s' => if s' = { s with ev := e } then State.firstStep s t else some (.next s')
    | o => some o

/-! ### What the device owes -/

/-- The locked lines of a core that have still to be filled again are filled, as far as they can be; a thread whose IFENCE waits for them
goes on once none is left (R207, R210). -/
def State.refillCore (s : State) (c : Nat) : State :=
  let s := match s.refillStale c with
    | .ok s _ | .wait s _ => s
    | _ => s
  let k := s.core c
  if k.icache.any (·.stale) then s
  else s.setCore c { k with threads := k.threads.mapV (fun _ t => if t.wait = .refill then { t with wait := .refillOk } else t) }

/-- A core has locked lines to fill again, or a thread that waits for that. -/
def Core.refills (k : Core) : Bool := k.icache.any (·.stale) || k.threads.any (fun t => t.2.wait == .refill)

/-- Step 7 of a cold reset (R411): BUSY is cleared. -/
def State.endBoot (s : State) : State := { s with hub := { s.hub with booting := false } }

/-- What the device does as soon as it can, whatever runs: the last step of a cold reset (R411), a level-2 alarm that is due (R316), a write of its own that waits (R190, R305), the
end of a function-level reset (R353), a reset of a dirty log that waits (R405), and fills of locked lines that wait (R207, R210); none where nothing of the kind can be done. -/
def State.owed (s : State) : Option State :=
  if s.hub.booting then some s.endBoot
  else match s.hub.alarms with
  | o :: rest => some ({ s with hub := { s.hub with alarms := rest } }.alarm2 0 0 o)
  | [] =>
    match s.retryDev with
    | some s => some s
    | none =>
      let changed (s' : State) : Option State := if s' = s then none else some s'
      match s.fns.findSome? (fun f =>
          if f.2.flr then changed (s.settleFlr f.1) else if f.2.dlRst then changed (s.tryLogReset f.1) else none) with
      | some s => some s
      | none => s.cores.findSome? (fun c => if c.2.refills then changed (s.refillCore c.1) else none)

/-- A bandwidth window has ended and something waits for it or was counted in it (R404). -/
def State.windowDue (s : State) : Bool :=
  (s.fns.any (fun f => f.2.hbmUsed != 0 || f.2.expUsed != 0)
      || s.cores.any (fun k => k.2.withheld true)
      || !s.hub.devQ.isEmpty)
    && s.now / 4096 != s.hub.window

/-- What is due before any thread's next step: the clocks that have run out (R328, R331, R340, R344, R404), the crews that are done and
the launches that have thereby completed (R189, R190), and the dispatcher's decisions, which it repeats until no crew can start
(R329). -/
def State.dueSteps (s : State) : List (Instr × Ev) :=
  s.ctxs.flatMap (fun k =>
      (if (s.nextDispatch k.1).isSome then [(Instr.dispatch, ({ o := k.1 } : Ev))] else [])
        ++ (if (k.2.job.map Job.hung).getD false then [(Instr.watchdogExpiry, ({ o := k.1 } : Ev))] else [])
        ++ (match k.2.save, k.2.pre with
          | .grace, some p => if p.left = 0 then [(Instr.graceExpiry, ({ o := k.1 } : Ev))] else []
          | _, _ => []))
    ++ s.launches.flatMap (fun l =>
      (l.2.crews.filter (fun w => s.crewIdle w.2 && (s.ctx l.2.owner).save != .saved)).map
          (fun w => (Instr.crewDone, ({ num := l.1, k := w.1 } : Ev)))
        ++ (if l.2.finished && !s.launchWaits l.2 then [(Instr.launchComplete, ({ num := l.1 } : Ev))] else [])
        ++ (if s.promotable l.2 then [(Instr.promotion, ({ num := l.1 } : Ev))] else [])
        ++ (if s.reservable l.2 then [(Instr.coreReservation, ({ num := l.1 } : Ev))] else []))
    ++ (if s.windowDue then [(Instr.bandwidthWindowEnd, ({} : Ev))] else [])

/-- The steps about a thread. -/
def threadSteps : List Instr :=
  [.deferredTrap, .waitcSatisfied, .deqWake, .crewBarrierComplete, .barwaitWake, .napWake, .msyncComplete, .lcancelComplete,
    .cpykComplete, .engineAccept, .copyEnd, .copyLine]

/-- The steps about a core. -/
def coreSteps : List Instr := [.textKeySwitch, .vectorOpComplete, .matrixOpComplete, .matrixService]

/-- The steps about a context. -/
def ctxSteps : List Instr := [.phaseComplete, .drainEnd]

/-- The command at the head of Cordwain's order (R407), as a row of the table by its opcode and SUB. -/
def commandStep (op sub : Nat) : Option Instr :=
  match op with
  | 1 => some .identify
  | 2 => some .attest
  | 3 => some (if sub = 1 then .ctxCreateRootEntry else if sub = 2 then .ctxCreateRemoveRoot else .ctxCreate)
  | 4 => some .ctxDestroy
  | 5 => some .jobStart
  | 6 => some .jobCancel
  | 7 => some .preempt
  | 8 => some .restore
  | 9 => some (if sub = 1 then .checkpointRecover else .checkpoint)
  | 10 => some (if sub = 1 then .setQosConfigRecord else .setQos)
  | 11 => some .dirtyLogCfg
  | 12 => some .readCounter
  | 13 => some .rasLog
  | 14 => some (if sub = 1 then .keyUpdateAllowList else .keyUpdate)
  | _ => none

/-- Cordwain's next step: the rest of a CHECKPOINT under way, which holds back the commands after it, or the command at the head. -/
def State.cordwainSteps (s : State) : List (Instr × Ev) :=
  match s.hub.ckpt with
  | some fn => [(.checkpoint, { fn })]
  | none =>
    match s.hub.cmdQ with
    | [] => []
    | fn :: _ =>
      let f := s.fnc fn
      match commandStep f.cmdOp.toNat (f.arg 0 1) with
      | some i => [(i, { fn })]
      | none => []

/-- A step for each number below a bound. -/
def stepsUpTo (n : Nat) (is : List Instr) : List (Instr × Ev) :=
  (List.range n).flatMap (fun k => is.map (fun i => (i, ({ k } : Ev))))

/-- The steps of the hub: messages, rights, cuts, pages, faults, links (R170, R212, R320, R307, R305, R401). -/
def State.hubSteps (s : State) : List (Instr × Ev) :=
  let h := s.hub
  stepsUpTo h.msgs.length [.putDelivery]
    ++ [(Instr.grantPerformed, ({} : Ev)), (Instr.revocationCut, ({} : Ev)), (Instr.freeResult, ({ k := h.cuts.length } : Ev))]
    ++ (List.range h.cuts.length).flatMap (fun k => s.cores.flatMap (fun c =>
        [(Instr.coreCut, ({ c := c.1, k } : Ev)), (Instr.cutAcknowledge, { c := c.1, k })]))
    ++ stepsUpTo h.cuts.length [.revokeDone, .freeResult]
    ++ [(Instr.sequencerWrite, ({} : Ev))]
    ++ h.vtab.map (fun v => (Instr.sealedBufferMove, ({ k := v.1 } : Ev)))
    ++ stepsUpTo h.pageReqs.length [.migrDone, .replDone, .migrationLineCopy]
    ++ stepsUpTo h.faults.length [.faultRecord]
    ++ [(Instr.invalidationDone, ({} : Ev))]
    ++ h.links.map (fun l => (Instr.sublinkRekey, ({ k := l.1 } : Ev)))

/-- A list from a place on, and then from its start. -/
def turned {α : Type} (l : List α) (n : Nat) : List α := l.drop (n % l.length) ++ l.take (n % l.length)

/-- The steps that the device can make of itself, in the order it tries them; the order in which it looks at cores and slots turns. -/
def State.deviceSteps (s : State) : List (Instr × Ev) :=
  (turned s.cores (s.free / 2)).flatMap (fun c =>
      (turned c.2.threads (s.free / 2)).flatMap (fun t => threadSteps.map (fun i => (i, ({ c := c.1, sl := t.1 } : Ev))))
        ++ coreSteps.map (fun i => (i, ({ c := c.1 } : Ev))))
    ++ s.ctxs.flatMap (fun k => ctxSteps.map (fun i => (i, ({ o := k.1 } : Ev))))
    ++ (s.launches.filter (fun l => s.depDue l.2)).map (fun l => (Instr.dependenceTest, ({ num := l.1 } : Ev)))
    ++ s.hubSteps ++ s.cordwainSteps

/-! ### The next thread -/

/-- The current thread goes on: it may issue, and every 64th step another turn comes between. -/
def State.goesOn (s : State) : Bool := s.mayIssue s.cur.1 s.cur.2 && s.free % 64 != 63

/-- Every slot of a core that holds a thread. -/
def State.slots (s : State) : List (Nat × Nat) := s.cores.flatMap (fun c => c.2.threads.map (fun t => (c.1, t.1)))

/-- A slot comes after another in the order of cores and slots. -/
def slotAfter (a b : Nat × Nat) : Bool := decide (b.1 < a.1) || (a.1 == b.1 && decide (b.2 < a.2))

/-- The next thread that may issue, after the current one in the order of cores and slots. -/
def State.nextThread (s : State) : Option (Nat × Nat) :=
  let all := s.slots
  (all.filter (fun a => slotAfter a s.cur) ++ all.filter (fun a => !slotAfter a s.cur)).find? (fun a => s.mayIssue a.1 a.2)

/-- The turn passes to the next thread that may issue, which issues; with none, nothing happens but the passing of time. -/
def State.rotate (s : State) : Out :=
  match s.nextThread with
  | some a => { s with cur := a }.issueCur
  | none => .next s

/-! ### One step -/

/-- An engine has work, or a message is under way. -/
def State.enginesBusy (s : State) : Bool :=
  !s.hub.msgs.isEmpty || s.cores.any (fun k =>
    !k.2.mx.isEmpty || !k.2.vx.isEmpty || !k.2.cps.isEmpty || k.2.threads.any (fun t => !t.2.queue.isEmpty))

/-- The device makes a step of its own where it can, else the turn passes. -/
def State.deviceTurn (s : State) : Out :=
  match s.firstStep s.deviceSteps with
  | some o => o
  | none => if s.goesOn then s.issueCur else s.rotate

/-- A thread issues where one may, else the device makes a step of its own. -/
def State.threadTurn (s : State) : Out :=
  if s.goesOn then s.issueCur else if s.nextThread.isSome then s.rotate else s.deviceTurn

/-- The machine's next step without its clock: a turn given from outside, what the device owes, what is due, and else a thread's step or
the device's. While engines have work, their steps and the threads' take turns. -/
def State.move (s : State) : Out :=
  match s.turns with
  | u :: rest => { s with turns := rest }.takeTurn u
  | [] =>
    match s.owed with
    | some s => .next s
    | none =>
      match s.firstStep s.dueSteps with
      | some o => o
      | none =>
        if s.enginesBusy then (if s.free % 2 = 1 then s.deviceTurn else s.threadTurn)
        else if s.goesOn then s.issueCur
        else s.deviceTurn

/-- Cycles pass with a step: how many is a free value (log 11). -/
def State.clock (s : State) : State := { s with free := s.free + 1 }.pass (Config.stepCycles s.free)

/-! ### A program placed for one step (log 20) -/

/-- The virtual and system physical address of the placed step. -/
def placeAt : Nat := 0x100000

/-- The bytes of a placed word: a lone word where its bit 31 is set, else a pair with a word of zeros; a word of class FP or VEC
stands in slot A then, and FMTP has a VMOV as its consumer. -/
def placedBytes (w : BitVec 32) : List Byte :=
  if bitAt w 31 then bytesOfWord w
  else if fldN w 22 9 = 0x1C1 then bytesOfWord w ++ bytesOfWord ((encode 0 (.vmov .w32 .rne 0 0)).getD 0)
  else if slotC w then bytesOfWord w ++ leBytes 4 0
  else leBytes 4 0 ++ bytesOfWord w

/-- Page tables that map the first 256 MiB of region 0 to the first 256 MiB of HBM (R301, R302). -/
def placeTables (m : Mem) : Mem :=
  let n1 : Nat := 0x10000000
  let n2 : Nat := 0x10008000
  (m.setLe n1 8 (2 ^ 63 + n2 / 2 ^ 15)).setLe n2 8 (2 ^ 63 + 2 ^ 62 + 2 ^ 59 + 2 ^ 58)

/-- The context that a placed program runs in: owner 1 on cluster 0, unprotected, with every right on the first 256 MiB. -/
def placeCtx : Ctx :=
  { tab := [(0, 0)], rights := [{ base := 0, len := 2 ^ 22, age := 0, rights := 0xF, gid := 1 }], allow := -1 }

/-- The thread that a placed program runs in. -/
def placeThread : Thread := { live := true, pc := BitVec.ofNat 64 placeAt, id := { w := 64, nth := 1 } }

/-- A word placed where step fetches its next instruction, with the context, the mapping and the thread that this takes. -/
def State.place (s : State) (w : BitVec 32) : State :=
  { s with
    mem := (placeTables s.mem).setBytes placeAt (placedBytes w)
    dev := { s.dev with ttroot := Map.put s.dev.ttroot 0 (BitVec.ofNat 64 (2 ^ 63 + 0x10000000 / 2 ^ 15)) }
    ctxs := Map.put s.ctxs 1 placeCtx
    cores := Map.put s.cores 0 { owner := 1, threads := [(0, placeThread)] }
    cur := (0, 0), turns := [] }

end Sys2Proof.Machine
end

