-- ==== Sys2Proof/Safety.lean ====
section
/-! DEFINITION. What counts as a safe run: no step is refused, the machine stops only at an access to a local address that R295
leaves unpopulated, and the device's memory keeps its canonical form. Then the frames that the statements use. -/

namespace Sys2Proof.Machine

/-- The device's memory is in canonical form: addresses strictly rising, no entry equal to what an unlisted address reads as. -/
def State.memOk (s : State) : Prop := s.mem.wf = true

/-- An outcome of a safe step: the next state keeps the canonical form, or the machine stops at an unpopulated address. -/
def SafeOutcome : Host.Outcome State Fault Refusal → Prop
  | .next s => s.memOk
  | .fault (.unpopulated _) => True
  | .refused _ => False

/-- A run of n steps from a state is safe: each of its outcomes is. -/
def SafeRun : Nat → State → Prop
  | 0, s => s.memOk
  | n + 1, s => SafeOutcome (step s) ∧ match step s with
    | .next s' => SafeRun n s'
    | _ => True

/-! ### What a step leaves alone

The frames that the statements use. They speak of what reading the state gives, so that they hold whatever else the state lists. -/

/-- The two states agree in everything but the threads of their cores. -/
def State.SameDevice (s t : State) : Prop :=
  { t with cores := s.cores } = s ∧ ∀ c, { t.core c with threads := (s.core c).threads } = s.core c

/-- The two states agree in every thread but the current one. -/
def State.SameOthers (s t : State) : Prop := ∀ c sl, (c, sl) ≠ s.cur → t.thread c sl = s.thread c sl

/-- The two states agree in everything but the current thread: every byte of memory, every engine register, counter, inbox and
scratchpad, every other thread. -/
def State.OnlyThread (s t : State) : Prop := s.SameDevice t ∧ s.SameOthers t

/-- The current thread differs in nothing but a general register, which holds a value; g0 stays zero. -/
def State.WritesG (s t : State) (d : Reg) (x : Word) : Prop :=
  s.OnlyThread t ∧ t.th = { s.th with g := t.th.g } ∧ ∀ r, t.g r = if r = d ∧ r ≠ 0 then x else s.g r

/-- The instruction completes: it answers a state that differs in a general register only, whose value meets a condition. -/
def State.GivesG (s : State) (i : Instr) (d : Reg) (P : Word → Prop) : Prop := ∃ t x, exec i s = .next t ∧ P x ∧ s.WritesG t d x

/-- The instruction completes: it answers a state that differs in a general register only, which holds a value. -/
def State.PutsG (s : State) (i : Instr) (d : Reg) (x : Word) : Prop := s.GivesG i d (· = x)

/-- A precise trap of the current thread's step in place of the instruction's effect: the state is the trap's entry from the state
before. -/
def State.Traps (s : State) (i : Instr) (x : TrapInfo) : Prop := exec i s = .next (s.raise x)

/-- A floating instruction completes: its f register holds the result, its flags join fflags, the seed is stored, and the thread, taken as
t0, keeps the rest. -/
def State.FloatDone (s : State) (i : Instr) (t0 : Thread) (d : Reg) (r : Nat × Fl) : Prop :=
  ∃ t, exec i s = .next t ∧ s.OnlyThread t ∧
    t.th = { t0 with
      f := t0.f.set d.toNat (BitVec.ofNat 64 r.1) d.isLt, fflags := s.th.fflags ||| r.2.flags, srseed := r.2.seed }

/-- The same of a floating instruction whose result is a general register's. -/
def State.GeneralDone (s : State) (i : Instr) (t0 : Thread) (d : Reg) (r : Word × Fl) : Prop :=
  ∃ t, exec i s = .next t ∧ s.OnlyThread t ∧
    t.th = { t0 with g := t.th.g, fflags := s.th.fflags ||| r.2.flags, srseed := r.2.seed } ∧
    ∀ q, t.g q = if q = d ∧ q ≠ 0 then r.1 else s.g q

/-- FPX in place of an effect (R120): precisely, with the flags in tval. -/
def State.Fpx (s : State) (i : Instr) (flags : BitVec 6) : Prop := s.Traps i { cause := 0x08, taddr := 0, tval := flags.setWidth 64 }

/-- A floating instruction's end (R120): FPX where it raised a flag that is enabled; otherwise it completes. -/
def State.FloatOut (s : State) (i : Instr) (t0 : Thread) (d : Reg) (r : Nat × Fl) : Prop :=
  (r.2.flags &&& s.th.fenable ≠ 0 → s.Fpx i r.2.flags) ∧ (r.2.flags &&& s.th.fenable = 0 → s.FloatDone i t0 d r)

/-- The same of a floating instruction whose result is a general register's. -/
def State.GeneralOut (s : State) (i : Instr) (t0 : Thread) (d : Reg) (r : Word × Fl) : Prop :=
  (r.2.flags &&& s.th.fenable ≠ 0 → s.Fpx i r.2.flags) ∧ (r.2.flags &&& s.th.fenable = 0 → s.GeneralDone i t0 d r)

/-- What an instruction does with the outcome of its checked access: a trap or a wait is its own and leaves nothing else of the thread
changed; otherwise it completes with what it makes of the result. -/
def State.Accesses {α : Type} (s : State) (i : Instr) (r : Res α) (k : State → α → State) : Prop :=
  (∀ u x, r = .ok u x → exec i s = .next (k u x)) ∧
  (∀ u x, r = .trap u x → exec i s = .next ((u.setTh (u.thBefore s)).raise x)) ∧
  (∀ u w, r = .wait u w → exec i s = .next ((u.setTh (u.thBefore s)).waitOn w)) ∧
  (∀ f, r = .stop f → exec i s = .fault f)

end Sys2Proof.Machine
end

