-- ==== Sys2Proof/Certificates/Slice0/Obligations.lean ====
section
/-! DEFINITION. The statements for the provers. -/

open Sys2Proof Sys2Proof.Machine

/-! ### Encodings, steps and the whole machine (spec/03_encoding.md, spec/04_integer_control.md) -/

/-- A function's vector v has been signalled between f and g (R393): a message, or its pending bit while its table entry masks it
(R391, log 56). -/
def Says.Signals (f g : Func) (v : Nat) : Prop :=
  let masked : Prop := (f.msix.get (16 * v + 12)).getLsbD 0 = true
  (masked → g.pend.getLsbD v = true) ∧ (¬masked → g.pend.getLsbD v = false ∧ Map.getD g.sent v 0 = Map.getD f.sent v 0 + 1)

/-- Words that the spec writes out decode to the instructions it gives for them, at least one of every class of opcodes (R66 to R92); a
word of ones is unassigned. -/
def Obligations.DecodeWords : Prop :=
  let words : List (BitVec 32 × Instr) := [
    (0x800A6380, .add 5 6 7), (0x900A00F8, .addi 5 0 248), (0x910A5030, .slli 5 5 48),
    (0xD0941FFC, .bne 5 0 0x1FFC), (0xD6403002, .lpseti .l1 3 2), (0xC28A6002, .std 5 6 2),
    (0xC40A6241, .ldaq .w64 .acq .clu 5 6), (0xC48E96D1, .amoadd .w64 .ar .dev 7 8 9), (0xC7400900, .fence .sc .sys),
    (0xC8033002, .vld 3 6 2), (0xAC204221, .fma .w64 .rne 4 1 1 2), (0x244A6002, .fcvt .w32 .rne true 5 6),
    (0x70400511, .fmtp .fp32 .fp32 .e4m3), (0xE5C8A000, .strcfg 0 4 10), (0xE4AA8000, .cpy 21 8),
    (0xE6829000, .tcfg 1 9), (0xEA401080, .qapp .rne 0 1 1 0), (0xE9026200, .acst 1 6 4),
    (0xE0542A81, .putb 2 21 10 1), (0xE14C0385, .waitc 6 7 5), (0xE28A0003, .bararr 5 3),
    (0xE34A6000, .launch 5 6), (0xF3145381, .grant 10 5 7 1), (0xF181600A, .csrw 0 10 22),
    (0xF0C00000, .rett)]
  (∀ e ∈ words, decode e.1 = .ok e.2) ∧ decode 0xFFFFFFFF = .error .unassigned

/-- Every well-formed instruction with an encoding reads back from its word, with either L bit and every operand that the encoding
admits (R66 to R92). -/
def Obligations.DecodeOfEncode : Prop := ∀ (i : Instr) (l : Nat) (w : BitVec 32), l ≤ 1 → i.wf = true → encode l i = some w → decode w = .ok i

/-- Every word that decodes stands for one instruction, which is well-formed and encodes to that word with its own L bit: no word has a
second reading and no bit of it is ignored (R66, R86). -/
def Obligations.EncodeOfDecode : Prop := ∀ (w : BitVec 32) (i : Instr), decode w = .ok i →
  i.wf = true ∧ encode (if w.getLsbD 31 then 1 else 0) i = some w

/-- A step runs the decoded instruction (R67, R111). With no turn given from outside, nothing due, the engines idle and a current thread that
goes on and has no report to take, step fetches the word at its pc; where that is a lone word that decodes, that the thread's mode and
registers do not make illegal, and no prefix stands in its way, step is exec of it in the state at its core's cycle, then the choice of
the next PC, the context's progress if the step completed, and the clock. That the device's own steps come first is the model's choice
(log 1). -/
def Obligations.StepRunsDecoded : Prop := ∀ (s s1 : State) (w : BitVec 32) (i : Instr),
  let s0 := { s.lead with iss := {} }
  let pc := s0.th.pc
  let b := s1.begin w false s1.th.pc (s1.th.pc + 4)
  s.turns = [] → s.owed = none → s.firstStep s.dueSteps = none → s.enginesBusy = false → s.goesOn = true →
  s.lead.reportDue s.lead.cur.1 s.lead.cur.2 = false →
  s0.fetchWord s0.cur.1 s0.th.sLevel pc = .ok s1 w → w.getLsbD 31 = true → decode w = .ok i → b.illegal i = false →
  b.prefixFault i = none →
    (∀ r, exec i b = .next r →
      let r' := r.setTh (r.th.advance r.iss.disp r.iss.next)
      step s = .next (if r.completed then r'.progress (r'.ownerOf r'.cur.1) else r').clock) ∧
    (∀ f, exec i b = .fault f → step s = .fault f)

/-- A pair (R67 to R72). The checks come in order: slot C's class and slot A's class (ILLBUN); slot C's word and then slot A's, where a
word has no meaning, has L = 1 in slot A, or is made illegal by the thread's mode or registers (ILLINS), whatever prefix is pending; a
pending prefix that slot C does not admit, or an FMTP in slot C whose slot A is no consumer or does not admit its formats (ILLPFX); their
registers (ILLBUN). No instruction has run then. A lone word that does not admit the pending prefix traps alike. Both slots read the registers
as they stood before the step; where neither traps nor waits, each register is what slot A made of it if slot A changed it, and else what
slot C did, and the next PC is chosen as slot C says. Where slot C traps, slot A has no effect; where slot A traps or waits, the pair has
none but that, the records outside the thread that the access left, and the cuts that its core took, excepted. -/
def Obligations.Pairs : Prop := ∀ (s : State) (w wa : BitVec 32) (c a : Instr) (r q : State),
  let pc := s.th.pc
  let b := s.begin w false pc (pc + 8)
  let bA := s.begin wa true (pc + 4) (pc + 8)
  let inA := (r.setTh ((r.thBefore s).forSlotA r.th none)).begin wa true (pc + 4) (pc + 8)
  let trap (code : Word) (x : BitVec 32) (addr : Word) (high : Nat) : TrapInfo :=
    { cause := code, taddr := addr, tval := BitVec.ofNat 64 (high + x.toNat) }
  let legal : Prop := slotC w = true ∧ slotA wa = true ∧ decode w = .ok c ∧ b.illegal c = false
  (s.th.wait = .none →
    (slotC w = false → s.runPair w wa = .next (b.raise (trap 0x02 w pc 0))) ∧
    (slotC w = true → slotA wa = false → s.runPair w wa = .next (bA.raise (trap 0x02 wa (pc + 4) (2 ^ 32)))) ∧
    (slotC w = true → slotA wa = true → (∀ i, decode w = .ok i → b.illegal i = true) → s.runPair w wa = .next (b.raise (trap 0x01 w pc 0))) ∧
    (legal → wa.getLsbD 31 = true ∨ (∀ i, decode wa ≠ .ok i) →
      s.runPair w wa = .next (bA.raise (trap 0x01 wa (pc + 4) (2 ^ 32)))) ∧
    (legal → decode wa = .ok a → wa.getLsbD 31 = false →
      (∀ f, s.pending = some f → (∀ r, pfxRule c = some r → r.admits f = false) →
        s.runPair w wa = .next (b.raise (trap 0x03 w pc 0))) ∧
      (∀ f, s.pending = none → fmtpOf c = some f → (∀ r, pfxRule a = some r → r.admits f = false) →
        s.runPair w wa = .next (bA.raise (trap 0x03 wa (pc + 4) (2 ^ 32)))) ∧
      (s.pending = none → fmtpOf c = none → s.th.conflict c a = true →
        s.runPair w wa = .next (bA.raise (trap 0x02 wa (pc + 4) (2 ^ 32))))) ∧
    (let lone := s.begin w false pc (pc + 4)
     ∀ f, decode w = .ok c → lone.illegal c = false → s.pending = some f → (∀ r, pfxRule c = some r → r.admits f = false) →
      s.runLone w = .next (lone.raise (trap 0x03 w pc 0)))) ∧
  (fmtpOf c = none → afterStep c = false → exec c s = .next r →
    (r.iss.trap ≠ none → s.runSlots c a wa = .next r) ∧
    (r.iss.trap = none → r.iss.disp ≠ .stay → exec a inA = .next q →
      (∀ x, inA.g x = s.g x ∧ inA.f x = s.f x) ∧
      (q.iss.trap = none → q.iss.disp ≠ .stay → ∃ u, s.runSlots c a wa = .next u ∧ u.iss = r.iss ∧ u.mem = q.mem ∧
        (∀ x, u.g x = if q.g x = s.g x then r.g x else q.g x) ∧ (∀ x, u.f x = if q.f x = s.f x then r.f x else q.f x)) ∧
      (s.th.wait = .none → (∀ x, q.iss.trap = some x → s.runSlots c a wa = .next (((s.keepNotes q).begin wa true (pc + 4) (pc + 8)).raise x)) ∧
        (q.iss.trap = none → q.iss.disp = .stay → s.runSlots c a wa = .next ((s.keepNotes q).waitOn q.th.wait)))))

/-- The device right after reset (R20, R22, R299, R326, R364, R368, R372, R398, R411): no context, thread, launch or function state, every
table empty but for the fuse-backed entry 0, key slot 0 alone keyed, one sub-link of each port trained and held by no function, PROMOn and
DRAINT at their reset values, memory and every scratchpad zero. DEVNUM 0 is the model's choice (log 4), and so are the values of the
translation roots, NPCFG, MXBASE, MXLIM, MXSCALE, CKBASE and FFR (log 3) and what memory reads as (log 5). -/
def Obligations.ResetState : Prop :=
  let s := State.reset
  s.cores = [] ∧ s.clusters = [] ∧ s.ctxs = [] ∧ s.launches = [] ∧ s.fns = [] ∧ s.mem = [] ∧ s.poison = [] ∧
  (∀ i, Map.getD s.dev.ttroot i 0 = 0) ∧ s.dev.tlbi = none ∧ s.dev.npcfg = 0 ∧ s.dev.mxbase = 0 ∧ s.dev.mxlim = 0 ∧ s.dev.mxscale = 0 ∧
  s.dev.ckbase = 0 ∧ (∀ i, Map.getD s.dev.ffr i 0 = 0) ∧ (∀ i, s.promoInterval i = 0x100000) ∧ s.dev.draint = 0x100000 ∧
  s.dev.devnum = 0 ∧ (∀ c, s.core c = {}) ∧ (∀ c a, (s.core c).spad.get a = 0) ∧ (∀ a, s.mem.get a = 0) ∧
  (∀ x, (Map.getD s.hub.vtab x {}).kind = if x = 0 then 3 else 0) ∧ s.hub.cmdQ = [] ∧ s.hub.secQ = [] ∧ s.hub.msgs = [] ∧
  s.hub.ras = [] ∧ s.hub.alarm3 = false ∧ s.hub.booting = false ∧ s.turns = [] ∧
  s.hub.seen = [] ∧ (∀ x, (Map.find? s.hub.slotKeys x).isSome = decide (x = 0)) ∧
  (∀ l, (Map.find? s.hub.links l).isSome = decide (l % 4 = 0 ∧ l < 72)) ∧
  (∀ e ∈ s.hub.links, e.2.up = true ∧ e.2.owner = none ∧ e.2.rxSeq = 0 ∧ e.2.txSeq = 0 ∧ e.2.replay = [])

/-- The memory after reset is in canonical form. -/
def Obligations.ResetMemoryCanonical : Prop := State.reset.memOk

/-- Every step keeps the memory in canonical form: addresses strictly rising, no entry equal to what an unlisted address reads as. -/
def Obligations.MemoryCanonical : Prop := ∀ s s', s.memOk → step s = .next s' → s'.memOk

/-! ### Integer instructions (spec/04_integer_control.md) -/

/-- R95. Each arithmetic, logic, shift, compare and bit instruction completes and writes to gd, of the values a of ga and b of gb
before the step, what the table gives: sums, differences and products modulo 2^64, logic, shifts and rotations bit by bit, the upper
product halves, minima and maxima, comparisons, the selection by the old gd, and the counts and reversals of bits and bytes. Nothing
else changes, and a write of g0 is discarded. -/
def Obligations.IntegerR95 : Prop := ∀ (s : State) (d ra rb : Reg) (sh : BitVec 3),
  let a := s.g ra
  let b := s.g rb
  let n := b.toNat % 64
  s.GivesG (.add d ra rb) d (fun x => x.toNat = (a.toNat + b.toNat) % 2 ^ 64) ∧
  s.GivesG (.sub d ra rb) d (fun x => (x.toNat + b.toNat) % 2 ^ 64 = a.toNat) ∧
  s.GivesG (.and d ra rb) d (fun x => ∀ i < 64, x.getLsbD i = (a.getLsbD i && b.getLsbD i)) ∧
  s.GivesG (.or d ra rb) d (fun x => ∀ i < 64, x.getLsbD i = (a.getLsbD i || b.getLsbD i)) ∧
  s.GivesG (.xor d ra rb) d (fun x => ∀ i < 64, x.getLsbD i = (a.getLsbD i ^^ b.getLsbD i)) ∧
  s.GivesG (.andn d ra rb) d (fun x => ∀ i < 64, x.getLsbD i = (a.getLsbD i && !b.getLsbD i)) ∧
  s.GivesG (.sll d ra rb) d (fun x => ∀ i < 64, x.getLsbD i = (decide (n ≤ i) && a.getLsbD (i - n))) ∧
  s.GivesG (.srl d ra rb) d (fun x => ∀ i < 64, x.getLsbD i = (decide (i + n < 64) && a.getLsbD (i + n))) ∧
  s.GivesG (.sra d ra rb) d (fun x => ∀ i < 64, x.getLsbD i = if i + n < 64 then a.getLsbD (i + n) else a.getLsbD 63) ∧
  s.GivesG (.rol d ra rb) d (fun x => ∀ i < 64, x.getLsbD ((i + n) % 64) = a.getLsbD i) ∧
  s.GivesG (.ror d ra rb) d (fun x => ∀ i < 64, x.getLsbD i = a.getLsbD ((i + n) % 64)) ∧
  s.GivesG (.mul d ra rb) d (fun x => x.toNat = a.toNat * b.toNat % 2 ^ 64) ∧
  s.GivesG (.mulh d ra rb) d (fun x => x.toInt = a.toInt * b.toInt / 2 ^ 64) ∧
  s.GivesG (.mulhu d ra rb) d (fun x => x.toNat = a.toNat * b.toNat / 2 ^ 64) ∧
  s.GivesG (.min d ra rb) d (fun x => x.toInt = min a.toInt b.toInt) ∧
  s.GivesG (.max d ra rb) d (fun x => x.toInt = max a.toInt b.toInt) ∧
  s.GivesG (.minu d ra rb) d (fun x => x.toNat = min a.toNat b.toNat) ∧
  s.GivesG (.maxu d ra rb) d (fun x => x.toNat = max a.toNat b.toNat) ∧
  s.PutsG (.seq d ra rb) d (if a = b then 1 else 0) ∧
  s.PutsG (.slt d ra rb) d (if a.toInt < b.toInt then 1 else 0) ∧
  s.PutsG (.sltu d ra rb) d (if a.toNat < b.toNat then 1 else 0) ∧
  s.PutsG (.sel d ra rb) d (if s.g d ≠ 0 then a else b) ∧
  s.GivesG (.clz d ra) d (fun x => x.toNat ≤ 64 ∧ (∀ i < x.toNat, a.getLsbD (63 - i) = false) ∧
    (x.toNat < 64 → a.getLsbD (63 - x.toNat) = true)) ∧
  s.GivesG (.ctz d ra) d (fun x => x.toNat ≤ 64 ∧ (∀ i < x.toNat, a.getLsbD i = false) ∧
    (x.toNat < 64 → a.getLsbD x.toNat = true)) ∧
  s.GivesG (.popc d ra) d (fun x => x.toNat = (List.range 64).countP (fun i => a.getLsbD i)) ∧
  s.GivesG (.brev d ra) d (fun x => ∀ i < 64, x.getLsbD i = a.getLsbD (63 - i)) ∧
  s.GivesG (.bswap d ra) d (fun x => ∀ i < 8, x.extractLsb' (8 * i) 8 = a.extractLsb' (8 * (7 - i)) 8) ∧
  s.GivesG (.shadd d ra rb sh) d (fun x => x.toNat = (a.toNat * 2 ^ sh.toNat + b.toNat) % 2 ^ 64)

/-- R96. DIV, DIVU, REM and REMU complete with every divisor: all ones or the dividend for a zero divisor, the dividend or zero in the
one overflow, and otherwise the quotient truncated toward zero and the remainder that belongs to it, whose sign is the dividend's. -/
def Obligations.DivideR96 : Prop := ∀ (s : State) (d ra rb : Reg),
  let a := s.g ra
  let b := s.g rb
  s.GivesG (.div d ra rb) d (fun x =>
    if b = 0 then x = 0xFFFF_FFFF_FFFF_FFFF
    else if a = 0x8000_0000_0000_0000 ∧ b.toInt = -1 then x = a
    else x.toInt = a.toInt.tdiv b.toInt) ∧
  s.GivesG (.divu d ra rb) d (fun x => if b = 0 then x = 0xFFFF_FFFF_FFFF_FFFF else x.toNat = a.toNat / b.toNat) ∧
  s.GivesG (.rem d ra rb) d (fun x =>
    (if b = 0 then x = a
    else if a = 0x8000_0000_0000_0000 ∧ b.toInt = -1 then x = 0
    else x.toInt = a.toInt - b.toInt * a.toInt.tdiv b.toInt) ∧ (x ≠ 0 → (x.toInt < 0 ↔ a.toInt < 0))) ∧
  s.GivesG (.remu d ra rb) d (fun x => if b = 0 then x = a else x.toNat = a.toNat % b.toNat)

/-- R97. The word instructions write the 32-bit result of the low halves of their sources, sign-extended to 64 bits; bits 63:32 of the
sources are ignored. -/
def Obligations.WordR97 : Prop := ∀ (s : State) (d ra rb : Reg),
  let a := s.g ra
  let b := s.g rb
  let p := a.toNat % 2 ^ 32
  let q := b.toNat % 2 ^ 32
  let n := b.toNat % 32
  let writes (i : Instr) (r : BitVec 32 → Prop) : Prop := s.GivesG i d (fun x => ∃ y : BitVec 32, x.toInt = y.toInt ∧ r y)
  writes (.addw d ra rb) (fun y => y.toNat = (p + q) % 2 ^ 32) ∧
  writes (.subw d ra rb) (fun y => (y.toNat + q) % 2 ^ 32 = p) ∧
  writes (.mulw d ra rb) (fun y => y.toNat = p * q % 2 ^ 32) ∧
  writes (.sllw d ra rb) (fun y => y.toNat = p * 2 ^ n % 2 ^ 32) ∧
  writes (.srlw d ra rb) (fun y => y.toNat = p / 2 ^ n) ∧
  writes (.sraw d ra rb) (fun y => y.toInt = (a.setWidth 32).toInt / 2 ^ n)

/-- R98. ADDV and SUBV write the exact signed sum or difference where it fits 64 bits; otherwise OVF is raised precisely, whatever gd
is, with the low 64 bits of the exact result in tval and gd unchanged (the trap's entry leaves it). -/
def Obligations.OverflowR98 : Prop := ∀ (s : State) (d ra rb : Reg),
  let a := (s.g ra).toInt
  let b := (s.g rb).toInt
  let does (i : Instr) (r : Int) : Prop :=
    if -2 ^ 63 ≤ r ∧ r ≤ 2 ^ 63 - 1 then s.GivesG i d (fun x => x.toInt = r)
    else s.Traps i { cause := 0x07, taddr := 0, tval := BitVec.ofInt 64 r }
  does (.addv d ra rb) (a + b) ∧ does (.subv d ra rb) (a - b)

/-- The immediate instructions (R99) write to gd what the table gives of a, of the sign-extended immediate and, for BFI, of the old
gd; APC adds to the whole address of its word, age included. BFX and BFI are stated for fields that lie within the word, as those of
every well-formed word do. XYA, XYR, XYR.SELF, AGEP and AGEX (R100): the window pointers with age 0x00 of the coordinates as each form reads them, SPADDR
precisely, with gd unchanged, where a coordinate or the offset lies outside, and the age byte put in and taken out. -/
def Obligations.ImmediatesAndPointers : Prop :=
  (∀ (s : State) (d ra : Reg) (imm : BitVec 12) (sh pos lenM1 : BitVec 6) (up : BitVec 17),
    let a := s.g ra
    let i := imm.toInt
    s.GivesG (.addi d ra imm) d (fun x => (x.toInt - (a.toInt + i)) % 2 ^ 64 = 0) ∧
    s.GivesG (.andi d ra imm) d (fun x => ∀ k < 64, x.getLsbD k = (a.getLsbD k && imm.getLsbD (min k 11))) ∧
    s.GivesG (.ori d ra imm) d (fun x => ∀ k < 64, x.getLsbD k = (a.getLsbD k || imm.getLsbD (min k 11))) ∧
    s.GivesG (.xori d ra imm) d (fun x => ∀ k < 64, x.getLsbD k = (a.getLsbD k ^^ imm.getLsbD (min k 11))) ∧
    s.GivesG (.slli d ra sh) d (fun x => x.toNat = a.toNat * 2 ^ sh.toNat % 2 ^ 64) ∧
    s.GivesG (.srli d ra sh) d (fun x => x.toNat = a.toNat / 2 ^ sh.toNat) ∧
    s.GivesG (.srai d ra sh) d (fun x => x.toInt = a.toInt / 2 ^ sh.toNat) ∧
    s.PutsG (.seqi d ra imm) d (if a.toInt = i then 1 else 0) ∧
    s.PutsG (.slti d ra imm) d (if a.toInt < i then 1 else 0) ∧
    s.PutsG (.sltui d ra imm) d (if a.toNat < (i % 2 ^ 64).toNat then 1 else 0) ∧
    s.GivesG (.addwi d ra imm) d (fun x =>
      ∃ y : BitVec 32, x.toInt = y.toInt ∧ (y.toInt - ((a.setWidth 32).toInt + i)) % 2 ^ 32 = 0) ∧
    ((Instr.bfx d ra pos lenM1).wf = true → s.GivesG (.bfx d ra pos lenM1) d (fun x =>
      ∀ k < 64, x.getLsbD k = (decide (k ≤ lenM1.toNat) && a.getLsbD (pos.toNat + k)))) ∧
    ((Instr.bfi d ra pos lenM1).wf = true → s.GivesG (.bfi d ra pos lenM1) d (fun x =>
      ∀ k < 64, x.getLsbD k =
        if pos.toNat ≤ k ∧ k ≤ pos.toNat + lenM1.toNat then a.getLsbD (k - pos.toNat) else (s.g d).getLsbD k)) ∧
    s.GivesG (.lui d up) d (fun x => x.toInt = up.toInt * 4096) ∧
    s.GivesG (.apc d up) d (fun x => (x.toInt - (s.iss.addr.toInt + up.toInt * 4096)) % 2 ^ 64 = 0)) ∧
  (∀ (s : State) (d ra rb : Reg),
    let a := s.g ra
    let b := s.g rb
    let x := a.toNat % 2 ^ 16
    let y := a.toNat / 2 ^ 16 % 2 ^ 16
    let sx := ((a.extractLsb' 0 16).toInt % 64).toNat
    let sy := ((a.extractLsb' 16 16).toInt % 24).toNat
    let spaddr : TrapInfo := { cause := 0x12, taddr := 0, tval := 0 }
    (if x > 63 ∨ y > 23 ∨ b.toNat ≥ 2 ^ 18 then s.Traps (.xya d ra rb) spaddr
    else s.GivesG (.xya d ra rb) d (fun p => p.toNat = 0xF8 * 2 ^ 48 + x * 2 ^ 40 + y * 2 ^ 35 + b.toNat)) ∧
    (if b.toNat ≥ 2 ^ 18 then s.Traps (.xyr d ra rb) spaddr
    else s.GivesG (.xyr d ra rb) d (fun p => p.toNat = 0xF8 * 2 ^ 48 + 2 ^ 46 + sx * 2 ^ 40 + sy * 2 ^ 35 + b.toNat)) ∧
    (if b.toNat ≥ 2 ^ 18 then s.Traps (.xyrSelf d rb) spaddr
    else s.GivesG (.xyrSelf d rb) d (fun p => p.toNat = 0xF8 * 2 ^ 48 + 2 * 2 ^ 46 + b.toNat)) ∧
    s.GivesG (.agep d ra rb) d (fun p => p.toNat = b.toNat % 2 ^ 8 * 2 ^ 56 + a.toNat % 2 ^ 56) ∧
    s.GivesG (.agex d ra) d (fun p => p.toNat = a.toNat / 2 ^ 56))


/-! ### Control flow (spec/04_integer_control.md) -/

/-- R102, R103. A branch transfers to the address of its word plus 4 × disp13 exactly when its condition holds, and changes nothing
else; JMP always transfers, to its word plus 4 × disp23. -/
def Obligations.Branches : Prop := ∀ (s : State) (ra rb : Reg) (disp : BitVec 13) (far : BitVec 23),
  let a := s.g ra
  let b := s.g rb
  let goes (i : Instr) (c : Prop) : Prop :=
    (c → exec i s = .next (s.setDisp (.xfer (s.iss.addr + BitVec.ofInt 64 (4 * disp.toInt))))) ∧ (¬c → exec i s = .next s)
  goes (.beq ra rb disp) (a = b) ∧ goes (.bne ra rb disp) (a ≠ b) ∧
  goes (.blt ra rb disp) (a.toInt < b.toInt) ∧ goes (.bge ra rb disp) (a.toInt ≥ b.toInt) ∧
  goes (.bltu ra rb disp) (a.toNat < b.toNat) ∧ goes (.bgeu ra rb disp) (a.toNat ≥ b.toNat) ∧
  exec (.jmp far) s = .next (s.setDisp (.xfer (s.iss.addr + BitVec.ofInt 64 (4 * far.toInt))))

/-- R103, R104. CALL writes g1 with the address after its step and transfers; RET transfers to g1, or raises IALIGN precisely where g1
is not a multiple of 4. JTAB (R106, R107), with the result of each of its reads named: ALIGN on the table pointer; JBOUND for a header with reserved bits or
an index outside; LPADX for a misaligned target or a landing word that is not an LPAD with the header's label; else the transfer. A
trap or a wait of either table read or of the landing fetch is JTAB's. Where table and target lie in scratchpads of the domain, none of their lines poisoned, in an unprotected context
whose core holds no line and nothing unfenced, a good index and landing transfer. -/
def Obligations.CallsAndTables : Prop :=
  (∀ (s : State) (far : BitVec 23),
    (∃ t, exec (.call far) s = .next (t.setDisp (.xfer (s.iss.addr + BitVec.ofInt 64 (4 * far.toInt)))) ∧ s.WritesG t 1 s.iss.next) ∧
    (if (s.g 1).toNat % 4 = 0 then exec .ret s = .next (s.setDisp (.xfer (s.g 1)))
    else s.Traps .ret { cause := 0x09, taddr := 0, tval := 0 })) ∧
  (∀ (s : State) (ra rb : Reg),
    let p := s.g ra
    let i := s.g rb
    let traps (u : State) (x : TrapInfo) : Prop := exec (.jtab ra rb) s = .next ((u.setTh (u.thBefore s)).raise x)
    let waits (u : State) (x : Wait) : Prop := exec (.jtab ra rb) s = .next ((u.setTh (u.thBefore s)).waitOn x)
    (p.toNat % 8 ≠ 0 → traps s { cause := 0x10, taddr := p, tval := 1 }) ∧
    (p.toNat % 8 = 0 → ∀ u, (∀ x, s.readMem p 8 false = .trap u x → traps u x) ∧ (∀ x, s.readMem p 8 false = .wait u x → waits u x)) ∧
    (p.toNat % 8 = 0 → ∀ s1 hb, s.readMem p 8 false = .ok s1 hb →
      let h := zext hb
      let label := h.extractLsb' 32 20
      let outside := h.toNat / 2 ^ 52 ≠ 0 ∨ i.toNat ≥ h.toNat % 2 ^ 32
      (outside → traps s1 { cause := 0x0A, taddr := 0, tval := i }) ∧
      (¬outside → ∀ u, (∀ x, s1.readMem (p + 8 + 4 * i) 4 false = .trap u x → traps u x) ∧
        (∀ x, s1.readMem (p + 8 + 4 * i) 4 false = .wait u x → waits u x)) ∧
      (¬outside → ∀ s2 eb, s1.readMem (p + 8 + 4 * i) 4 false = .ok s2 eb →
        let t := p + 4 * sext 4 eb
        (t.toNat % 8 ≠ 0 → traps s2 { cause := 0x0B, taddr := t, tval := 0 }) ∧
        (t.toNat % 8 = 0 → ∀ u, (∀ x, s2.fetchWord s2.cur.1 s2.th.sLevel t = .trap u x → traps u x) ∧
          (∀ x, s2.fetchWord s2.cur.1 s2.th.sLevel t = .wait u x → waits u x)) ∧
        (t.toNat % 8 = 0 → ∀ s3 w, s2.fetchWord s2.cur.1 s2.th.sLevel t = .ok s3 w →
          (decode w = .ok (.lpad label) → exec (.jtab ra rb) s = .next (s3.setDisp (.xfer t))) ∧
          (decode w ≠ .ok (.lpad label) → traps s3 { cause := 0x0B, taddr := t, tval := w.setWidth 64 }))))) ∧
  (∀ (s : State) (ra rb : Reg) (c c' c'' off off' off'' : Nat) (label : BitVec 20),
    let p := s.g ra
    let i := s.g rb
    let near (x : Word) (c off : Nat) : Prop := x.toNat / 2 ^ 48 % 256 = 0xF8 ∧ s.spadTarget s.cur.1 x = some (c, off) ∧
      off / 64 ∉ (s.core c).spadPoison
    let h := (s.core c).spad.le off 8
    let t := p + 4 * BitVec.ofInt 64 (BitVec.ofNat 32 ((s.core c').spad.le off' 4)).toInt
    p.toNat % 8 = 0 → near p c off → near (p + 8 + 4 * i) c' off' → t.toNat % 8 = 0 → near (t - BitVec.ofNat 64 (t.toNat % 128)) c'' off'' →
    (off'' + 64) / 64 ∉ (s.core c'').spadPoison → s.cpu.icache = [] → s.cpu.unfenced = [] → (s.ctx (s.ownerOf s.cur.1)).prot = false →
    h / 2 ^ 52 = 0 → i.toNat < h % 2 ^ 32 → label.toNat = h / 2 ^ 32 % 2 ^ 20 →
    decode (BitVec.ofNat 32 ((s.core c'').spad.le (off'' + t.toNat % 128) 4)) = .ok (.lpad label) →
    ∃ u : State, exec (.jtab ra rb) s = .next (u.setDisp (.xfer t)) ∧ u.mem = s.mem ∧ u.th = s.th)

/-- LPSET and LPSETI (R109, R110), where the step ends at `start` and the body's last bundle stands at `last`: ILLBUN and LPNEST
precisely; else the loop's registers are set, the other loop's are not, and the PC is the body's first bundle, or, with a count of
zero, where the end test after the body goes. The choice of the next PC (R111): the end test looks at the inner loop first, counts down and goes back to the body's first bundle
while iterations are left, leaves the loop at its last and then looks at the outer loop; a transfer ends every loop whose body does not
hold the target and makes no end test. -/
def Obligations.Loops : Prop :=
  (∀ (s : State) (n : LoopNo) (c : Reg) (off : BitVec 17) (imm : BitVec 10) (offI : BitVec 12),
    let start := s.iss.next
    let sets (i : Instr) (count : Word) (off : Nat) : Prop :=
      let last := start + BitVec.ofNat 64 (4 * off)
      let nested : Prop := (n = .l0 ∧ s.th.la .l1 = true) ∨
        (n = .l1 ∧ s.th.la .l0 = true ∧ (start.toNat < s.th.loops.ls0.toNat ∨ last.toNat > s.th.loops.le0.toNat))
      if start.toNat % 8 ≠ 0 then
        s.Traps i { cause := 0x02, taddr := s.iss.addr, tval := BitVec.ofNat 64 ((if s.iss.slotA then 2 ^ 32 else 0) + s.iss.word.toNat) }
      else if nested then s.Traps i { cause := 0x0C, taddr := 0, tval := 0 }
      else ∃ t : Thread,
        t.loops.ls n = start ∧ t.loops.le n = last ∧ t.loops.lc n = count ∧ t.la n = decide (count ≠ 0) ∧
        (∀ m, m ≠ n → t.loops.ls m = s.th.loops.ls m ∧ t.loops.le m = s.th.loops.le m ∧ t.loops.lc m = s.th.loops.lc m) ∧
        t = { s.th.setLa n (decide (count ≠ 0)) with loops := t.loops } ∧
        exec i s = .next (if count = 0 then (s.setTh (endTest t (last + 8)).1).setDisp (.goto (endTest t (last + 8)).2)
          else (s.setTh t).setDisp (.goto start))
    ((Instr.lpset n c off).wf = true → sets (.lpset n c off) (s.g c) off.toNat) ∧
    ((Instr.lpseti n imm offI).wf = true → sets (.lpseti n imm offI) (imm.setWidth 64) offI.toNat)) ∧
  (∀ (t : Thread) (next a : Word),
    let l := t.loops
    let at1 : Prop := t.la .l1 = true ∧ next = l.le1 + 8
    let at0 : Prop := t.la .l0 = true ∧ next = l.le0 + 8
    let out1 : Thread := { t.setLa .l1 false with loops := { l with lc1 := 0 } }
    (at1 → 1 < l.lc1.toNat → t.advance .seq next = { t with loops := { l with lc1 := l.lc1 - 1 }, pc := l.ls1 }) ∧
    (at1 → l.lc1.toNat ≤ 1 → at0 → 1 < l.lc0.toNat →
      t.advance .seq next = { out1 with loops := { l with lc1 := 0, lc0 := l.lc0 - 1 }, pc := l.ls0 }) ∧
    (at1 → l.lc1.toNat ≤ 1 → at0 → l.lc0.toNat ≤ 1 →
      t.advance .seq next = { out1.setLa .l0 false with loops := { l with lc1 := 0, lc0 := 0 }, pc := next }) ∧
    (at1 → l.lc1.toNat ≤ 1 → ¬at0 → t.advance .seq next = { out1 with pc := next }) ∧
    (¬at1 → at0 → 1 < l.lc0.toNat → t.advance .seq next = { t with loops := { l with lc0 := l.lc0 - 1 }, pc := l.ls0 }) ∧
    (¬at1 → at0 → l.lc0.toNat ≤ 1 → t.advance .seq next = { t.setLa .l0 false with loops := { l with lc0 := 0 }, pc := next }) ∧
    (¬at1 → ¬at0 → t.advance .seq next = { t with pc := next }) ∧
    (∀ n, let u := t.advance (.xfer a) next
      u.pc = a ∧ u.loops = l ∧
      (u.la n = true ↔ t.la n = true ∧ (l.ls n).toNat ≤ a.toNat ∧ a.toNat < (l.le n + 8).toNat) ∧
      ({ u with pc := t.pc, status := t.status } = t) ∧
      ∀ k < 64, k ≠ 2 → k ≠ 3 → u.status.getLsbD k = t.status.getLsbD k))

/-- R112, and what clearing LAN means: LPOFF.N clears LAN and leaves every other bit of status, the loop registers and everything else
of the thread; a step that stood in the last bundle of that loop alone then goes on after the body. -/
def Obligations.LoopOffR112 : Prop := ∀ (s : State) (n : LoopNo), ∃ t,
  exec (.lpoff n) s = .next t ∧ s.OnlyThread t ∧ t.th = { s.th with status := t.th.status } ∧ t.th.la n = false ∧
  (∀ k < 64, k ≠ (match n with | .l0 => 2 | .l1 => 3) → t.th.status.getLsbD k = s.th.status.getLsbD k) ∧
  t.th.loops = s.th.loops ∧
  ∀ next : Word, next = s.th.loops.le n + 8 → (∀ m, m ≠ n → t.th.la m = false) → (t.th.advance .seq next).pc = next

/-- LPAD and NOP complete with no effect but the PC's advance (R91, R108). FMTP as a lone word writes PP and its codes into PF for the next
step (R87), or raises ILLPFX precisely where a prefix is pending (R88). DONE ends the thread after its step (R115), once slot A's vector
operation has completed (R223): it leaves the live set, its ports stop, what it holds in its inbox goes, and no failure is recorded; a vote
it has given to the open phase stays counted (R184). -/
def Obligations.EndsAndNops : Prop := ∀ (s : State) (label : BitVec 20) (f1 f2 fd : Fmt),
  exec (.lpad label) s = .next s ∧ exec .nop s = .next s ∧
  (s.th.pp = true → s.Traps (.fmtp f1 f2 fd) (s.badWord .illpfx)) ∧
  (s.th.pp = false → ∃ t, exec (.fmtp f1 f2 fd) s = .next t ∧ s.OnlyThread t ∧ t.th = { s.th with status := t.th.status } ∧
    t.th.pp = true ∧ t.th.pf.toNat = f1.code.toNat + 16 * f2.code.toNat + 256 * fd.code.toNat ∧
    ∀ k < 64, k < 4 ∨ 17 ≤ k → t.th.status.getLsbD k = s.th.status.getLsbD k) ∧
  (s.cpu.vecBusy s.cur.2 = true → exec .done s = .next (s.waitOn .ending)) ∧
  (s.cpu.vecBusy s.cur.2 = false → ∃ t, exec .done s = .next t ∧ t.iss = { s.iss with disp := .stay } ∧ t.launches = s.launches ∧ t.mem = s.mem ∧
    t.th = { s.th with
      live := false, ports := .replicate 4 {}, wait := .none, reports := [], stopped := false, trapDue := false
      cbarArrived := false, cbarDone := false, vote := none, phaseRes := none } ∧ s.SameOthers t ∧
    t.cpu.inbox = s.cpu.inbox.filter (fun e => e.slot != s.cur.2) ∧ t.cpu.resv = s.cpu.resv.filter (fun e => e.1 != s.cur.2) ∧
    t.cpu.endedOr = s.cpu.endedOr ||| s.th.vote.getD 0 ∧ t.cpu.endedSum = s.cpu.endedSum + s.th.vote.getD 0)

/-! ### Traps (spec/01_machine_state.md R14; spec/08_system_traps_rights.md R198 to R204) -/

/-- Trap entry and its routing (R14, R199). A trap that arises inside a trap, or that reaches no vector, ends the thread with its cause,
DBL set in the first case. Any other goes to uvec at level U, where it arises at U, its cause routes to U (all but EBRK, PFAULT and
POISON do, R198) and uvec is not zero, and else to tvec at level S: the loop registers and status go into the trap frame; LA0, LA1, PP
and PF are cleared, IT is set and PL is the level; the trap registers are written; execution continues at the vector with bits 2:0
zero; nothing else changes. -/
def Obligations.TrapEntry : Prop := ∀ (s : State) (i : TrapInfo) (tpc : Word),
  let t := s.th
  let u := s.takeTrap i tpc
  let code := i.cause.toNat % 256
  let toU : Prop := t.sLevel = false ∧ code ≠ 0x06 ∧ code ≠ 0x13 ∧ code ≠ 0x16 ∧ t.tr.uvec ≠ 0
  let ends (x : Word) : Prop := u = { s with iss := u.iss }.endThread s.cur.1 s.cur.2 (some x) ∧ u.iss.disp = .stay
  let enters (sLevel : Bool) (vec : Word) : Prop :=
    u.th = { t with
      tr := { t.tr with
        tfLoops := t.loops, tfStatus := t.status, tcause := i.cause, taddr := i.taddr, tpc := tpc, tval := i.tval }
      status := u.th.status } ∧
    (∀ k < 64, u.th.status.getLsbD k =
      if k = 0 then sLevel else if k = 1 then true else if k < 17 then false else t.status.getLsbD k) ∧
    u.iss.disp = .goto (vec &&& ~~~7) ∧ s.OnlyThread { u with iss := s.iss }
  u.iss = { s.iss with disp := u.iss.disp, trap := some i } ∧
  (t.inTrap = true → ends (i.cause ||| 0x400)) ∧
  (t.inTrap = false → toU → enters false t.tr.uvec) ∧
  (t.inTrap = false → ¬toU → t.tr.tvec ≠ 0 → enters true t.tr.tvec) ∧
  (t.inTrap = false → ¬toU → t.tr.tvec = 0 → ends i.cause)

/-- TRAP completes its step, end test or transfer included, and takes the trap at the PC that gives, with its number in tval (R202), once
a vector operation that slot A has queued has completed (R223, log 9); EBRK is precise (R203). RETT (R204) outside a trap raises ILLINS; inside one it restores the loop registers, whose addresses have bits 2:0 zero (R11), and the whole of
status from the trap frame and continues at tpc with no end test, and changes nothing else. A word that is no instruction (R86): its issue raises ILLINS with the word in tval, bit 32 set for slot A, and its address in taddr;
a lone one, its own step, does so before anything else, whatever prefix is pending; so does a lone instruction that the thread's mode or
registers make illegal. -/
def Obligations.TrapInstructions : Prop :=
  (∀ (s : State) (n : BitVec 12),
    let done := s.th.advance s.iss.disp s.iss.next
    let info : TrapInfo := { cause := 0x05, taddr := 0, tval := n.setWidth 64 }
    (s.cpu.vecBusy s.cur.2 = false → exec (.trap n) s = .next ((s.setTh done).takeTrap info done.pc)) ∧
    (s.cpu.vecBusy s.cur.2 = true → exec (.trap n) s = .next ((s.setTh done).waitOn (.trapping info done.pc)) ∧
      ∀ c sl (u : State), (u.thread c sl).wait = .trapping info done.pc →
        ((u.core c).vecBusy sl = true → u.endIfLast c sl = u) ∧
        ((u.core c).vecBusy sl = false → u.endIfLast c sl = u.trapThread c sl info done.pc)) ∧
    s.Traps (.ebrk n) { cause := 0x06, taddr := 0, tval := n.setWidth 64 }) ∧
  (∀ s : State,
    let illins : TrapInfo :=
      { cause := 0x01, taddr := s.iss.addr, tval := BitVec.ofNat 64 ((if s.iss.slotA then 2 ^ 32 else 0) + s.iss.word.toNat) }
    (s.th.status.getLsbD 1 = false → s.Traps .rett illins) ∧
    (s.th.status.getLsbD 1 = true → ∃ t, exec .rett s = .next (t.setDisp (.goto s.th.tr.tpc)) ∧ s.OnlyThread t ∧
      t.th = { s.th with
        loops := { s.th.tr.tfLoops with
          ls0 := s.th.tr.tfLoops.ls0 &&& ~~~7, le0 := s.th.tr.tfLoops.le0 &&& ~~~7
          ls1 := s.th.tr.tfLoops.ls1 &&& ~~~7, le1 := s.th.tr.tfLoops.le1 &&& ~~~7 }
        status := s.th.tr.tfStatus }) ∧
    ∀ t : Thread, ∀ next, t.advance (.goto s.th.tr.tpc) next = { t with pc := s.th.tr.tpc }) ∧
  (∀ (s : State) (w : BitVec 32),
    s.Traps (.unassignedOpcode w)
      { cause := 0x01, taddr := s.iss.addr, tval := BitVec.ofNat 64 ((if s.iss.slotA then 2 ^ 32 else 0) + w.toNat) } ∧
    ((∀ i, decode w = .ok i → (s.begin w false s.th.pc (s.th.pc + 4)).illegal i = true) → s.th.wait = .none →
      s.runLone w = .next ((s.begin w false s.th.pc (s.th.pc + 4)).raise
        { cause := 0x01, taddr := s.th.pc, tval := BitVec.ofNat 64 w.toNat })))


/-! ### Special registers, locked lines and rights (spec/01_machine_state.md, spec/08_system_traps_rights.md,
spec/17_rights_hardware.md) -/

/-- Control and status registers (R20, R21, R205). Numbers 0x100 to 0x2FF raise PRIV at U level, an unassigned number ILLINS. CSRR reads;
CSRW, and CSRS and CSRC but with g0, also write: gd takes the old value, and a register that is read-only raises ILLINS. A written register
keeps the bits that the level may not write, reads zero in those that do not exist, and a seed of 0 becomes 1; no other register but its
second name changes. -/
def Obligations.SpecialRegisters : Prop := ∀ (s : State) (d a : Reg) (csr : BitVec 12),
  let n := csr.toNat
  let t := s.th
  let denied : Prop := 0x100 ≤ n ∧ n ≤ 0x2FF ∧ t.status.getLsbD 0 = false
  let all (x : TrapInfo) : Prop := s.Traps (.csrw d csr a) x ∧ (a ≠ 0 → s.Traps (.csrs d csr a) x ∧ s.Traps (.csrc d csr a) x)
  let any (x : TrapInfo) : Prop := s.Traps (.csrr d csr) x ∧ s.Traps (.csrw d csr a) x ∧ s.Traps (.csrs d csr a) x ∧
    s.Traps (.csrc d csr a) x
  let writable : Prop := n ≤ 0x1E ∨ (0x100 ≤ n ∧ n ≤ 0x104)
  let kept : Word := if n = 0x003 then (if t.sLevel then ~~~0x9FFFF else ~~~0x1FFFC)
    else if n = 0x01E then (if t.sLevel then ~~~0x9FFFF else ~~~0x1FFFE)
    else if n = 0x008 ∨ n = 0x100 then ~~~0x3FF else 0
  let there : Word := if n ≤ 0x001 then 0x3F else if n = 0x002 then 0xFFFFFFFF
    else if n ∈ [0x004, 0x011, 0x012, 0x014, 0x015, 0x104] then ~~~7
    else if n = 0x00A ∨ n = 0x102 then ~~~3 else -1
  let value (old x : Word) : Word := if n = 0x002 ∧ x &&& there = 0 then 1 else (old &&& kept) ||| (x &&& there &&& ~~~kept)
  let twin (m : Nat) : Prop := m = n ∨ (0x008 ≤ m ∧ m ≤ 0x00B ∧ n = m + 0xF8) ∨ (0x008 ≤ n ∧ n ≤ 0x00B ∧ m = n + 0xF8)
  let writes (i : Instr) (old x : Word) : Prop := ∃ u, exec i s = .next u ∧ s.OnlyThread u ∧ u.csr n = some (value old x) ∧
    (∀ m, ¬twin m → u.csr m = s.csr m) ∧ (∀ r, u.g r = if r = d ∧ r ≠ 0 then old else s.g r) ∧
    u.th = { t with g := u.th.g, fflags := u.th.fflags, fenable := u.th.fenable, srseed := u.th.srseed, status := u.th.status,
                    tr := u.th.tr, loops := u.th.loops }
  (denied → any { cause := 0x04, taddr := 0, tval := 0 }) ∧
  (¬denied → s.csr n = none → any (s.badWord .illins)) ∧
  (∀ old, ¬denied → s.csr n = some old →
    s.PutsG (.csrr d csr) d old ∧ (a = 0 → s.PutsG (.csrs d csr a) d old ∧ s.PutsG (.csrc d csr a) d old) ∧
    (¬writable → all (s.badWord .illins)) ∧
    (writable → writes (.csrw d csr a) old (s.g a) ∧
      (a ≠ 0 → writes (.csrs d csr a) old (old ||| s.g a) ∧ writes (.csrc d csr a) old (old &&& ~~~(s.g a))))) ∧
  s.csr 0x000 = some (t.fflags.setWidth 64) ∧ s.csr 0x001 = some (t.fenable.setWidth 64) ∧ s.csr 0x002 = some (t.srseed.setWidth 64) ∧
  s.csr 0x003 = some t.status ∧ s.csr 0x004 = some t.tr.uvec ∧ s.csr 0x104 = some t.tr.tvec ∧
  s.csr 0x008 = some t.tr.tcause ∧ s.csr 0x009 = some t.tr.taddr ∧ s.csr 0x00A = some t.tr.tpc ∧ s.csr 0x00B = some t.tr.tval ∧
  s.csr 0x100 = some t.tr.tcause ∧ s.csr 0x101 = some t.tr.taddr ∧ s.csr 0x102 = some t.tr.tpc ∧ s.csr 0x103 = some t.tr.tval ∧
  s.csr 0x010 = some t.loops.lc0 ∧ s.csr 0x011 = some t.loops.ls0 ∧ s.csr 0x012 = some t.loops.le0 ∧ s.csr 0x013 = some t.loops.lc1 ∧
  s.csr 0x014 = some t.loops.ls1 ∧ s.csr 0x015 = some t.loops.le1 ∧ s.csr 0x01E = some t.tr.tfStatus ∧ s.csr 0x021 = some t.id.crew ∧
  s.csr 0x022 = some t.id.launch ∧ s.csr 0x023 = some t.id.extents ∧ s.csr 0x024 = some t.id.alloc ∧ s.csr 0x025 = some t.merged ∧
  s.csr 0x030 = some (BitVec.ofNat 64 (s.now - s.cpu.born)) ∧ s.csr 0x200 = some (BitVec.ofNat 64 (s.ownerOf s.cur.1))

/-- The instruction cache (R207 to R209, R355). IFENCE writes the core's dirty bytes, forgets what it kept from the thread's fetches, drops
every line that is not locked and fills the locked ones again; it waits where one of these has to. ILOCK raises ALIGN for a pointer that
is not 128-aligned and then the traps of its lines' checks, answers 2 to the 32 where the core would hold more than 256 locked lines, and
otherwise locks every line of its range and answers their number. IUNLK raises ALIGN and VADDR, and otherwise unlocks the lines of its
range alone, of which one that an IFENCE has still to fill again goes, and answers how many were locked; what tells lines apart is the model's choice (log 51). INSTRUCTION_FILL brings a line that
is not held into the cache and reports nothing to a thread; where it fails, only the records that its accesses have left stay (R316). With nothing dirty, no replicated write of the core queued and no locked line,
IFENCE completes at once; so does ILOCK of lines of scratchpads of the domain, in an unprotected context with room for them. -/
def Says.InstructionSteps : Prop := ∀ (s : State) (d a : Reg) (nM1 : BitVec 8),
  let p := s.g a
  let range := lockRange p nM1
  let c := s.ev.c
  let me := s.cur.1
  let aligned : Prop := p.toNat % 128 = 0
  let count := range.filter (fun q => s.lineLocked q)
  let inRange (q : Word) : Prop := ∃ r ∈ range, s.lineKey me q = s.lineKey me r
  let gone (l : ILine) : Bool := l.stale && count.any (fun q => s.lineKey me q == l.key)
  (s.th.wait ≠ .refillOk → ∀ v, s.release me .clu = .ok v () →
    let w := (v.setCpu { v.cpu with unfenced := v.cpu.unfenced.filter (fun u => u.slot != v.cur.2) }).staleIcache me (fun _ => true)
    (∀ l ∈ w.cpu.icache, l.locked = true ∧ l.stale = true) ∧
    ((∀ l ∈ v.cpu.icache, l.locked = false) →
      w.cpu.icache = [] ∧ exec .ifence s = .next (w.setTh { w.th with wait := .none }) ∧ w.mem = v.mem ∧ w.th = v.th) ∧
    (∀ u, w.refillStale me = .ok u () → exec .ifence s = .next (u.setTh { u.th with wait := .none })) ∧
    (∀ u x, w.refillStale me = .wait u x → exec .ifence s = .next ((u.setTh (u.thBefore s)).waitOn x))) ∧
  (s.th.wait ≠ .refillOk → ∀ v x, s.release me .clu = .wait v x → exec .ifence s = .next ((v.setTh (v.thBefore s)).waitOn x)) ∧
  (s.th.wait = .none → (∀ b ∈ s.cpu.l1, b.dirty = false) → (∀ w ∈ s.hub.seqQ, w.core ≠ me) → (∀ l ∈ s.cpu.icache, l.locked = false) →
    ∃ u, exec .ifence s = .next u ∧ u.cpu.icache = [] ∧ u.mem = s.mem ∧ u.th = s.th) ∧
  (aligned → (∀ q ∈ range, q.toNat / 2 ^ 48 % 256 = 0xF8 ∧ (s.spadTarget me q).isSome = true) → (s.ctx (s.ownerOf me)).prot = false →
    (s.cpu.icache.filter (·.locked)).length + range.length ≤ 256 →
    ∃ u, exec (.ilock d a nM1) s = .next u ∧ u.mem = s.mem ∧ u.g d = if d = 0 then 0 else BitVec.ofNat 64 (nM1.toNat + 1)) ∧
  (¬aligned → s.Traps (.ilock d a nM1) { cause := 0x10, taddr := p, tval := 0 } ∧
    s.Traps (.iunlk d a nM1) { cause := 0x10, taddr := p, tval := 0 }) ∧
  (aligned → ∀ u x, s.checkFetches range = .trap u x → exec (.ilock d a nM1) s = .next ((u.setTh (u.thBefore s)).raise x)) ∧
  (aligned → ∀ u, s.checkFetches range = .ok u () →
    let new := range.filter (fun q => !u.lineLocked q)
    let locked := (u.cpu.icache.filter (·.locked)).length
    (256 < locked + new.length → exec (.ilock d a nM1) s = .next (u.setG d 0x100000000)) ∧
    (locked + new.length ≤ 256 → ∀ v, (∀ ls, u.fillLines new = .ok v ls → exec (.ilock d a nM1) s =
        .next ((v.lockLines ls).setG d (BitVec.ofNat 64 (nM1.toNat + 1)))) ∧
      (∀ x, u.fillLines new = .trap v x → exec (.ilock d a nM1) s = .next ((v.setTh (v.thBefore s)).raise x)) ∧
      (∀ x, u.fillLines new = .wait v x → exec (.ilock d a nM1) s = .next ((v.setTh (v.thBefore s)).waitOn x)))) ∧
  (aligned → (∃ q ∈ range, regionOf (vaOf q) = .reserved) → s.Traps (.iunlk d a nM1) { cause := 0x11, taddr := 0, tval := 0 }) ∧
  (aligned → (∀ q ∈ range, regionOf (vaOf q) ≠ .reserved) → ∃ u, exec (.iunlk d a nM1) s = .next u ∧
    (∀ q, inRange q → u.lineLocked q = false) ∧ (∀ q, ¬inRange q → u.lineLocked q = s.lineLocked q) ∧
    u.cpu.icache.map (fun l => (l.ptr, l.key, l.bytes)) = (s.cpu.icache.filter (fun l => !gone l)).map (fun l => (l.ptr, l.key, l.bytes)) ∧
    u.g d = (if d = 0 then 0 else BitVec.ofNat 64 count.length) ∧ (∀ r, r ≠ d → u.g r = s.g r) ∧ u.mem = s.mem) ∧
  ((s.iline c s.ev.v).isSome = true → exec .instructionFill s = .next s) ∧
  ((s.iline c s.ev.v).isSome = false →
    (∀ u l, s.fill c none false s.ev.v = .ok u l → l.key < 2 ^ 56 →
      (l.tagBad = true → exec .instructionFill s = .next (u.ras 4 2 s.ev.v (s.ownerOf c))) ∧
      (l.tagBad = false → l.bad ≠ 0 → exec .instructionFill s = .next (u.noteLatent c l)) ∧
      (l.tagBad = false → l.bad = 0 → exec .instructionFill s = .next (u.putIline c l))) ∧
    (∀ u x, s.fill c none false s.ev.v = .trap u x → exec .instructionFill s = .next (s.keepRecords u)) ∧
    (∀ u x, s.fill c none false s.ev.v = .wait u x → exec .instructionFill s = .next (s.keepRecords u)))

/-- A line locked by a list of lines stays locked while the others are placed, and the instruction cache then holds it (R208): a core with
room for them in its 256 locked lines, whose lines are told apart by their places. -/
def Says.LockedLinesStay : Prop := ∀ (s : State) (ls : List ILine),
  (s.cpu.icache.filter (·.locked)).length + ls.length ≤ 256 → (s.cpu.icache.map (·.key)).Nodup →
  (∀ l ∈ ls, ∃ x ∈ (s.lockLines ls).cpu.icache, x.key = l.key ∧ x.locked = true) ∧
  (∀ l ∈ s.cpu.icache, l.locked = true → ∃ x ∈ (s.lockLines ls).cpu.icache, x.key = l.key ∧ x.locked = true) ∧
  ((s.lockLines ls).cpu.icache.filter (·.locked)).length ≤ (s.cpu.icache.filter (·.locked)).length + ls.length ∧
  (s.lockLines ls).mem = s.mem ∧ (s.lockLines ls).th = s.th

/-- IFENCE, ILOCK, IUNLK and the fill of a line; and what is locked stays. -/
def Obligations.InstructionCache : Prop := Says.InstructionSteps ∧ Says.LockedLinesStay

/-- Rights (R211 to R218, R312 to R321). GRANT, REVOKE and FREE raise VADDR and RANGE for their range, GRANT and REVOKE then RANGE for the
owner and INBOXQ; otherwise their request goes to the security core; GRANT and REVOKE take a new tag, which no request of the thread that is pending
carries, and answer it, and FREE waits. RPROBE
describes the entry that covers its pointer. GRANT_PERFORMED derives an entry for the target from each of the issuer's, or posts its
refusal. REVOCATION_CUT takes a revoked range from the target's table, or gives the root entries of a freed one the next age, and opens a
cut; CORE_CUT takes the range from a core's PLB and records the core's accesses on it that have passed their check, CUT_ACKNOWLEDGE answers
for it once these are performed and its dirty bytes of the range are written, and REVOKE_DONE and FREE_RESULT report once every core
has. -/
def Obligations.Rights : Prop := ∀ (s : State) (d a b : Reg) (m : BitVec 4),
  let p := s.g a
  let n := s.g b
  let w := s.g d
  let c := s.cur.1
  let o := s.ownerOf c
  let both (x : TrapInfo) : Prop := s.Traps (.grant d a b m) x ∧ s.Traps (.revoke d a b) x
  let global : Prop := regionOf (vaOf p) = .glob
  let ranged : Prop := p.toNat % 64 = 0 ∧ n ≠ 0 ∧ n.toNat % 64 = 0 ∧ oneRegion (vaOf p) n.toNat = true
  let owned : Prop := w.toNat < 2 ^ 16 ∧ w ≠ 0 ∧ w.toNat ≠ o
  let request (kind : SecKind) (tag : Nat) : SecReq :=
    { kind, core := c, slot := s.cur.2, owner := o, base := vaOf p / 64, lines := n.toNat / 64, age := ageOf p, ptr := p, tag }
  let pending (t : Nat) : Prop := (s.cur.2, t) ∈ s.cpu.resv
  let asks (i : Instr) (kind : SecKind) : Prop := ∃ u j, exec i s = .next u ∧ u.mem = s.mem ∧ j < 5 ∧
    let tag := ((s.ctx o).tagSeq + 1 + j) % 65536
    ¬pending tag ∧ (∀ m < j, pending (((s.ctx o).tagSeq + 1 + m) % 65536)) ∧
    u.hub = { s.hub with secQ := s.hub.secQ ++ [request kind tag] } ∧ (u.ctx o).tagSeq = (s.ctx o).tagSeq + 1 + j ∧
    u.g d = (if d = 0 then 0 else BitVec.ofNat 64 tag) ∧ (∀ r, r ≠ d → u.g r = s.g r) ∧ u.cpu.resv = s.cpu.resv ++ [(s.cur.2, tag)]
  let k := s.ev.k
  let C := s.ev.c
  let waits (x : Cut) : Prop := ∃ e ∈ (s.core C).held x.base x.lines, e ∈ Map.getD x.held C []
  (¬global → both { cause := 0x11, taddr := p, tval := 0 } ∧ s.Traps (.free d a b) { cause := 0x11, taddr := p, tval := 0 }) ∧
  (global → ¬ranged → both { cause := 0x19, taddr := p, tval := n } ∧ s.Traps (.free d a b) { cause := 0x19, taddr := p, tval := n }) ∧
  (global → ranged →
    (∃ u, exec (.free d a b) s = .next u ∧ u.mem = s.mem ∧ u.th = { s.th with wait := .free d s.hub.frees } ∧ u.cpu.resv = s.cpu.resv ∧
      u.hub = { s.hub with secQ := s.hub.secQ ++ [request (.free d) s.hub.frees], frees := s.hub.frees + 1 }) ∧ (¬owned → both { cause := 0x19, taddr := 0, tval := w }) ∧
    (owned → 4 ≤ s.cpu.inboxCount s.cur.2 → both { cause := 0x21, taddr := 0, tval := 0 }) ∧
    (owned → s.cpu.inboxCount s.cur.2 < 4 → asks (.grant d a b m) (.grant w.toNat m) ∧ asks (.revoke d a b) (.revoke w.toNat))) ∧
  (match regionOf (vaOf p) with
    | .reserved => s.Traps (.rprobe d a) { cause := 0x11, taddr := 0, tval := 0 }
    | .spad => s.PutsG (.rprobe d a) d 0x303
    | .dev => s.PutsG (.rprobe d a) d (if s.th.sLevel then 0x303 else 0)
    | .glob =>
      let r := s.rightsOf c o (vaOf p)
      ∃ u, exec (.rprobe d a) s = .next u ∧ u = r.1.setG d (match r.2 with | some e => probeWord e p | none => 0) ∧ u.mem = s.mem ∧
        ∀ r, r ≠ d → u.g r = s.g r) ∧
  (∀ q rest o' rs, s.hub.secQ = q :: rest → q.kind = .grant o' rs →
    let s0 := { s with hub := { s.hub with secQ := rest } }
    let st := s0.grantStatus q o' rs
    (st ≠ 0 → exec .grantPerformed s = .next (s0.postReq q 4 st 0)) ∧
    (st = 0 → ∃ u, exec .grantPerformed s = .next u ∧ u.hub.secQ = rest ∧ u.mem = s.mem ∧
      ∀ e ∈ s.overRange q.owner q.base q.lines, ∃ x ∈ u.table o', x.base = Nat.max e.base q.base ∧ x.len = e.overlap q.base q.lines ∧
        x.age = q.age ∧ x.rights = rs ∧ x.pgid = e.gid ∧ x.pown = q.owner ∧ x.dm = false)) ∧
  (∀ q rest o', s.hub.secQ = q :: rest → q.kind = .revoke o' → ∃ u x, exec .revocationCut s = .next u ∧ u.hub.secQ = rest ∧
    u.hub.cuts = s.hub.cuts ++ [x] ∧ x.req = q ∧ x.toAck = [] ∧ u.mem = s.mem ∧
    ∀ e ∈ u.table o', e.pgid ≠ 0 → e.pown = q.owner → e.meets q.base q.lines = false) ∧
  (∀ q rest d', s.hub.secQ = q :: rest → q.kind = .free d' →
    let s0 := { s with hub := { s.hub with secQ := rest } }
    (s0.freeStatus q ≠ 0 → exec .revocationCut s = .next s) ∧
    (s0.freeStatus q = 0 → ∃ u x, exec .revocationCut s = .next u ∧ u.hub.secQ = rest ∧ u.hub.cuts = s.hub.cuts ++ [x] ∧ x.req = q ∧
      u.mem = s.mem ∧ ∀ e ∈ u.table q.owner, e.pgid = 0 → (s.chain q.owner q.base q.lines).contains e.gid = true →
        e.meets q.base q.lines = true → e.age = q.age + 1)) ∧
  (∀ x, s.hub.cuts[k]? = some x → x.toCut.contains C = true → ∃ u, exec .coreCut s = .next u ∧
    u.hub.cuts = s.hub.cuts.set k { x with
      toCut := x.toCut.erase C, toAck := x.toAck ++ [C], held := Map.put x.held C ((s.core C).held x.base x.lines) } ∧ u.mem = s.mem ∧
    ∀ e ∈ (u.core C).plb, x.owners.contains e.owner = true → e.e.meets x.base x.lines = false) ∧
  (∀ x, s.hub.cuts[k]? = some x → x.toCut.contains C = false → exec .coreCut s = .next s) ∧
  (∀ x, s.hub.cuts[k]? = some x → x.toAck.contains C = true → ¬waits x →
    let v := (s.settleSeq C).writeBackRange C x.base x.lines
    (v.rangeClean C x.base x.lines = true → exec .cutAcknowledge s =
      .next { v with hub := { v.hub with cuts := v.hub.cuts.set k { x with toAck := x.toAck.erase C } } }.settleRootCuts) ∧
    (v.rangeClean C x.base x.lines = false → exec .cutAcknowledge s = .next v)) ∧
  (∀ x, s.hub.cuts[k]? = some x → x.toAck.contains C = false ∨ waits x → exec .cutAcknowledge s = .next s) ∧
  (∀ x o', s.hub.cuts[k]? = some x → x.req.kind = .revoke o' → exec .revokeDone s = .next (if x.toCut = [] ∧ x.toAck = []
    then ({ s with hub := { s.hub with cuts := s.hub.cuts.eraseIdx k } }).postReq x.req 5 0 x.value else s)) ∧
  (∀ q rest d', s.hub.secQ = q :: rest → q.kind = .free d' → s.freeStatus q ≠ 0 →
    exec .freeResult s = .next ({ s with hub := { s.hub with secQ := rest } }.endFree q d' (s.freeStatus q))) ∧
  (∀ x d', (∀ q rest e, s.hub.secQ = q :: rest → q.kind ≠ .free e) → s.hub.cuts[k]? = some x → x.req.kind = .free d' →
    exec .freeResult s = .next (if x.toCut = [] ∧ x.toAck = []
      then ({ s with hub := { s.hub with cuts := s.hub.cuts.eraseIdx k } }).endFree x.req d' 0 else s)) ∧
  (∀ (q : SecReq) (d' : Reg) (st : Nat), d' ≠ 0 → d' ≠ 31 → (s.thread q.core q.slot).wait = .free d' q.tag →
    (s.thread q.core q.slot).live = true →
    let t := (s.endFree q d' st).thread q.core q.slot
    t.wait = .none ∧ t.gr (d' + 1) = BitVec.ofNat 64 st ∧
    t.gr d' = (if st = 0 then (q.ptr &&& 0x00FFFFFFFFFFFFFF) ||| (q.age + 1).setWidth 64 <<< 56 else q.ptr))

/-! ### Floating point (spec/05_floating_point.md, spec/02_number_formats.md) -/

/-- FADD, FSUB, FMUL, FDIV, FSQRT and the four fused forms (R122, R123): the exact result of the operands as the width reads them,
with the negations of FSUB, FMS, FNMA and FNMS exact, rounded once by the instruction's mode into f register d; FPX instead where a
flag it raised is enabled (R120). What the exact results and their roundings are, ExactResults, Rounding and RoundedElements say. -/
def Obligations.FloatArithmetic : Prop := ∀ (s : State) (w : Width) (rm : RM) (d ra rb rc : Reg),
  let F := widthFmt w
  let bits := fun r : Reg => F.val ((s.f r).toNat % 2 ^ F.bits)
  let a := bits ra
  let b := bits rb
  let c := bits rc
  let gives (i : Instr) (exact : Pre) : Prop := s.FloatOut i s.th d (roundPre F rm exact { flags := 0, seed := s.th.srseed })
  gives (.fadd w rm d ra rb) (preAdd rm a b) ∧ gives (.fsub w rm d ra rb) (preAdd rm a b.negate) ∧
  gives (.fmul w rm d ra rb) (preMul a b) ∧ gives (.fdiv w rm d ra rb) (preDiv a b) ∧ gives (.fsqrt w rm d ra) (preSqrt a) ∧
  gives (.fma w rm d ra rb rc) (preFma rm a b c) ∧ gives (.fms w rm d ra rb rc) (preFma rm a b c.negate) ∧
  gives (.fnma w rm d ra rb rc) (preFma rm a.negate b c) ∧ gives (.fnms w rm d ra rb rc) (preFma rm a.negate b c.negate)

/-- The integer that a finite number is of the unit 2^k, for a k at or below its exponent. -/
def unitsOf (x : Xr) (k : Int) : Int := (if x.neg then -1 else 1) * (x.m * 2 ^ (x.e - k).toNat : Nat)

/-- The exact results that rounding is applied to (R122, R123). Sums and products of finite numbers are exact, in integers of any common
unit; a sum of zero from numbers that are not zeros of one sign is −0 under RDN and +0 otherwise; a quotient and a square root are the
floor of the exact one at more bits than any format keeps, with the rest as sticky. Special operands: 0 × ∞, ∞ − ∞, 0 / 0, ∞ / ∞ and
the root of a negative number are invalid; a finite nonzero by zero is a division by zero; any NaN operand gives a NaN, except that
0 × ∞ in a fused product is invalid whatever the addend. A fused product and sum of finite numbers is exact as a whole (R123), and with an
infinity has its value or is invalid as the product and the sum have it. -/
def Obligations.ExactResults : Prop := ∀ (rm : RM) (x y : Xr) (n n' sn : Bool) (z : Val), x.st = false → y.st = false →
  (∃ r, preAdd rm (.num x) (.num y) = .val (.num r) ∧ r.st = false ∧ r.e = min x.e y.e ∧
    (∀ k ≤ r.e, unitsOf r k = unitsOf x k + unitsOf y k) ∧
    (r.m = 0 → r.neg = if x.m = 0 ∧ y.m = 0 ∧ x.neg = y.neg then x.neg else decide (rm = .rdn))) ∧
  (∀ w : Xr, w.st = false → ∃ r, preFma rm (.num x) (.num y) (.num w) = .val (.num r) ∧ r.st = false ∧ r.e = min (x.e + y.e) w.e ∧
    (∀ k ≤ r.e, unitsOf r k = unitsOf { neg := x.neg != y.neg, m := x.m * y.m, e := x.e + y.e } k + unitsOf w k) ∧
    (r.m = 0 → r.neg = if x.m * y.m = 0 ∧ w.m = 0 ∧ (x.neg != y.neg) = w.neg then w.neg else decide (rm = .rdn)) ∧
    preFma rm (.num x) (.num y) (.inf n) = .val (.inf n) ∧
    (x.m ≠ 0 → preFma rm (.inf n) (.num x) (.num w) = .val (.inf (n != x.neg)) ∧
      preFma rm (.num x) (.inf n) (.num w) = .val (.inf (n != x.neg)) ∧
      preFma rm (.inf n) (.num x) (.inf n') = (if (n != x.neg) = n' then .val (.inf n') else .invalid)) ∧
    preFma rm (.inf n) (.inf n') (.num w) = .val (.inf (n != n'))) ∧
  (∃ r, preMul (.num x) (.num y) = .val (.num r) ∧ r.st = false ∧ r.neg = (x.neg != y.neg) ∧ r.m = x.m * y.m ∧ r.e = x.e + y.e) ∧
  (x.m ≠ 0 → y.m ≠ 0 → ∃ r, preDiv (.num x) (.num y) = .val (.num r) ∧ r.neg = (x.neg != y.neg) ∧ 2 ^ 158 ≤ r.m ∧
    r.e ≤ x.e - y.e ∧ r.m * y.m ≤ x.m * 2 ^ (x.e - y.e - r.e).toNat ∧ x.m * 2 ^ (x.e - y.e - r.e).toNat < (r.m + 1) * y.m ∧
    r.st = decide (r.m * y.m ≠ x.m * 2 ^ (x.e - y.e - r.e).toNat)) ∧
  (0 < x.m → x.m < 2 ^ 64 → x.neg = false → ∃ r, preSqrt (.num x) = .val (.num r) ∧ r.neg = false ∧ 2 ^ 120 ≤ r.m ∧
    2 * r.e ≤ x.e ∧ r.m * r.m ≤ x.m * 2 ^ (x.e - 2 * r.e).toNat ∧ x.m * 2 ^ (x.e - 2 * r.e).toNat < (r.m + 1) * (r.m + 1) ∧
    r.st = decide (r.m * r.m ≠ x.m * 2 ^ (x.e - 2 * r.e).toNat)) ∧
  preAdd rm (.inf n) (.inf n') = (if n = n' then .val (.inf n) else .invalid) ∧
  preAdd rm (.inf n) (.num x) = .val (.inf n) ∧ preAdd rm (.num x) (.inf n) = .val (.inf n) ∧
  preMul (.inf n) (.inf n') = .val (.inf (n != n')) ∧
  preMul (.inf n) (.num x) = (if x.m = 0 then .invalid else .val (.inf (n != x.neg))) ∧
  preMul (.num x) (.inf n) = (if x.m = 0 then .invalid else .val (.inf (n != x.neg))) ∧
  preDiv (.inf n) (.num x) = .val (.inf (n != x.neg)) ∧ preDiv (.num x) (.inf n) = .val (.num { neg := x.neg != n, m := 0, e := 0 }) ∧
  (y.m ≠ 0 → preDiv (.num { x with m := 0 }) (.num y) = .val (.num { neg := x.neg != y.neg, m := 0, e := 0 })) ∧
  preSqrt (.inf false) = .val (.inf false) ∧
  preFma rm (.inf n) (.num { x with m := 0 }) z = .invalid ∧ preFma rm (.num { x with m := 0 }) (.inf n) z = .invalid ∧
  preDiv (.num { x with m := 0 }) (.num { y with m := 0 }) = .invalid ∧ preDiv (.inf n) (.inf n') = .invalid ∧
  (x.m ≠ 0 → preDiv (.num x) (.num { y with m := 0 }) = .divZero (x.neg != y.neg)) ∧
  (x.m ≠ 0 → x.neg = true → preSqrt (.num x) = .invalid) ∧ preSqrt (.inf true) = .invalid ∧
  (x.m = 0 → preSqrt (.num x) = .val (.num x)) ∧
  preAdd rm (.nan sn n) z = .nan (sn || z.isSNaN) ∧ preMul (.nan sn n) z = .nan (sn || z.isSNaN) ∧
  preDiv (.nan sn n) z = .nan (sn || z.isSNaN) ∧ preSqrt (.nan sn n) = .nan sn ∧
  preAdd rm z (.nan sn n) = .nan (sn || z.isSNaN) ∧ preMul z (.nan sn n) = .nan (sn || z.isSNaN) ∧
  preDiv z (.nan sn n) = .nan (sn || z.isSNaN) ∧
  (∀ v, preFma rm (.nan sn n) z v = .nan (sn || z.isSNaN || v.isSNaN) ∧ preFma rm z (.nan sn n) v = .nan (sn || z.isSNaN || v.isSNaN)) ∧
  (∀ v, preMul z v ≠ .invalid → preFma rm z v (.nan sn n) = .nan (sn || z.isSNaN || v.isSNaN))

/-- Rounding (R47, R49). An invalid operation, a NaN, a division by zero, an infinity and a zero give the default NaN, an infinity and a
zero with their flags; every rounding steps the seed under RSR first (R50). The integer M that a magnitude m × 2^e is rounded to in units of 2^q is m × 2^(e − q) where that is whole;
otherwise the truncated magnitude t, or t + 1 by the mode: the nearer, a tie to the even or to the larger; away from or toward zero by
the sign; or by the 24 bits of the fraction and of the seed. What a rounded number becomes in FP32 and FP64 (R47, R48, R51). With M units of the format's spacing 2^q at the number: where they
do not pass the largest finite value, the element's value is M × 2^q with the number's sign, NX is raised for an inexact one and UF
beside it for a nonzero one below the normal range; where they do, the element is the infinity, or the largest finite value by the
mode, and OF and NX are raised. -/
def Obligations.Rounding : Prop :=
  (∀ (w : Width) (rm : RM) (r : Pre) (x : Xr) (n sn : Bool) (l : Fl),
    let F := widthFmt w
    let top : Nat := if w = .w32 then 2 ^ 31 else 2 ^ 63
    let sign := if n then top else 0
    let nan : Nat := if w = .w32 then 0x7FC00000 else 0x7FF8000000000000
    let inf : Nat := if w = .w32 then 0x7F800000 else 0x7FF0000000000000
    let l' : Fl := if rm = .rsr then { l with seed := lfsr l.seed } else l
    let with_ (f : BitVec 6) : Fl := { l' with flags := l.flags ||| f }
    (roundPre F rm r l).2.seed = (if rm = .rsr then lfsr l.seed else l.seed) ∧
    roundPre F rm .invalid l = (nan, with_ 16) ∧ roundPre F rm (.nan sn) l = (nan, with_ (if sn then 16 else 0)) ∧
    roundPre F rm (.val (.nan sn n)) l = (nan, with_ (if sn then 16 else 0)) ∧
    roundPre F rm (.divZero n) l = (sign + inf, with_ 8) ∧ roundPre F rm (.val (.inf n)) l = (sign + inf, l') ∧
    roundPre F rm (.val (.num { x with neg := n, m := 0, st := false })) l = (sign, l') ∧
    roundPre F rm (.val (.num x)) l = roundNum F (F.fp.getD ⟨0, 0, 0, true⟩) rm false x l') ∧
  (∀ (rm : RM) (seed : BitVec 32) (x : Xr) (q : Int), x.st = false →
    let d := (q - x.e).toNat
    let t := x.m / 2 ^ d
    let rem := x.m % 2 ^ d
    let (M, inexact) := roundAt rm seed x q
    (q ≤ x.e → M = x.m * 2 ^ (x.e - q).toNat ∧ inexact = false) ∧
    let away : Prop := match rm with
      | .rne => 2 * rem > 2 ^ d ∨ (2 * rem = 2 ^ d ∧ t % 2 = 1)
      | .rna => 2 * rem ≥ 2 ^ d
      | .rtz => False
      | .rdn => x.neg = true ∧ rem ≠ 0
      | .rup => x.neg = false ∧ rem ≠ 0
      | .rsr => 2 ^ 24 * rem / 2 ^ d + seed.toNat % 2 ^ 24 ≥ 2 ^ 24
    (x.e < q → inexact = decide (rem ≠ 0) ∧ (away → M = t + 1) ∧ (¬away → M = t))) ∧
  (∀ (w : Width) (rm : RM) (x : Xr) (l : Fl), x.m ≠ 0 →
    let F := widthFmt w
    let mb : Nat := if w = .w32 then 23 else 52
    let emax : Int := if w = .w32 then 127 else 1023
    let emin : Int := 1 - emax
    let lg : Int := (x.m.log2 : Int) + x.e
    let q : Int := max lg emin - mb
    let (M, inexact) := roundAt rm l.seed x q
    let (b, l') := roundNum F (F.fp.getD ⟨0, 0, 0, true⟩) rm false x l
    let tooBig : Prop := M * 2 ^ (q - (emin - mb)).toNat ≥ 2 ^ (emax + 1 + mb - emin).toNat
    l'.seed = l.seed ∧ b < 2 ^ F.bits ∧
    (¬tooBig → ∃ y, F.val b = .num y ∧ y.neg = x.neg ∧ y.m * 2 ^ (y.e - (emin - mb)).toNat = M * 2 ^ (q - (emin - mb)).toNat ∧
      l'.flags = l.flags ||| (if inexact then 1 else 0) ||| (if inexact = true ∧ M ≠ 0 ∧ M < 2 ^ mb then 2 else 0)) ∧
    (tooBig → l'.flags = l.flags ||| 5 ∧
      if rm = .rtz ∨ (rm = .rdn ∧ x.neg = false) ∨ (rm = .rup ∧ x.neg = true) then
        ∃ y, F.val b = .num y ∧ y.neg = x.neg ∧ y.m = 2 ^ (mb + 1) - 1 ∧ y.e = emax - mb
      else F.val b = .inf x.neg))

/-- Minimum, maximum and compares (R124, R125): both operands numbers, −0 below +0 for FMIN and its like; one NaN; two NaNs; NV for a
signalling NaN, and for any NaN in FLT and FLE. None of them rounds or steps the seed. How numbers compare (R125): by value, both zeros equal, and not at all with a NaN. -/
def Obligations.MinMaxCompare : Prop :=
  (∀ (s : State) (w : Width) (rm : RM) (d ra rb : Reg),
    let F := widthFmt w
    let xa := (s.f ra).toNat % 2 ^ F.bits
    let xb := (s.f rb).toNat % 2 ^ F.bits
    let a := F.val xa
    let b := F.val xb
    let snan := a.isSNaN || b.isSNaN
    let cmp := compareVal a b
    let below : Prop := cmp = some (-1) ∨ (cmp = some 0 ∧ a.isNeg = true ∧ b.isNeg = false)
    let above : Prop := cmp = some 1 ∨ (cmp = some 0 ∧ a.isNeg = false ∧ b.isNeg = true)
    let nan := F.defaultNaN
    let fl (nv : Bool) : Fl := { flags := if nv then 16 else 0, seed := s.th.srseed }
    let picks (i : Instr) (prop : Bool) (second : Prop) : Prop :=
      (a.isNaN = true → b.isNaN = true → s.FloatOut i s.th d (nan, fl snan)) ∧
      (a.isNaN = true → b.isNaN = false → s.FloatOut i s.th d (if prop then nan else xb, fl snan)) ∧
      (a.isNaN = false → b.isNaN = true → s.FloatOut i s.th d (if prop then nan else xa, fl snan)) ∧
      (a.isNaN = false → b.isNaN = false → second → s.FloatOut i s.th d (xb, fl snan)) ∧
      (a.isNaN = false → b.isNaN = false → ¬second → s.FloatOut i s.th d (xa, fl snan))
    let tells (i : Instr) (nv : Bool) (c : Prop) : Prop :=
      (c → s.GeneralOut i s.th d (1, fl nv)) ∧ (¬c → s.GeneralOut i s.th d (0, fl nv))
    picks (.fmin w rm d ra rb) false above ∧ picks (.fmax w rm d ra rb) false below ∧
    picks (.fminm w rm d ra rb) true above ∧ picks (.fmaxm w rm d ra rb) true below ∧
    tells (.feq w rm d ra rb) snan (cmp = some 0) ∧
    tells (.flt w rm d ra rb) (a.isNaN || b.isNaN) (cmp = some (-1)) ∧
    tells (.fle w rm d ra rb) (a.isNaN || b.isNaN) (cmp = some (-1) ∨ cmp = some 0)) ∧
  (∀ (x y : Xr) (n n' sn : Bool) (z : Val),
    (∀ k, k ≤ x.e → k ≤ y.e → compareVal (.num x) (.num y) =
      some (if unitsOf x k < unitsOf y k then -1 else if unitsOf x k = unitsOf y k then 0 else 1)) ∧
    compareVal (.inf n) (.num x) = some (if n then -1 else 1) ∧ compareVal (.num x) (.inf n) = some (if n then 1 else -1) ∧
    compareVal (.inf n) (.inf n') = some (if n = n' then 0 else if n then -1 else 1) ∧
    compareVal (.nan sn n) z = none ∧ compareVal z (.nan sn n) = none)

/-- FCLASS, the sign instructions and the moves between register files complete for every operand and raise no flag (R126, R127, R132):
the class bit by the operand's exponent and mantissa fields; the magnitude of a with the sign of b, its inverse, or their exclusive or;
the bits moved, FP32 in bits 31:0 with zero above. -/
def Obligations.ClassSignMove : Prop := ∀ (s : State) (w : Width) (rm : RM) (d ra rb : Reg),
  let n := if w = .w32 then 32 else 64
  let eb := if w = .w32 then 8 else 11
  let mb := n - 1 - eb
  let x := (s.f ra).toNat % 2 ^ n
  let y := (s.f rb).toNat % 2 ^ n
  let e := x / 2 ^ mb % 2 ^ eb
  let m := x % 2 ^ mb
  let neg := x / 2 ^ (n - 1) = 1
  let cls : Nat :=
    if e = 2 ^ eb - 1 then (if m = 0 then (if neg then 0 else 7) else if m < 2 ^ (mb - 1) then 8 else 9)
    else if e = 0 then (if m = 0 then (if neg then 3 else 4) else if neg then 2 else 5)
    else if neg then 1 else 6
  let puts (i : Instr) (v : Nat) : Prop := ∃ t, exec i s = .next t ∧ s.OnlyThread t ∧
    t.th = { s.th with f := s.th.f.set d.toNat (BitVec.ofNat 64 v) d.isLt }
  let top := fun z : Nat => z / 2 ^ (n - 1)
  let mag := x % 2 ^ (n - 1)
  s.PutsG (.fclass w rm d ra) d (BitVec.ofNat 64 (2 ^ cls)) ∧
  puts (.fsgn w rm d ra rb) (mag + top y * 2 ^ (n - 1)) ∧ puts (.fsgnn w rm d ra rb) (mag + (1 - top y) * 2 ^ (n - 1)) ∧
  puts (.fsgnx w rm d ra rb) (mag + (top x + top y) % 2 * 2 ^ (n - 1)) ∧
  s.PutsG (.fmvg w rm d ra) d (BitVec.ofNat 64 x) ∧ puts (.fmvf w rm d ra) ((s.g ra).toNat % 2 ^ n)

/-- FCVT, FCVTI and FCVTF (R130, R131): with no prefix pending, between the default formats of the width; with one, between its fmt1 and
fmtd, PP and PF cleared, or ILLPFX precisely where it holds a code the instruction does not admit. FCVTI's integer is written as the
signed number it is, or for UINT8 the unsigned one. What a conversion gives (R52, R53): into an integer format the rounded number, the nearest bound with SAT and NX outside the range,
a bound with NV for an infinity, zero with NV for a NaN; into FP32 and FP64 infinities as they are and the default NaN; into E4M3, E3M2,
E2M3 and E2M1 the row of R52 for NaNs and infinities, by the saturate bit; a finite number into the rounded value with NX and UF, and past
the largest finite one into what R48 and R52 give. With no trap enabled each completes. -/
def Obligations.Conversion : Prop :=
  (∀ (s : State) (w : Width) (rm : RM) (sat : Bool) (d ra : Reg),
    let F := widthFmt w
    let other : Fmt := if w = .w32 then .fp64 else .fp32
    let l : Fl := { flags := 0, seed := s.th.srseed }
    let fa := (s.f ra).toNat
    let ga := (s.g ra).toNat
    let gr (r : Int × Fl) : Word × Fl := (BitVec.ofInt 64 r.1, r.2)
    let t' := s.th.setPrefix false 0
    let src := pfFmt1 s.th.pf
    let dst := pfFmtD s.th.pf
    let isF (f : Fmt) : Prop := f ∈ [.fp64, .fp32, .bf16, .fp16, .e5m2, .e4m3, .e3m2, .e2m3, .e2m1]
    let isI (f : Fmt) : Prop := f ∈ [.int8, .uint8, .int4, .int16, .int32, .int64]
    (s.th.pp = false → s.th.fenable = 0 →
      s.FloatDone (.fcvt w rm sat d ra) s.th d (convert other F rm sat fa l) ∧
      s.GeneralDone (.fcvti w rm d ra) s.th d (gr (convertInt .int64 rm (F.val fa) l)) ∧
      s.FloatDone (.fcvtf w rm d ra) s.th d (convert .int64 F rm false ga l)) ∧
    (s.th.pp = true → s.th.fenable = 0 →
      (isF src → isF dst → s.FloatDone (.fcvt w rm sat d ra) t' d (convert src dst rm sat fa l)) ∧
      (isF src → isI dst → s.GeneralDone (.fcvti w rm d ra) t' d (gr (convertInt dst rm (src.val fa) l))) ∧
      (isI src → isF dst → s.FloatDone (.fcvtf w rm d ra) t' d (convert src dst rm false ga l))) ∧
    (s.th.pp = false →
      s.FloatOut (.fcvt w rm sat d ra) s.th d (convert other F rm sat fa l) ∧
      s.GeneralOut (.fcvti w rm d ra) s.th d (gr (convertInt .int64 rm (F.val fa) l)) ∧
      s.FloatOut (.fcvtf w rm d ra) s.th d (convert .int64 F rm false ga l)) ∧
    (s.th.pp = true →
      (isF src → isF dst → s.FloatOut (.fcvt w rm sat d ra) t' d (convert src dst rm sat fa l)) ∧
      (isF src → isI dst → s.GeneralOut (.fcvti w rm d ra) t' d (gr (convertInt dst rm (src.val fa) l))) ∧
      (isI src → isF dst → s.FloatOut (.fcvtf w rm d ra) t' d (convert src dst rm false ga l)) ∧
      (¬(isF src ∧ isF dst) → s.Traps (.fcvt w rm sat d ra) (s.badWord .illpfx)) ∧
      (¬(isF src ∧ isI dst) → s.Traps (.fcvti w rm d ra) (s.badWord .illpfx)) ∧
      (¬(isI src ∧ isF dst) → s.Traps (.fcvtf w rm d ra) (s.badWord .illpfx)))) ∧
  (∀ (f : Fmt) (p : FmtP) (rm : RM) (sat neg sn : Bool) (x : Xr) (l : Fl),
    let l' : Fl := if rm = .rsr then { l with seed := lfsr l.seed } else l
    let (lo, hi) := f.intRange
    let (M, inexact) := roundAt rm l'.seed x 0
    let i : Int := if x.neg then -M else M
    let big := f.maxMag p + if neg then 2 ^ (p.eb + p.mb) else 0
    (∀ (src : Fmt) (b : Nat),
      (f.fp = some p → convert src f rm sat b l = convertFp f p rm sat (src.val b) l) ∧
      (f.fp = none → convert src f rm sat b l =
        let r := convertInt f rm (src.val b) l
        ((r.1 % 2 ^ f.bits).toNat, r.2))) ∧
    (f.fp = some p → f ∈ [.fp64, .fp32, .bf16, .fp16, .e5m2, .e4m3, .e3m2, .e2m3, .e2m1] → x.m ≠ 0 → x.st = false →
      let unit : Int := 1 - p.bias - p.mb
      let q : Int := max ((x.m.log2 : Int) + x.e) (1 - p.bias) - p.mb
      let (M, inexact) := roundAt rm l'.seed x q
      let limit : Nat := if f = .e4m3 then 229376 else if f = .e3m2 then 448 else if f = .e2m3 then 60 else if f = .e2m1 then 12
        else (2 ^ (p.mb + 1) - 1) * 2 ^ (2 ^ p.eb - 3)
      let U := M * 2 ^ (q - unit).toNat
      let r := convertFp f p rm sat (.num x) l
      let ieee : Prop := f ∈ [.fp64, .fp32, .bf16, .fp16, .e5m2]
      let toward : Prop := rm = .rtz ∨ (rm = .rdn ∧ x.neg = false) ∨ (rm = .rup ∧ x.neg = true)
      let isMax : Prop := ∃ y, valFp f p r.1 = .num y ∧ y.neg = x.neg ∧ y.m * 2 ^ (y.e - unit).toNat = limit
      r.2.seed = l'.seed ∧ r.1 < 2 ^ f.bits ∧
      (U ≤ limit → (∃ y, valFp f p r.1 = .num y ∧ y.neg = x.neg ∧ y.m * 2 ^ (y.e - unit).toNat = U) ∧
        r.2.flags = l.flags ||| (if inexact then 1 else 0) ||| (if inexact = true ∧ M ≠ 0 ∧ M < 2 ^ p.mb then 2 else 0)) ∧
      (limit < U → ieee → r.2.flags = l.flags ||| 5 ∧ (toward → isMax) ∧ (¬toward → valFp f p r.1 = .inf x.neg)) ∧
      (limit < U → ¬ieee → sat = true → r.2.flags = l.flags ||| 37 ∧ isMax) ∧
      (limit < U → f = .e4m3 → sat = false → r.2.flags = l.flags ||| 5 ∧ r.1 = if x.neg then 0xFF else 0x7F) ∧
      (limit < U → ¬ieee → f ≠ .e4m3 → sat = false → r.2.flags = l.flags ||| 17 ∧ isMax)) ∧
    (f.fp = some p → x.m = 0 → x.st = false →
      convertFp f p rm sat (.num x) l = (if x.neg then 2 ^ (p.eb + p.mb) else 0, l')) ∧
    convertInt f rm (.nan sn neg) l = (0, { l' with flags := l.flags ||| 16 }) ∧
    convertInt f rm (.inf neg) l = (if neg then lo else hi, { l' with flags := l.flags ||| 16 }) ∧
    (lo ≤ i → i ≤ hi → convertInt f rm (.num x) l = (i, { l' with flags := l.flags ||| if inexact then 1 else 0 })) ∧
    (i < lo → convertInt f rm (.num x) l = (lo, { l' with flags := l.flags ||| 33 })) ∧
    (i > hi → convertInt f rm (.num x) l = (hi, { l' with flags := l.flags ||| 33 })) ∧
    (f.fp = some p → f ∈ [.fp64, .fp32, .bf16, .fp16, .e5m2] →
      convertFp f p rm sat (.nan sn neg) l = (f.defaultNaN, { l' with flags := l.flags ||| if sn then 16 else 0 }) ∧
      ∃ b, convertFp f p rm sat (.inf neg) l = (b, l') ∧ valFp f p b = .inf neg) ∧
    (f.fp = some p → f ∈ [.e3m2, .e2m3, .e2m1] →
      convertFp f p rm sat (.nan sn neg) l = (0, { l' with flags := l.flags ||| 16 }) ∧
      convertFp f p rm true (.inf neg) l = (big, { l' with flags := l.flags ||| 36 }) ∧
      convertFp f p rm false (.inf neg) l = (big, { l' with flags := l.flags ||| 16 })) ∧
    (f.fp = some p → f = .e4m3 →
      convertFp f p rm sat (.nan sn neg) l = (if neg then 0xFF else 0x7F, { l' with flags := l.flags ||| if sn then 16 else 0 }) ∧
      convertFp f p rm true (.inf neg) l = (if neg then 0xFE else 0x7E, { l' with flags := l.flags ||| 36 }) ∧
      convertFp f p rm false (.inf neg) l = (if neg then 0xFF else 0x7F, { l' with flags := l.flags ||| 16 })))

/-- FRINT and FSCALE (R128, R129). FRINT's result is the operand rounded to a whole number, with its sign, and NX in the .X form alone;
FSCALE multiplies by 2 to the whole signed ga before the one rounding (powers beyond ±10,000 lie outside every format and stand for
one another). -/
def Obligations.RoundAndScale : Prop := ∀ (s : State) (w : Width) (rm : RM) (x : Bool) (d ra rb : Reg),
  let F := widthFmt w
  let a := F.val ((s.f ra).toNat % 2 ^ F.bits)
  let l : Fl := { flags := 0, seed := s.th.srseed }
  let l' : Fl := if rm = .rsr then { l with seed := lfsr l.seed } else l
  let k := max (-10000) (min 10000 (s.g rb).toInt)
  (∀ y, a = .num y →
    let (M, inexact) := roundAt rm l'.seed y 0
    s.FloatOut (.frint w rm x d ra) s.th d
      ((roundPre F .rne (.val (.num { neg := y.neg, m := M, e := 0 })) {}).1,
        { l' with flags := if x = true ∧ inexact = true then 1 else 0 })) ∧
  ((∀ y, a ≠ .num y) → s.FloatOut (.frint w rm x d ra) s.th d (roundPre F rm (.val a) l)) ∧
  (∀ y, a = .num y → s.FloatOut (.fscale w rm d ra rb) s.th d
    (roundPre F rm (.val (.num { y with e := if y.m = 0 ∧ y.st = false then y.e else y.e + k })) l)) ∧
  ((∀ y, a ≠ .num y) → s.FloatOut (.fscale w rm d ra rb) s.th d (roundPre F rm (.val a) l))

/-- The transcendentals (R133 to R138): each completes with no trap enabled, and writes what its function gives for the operand, with FPX for
an enabled flag; FRCP is the division of 1 by the operand, flag for flag; special operands have the results of R138, signed zeros,
infinities and NaNs among them; any other operand's result is that function's exact result, with no flag, where the format holds it, and
otherwise one of its two neighbours with NX, and for FTANH and FERF a value within 2 ulp of it and at most 1: above or below it as a
directed mode asks, and in the others as a free value says (logs 10 and 27). Of two operands of one interval on which the function is
monotonic, whose true results lie between the same neighbours, the results are in the function's order (R137). -/
def Obligations.Transcendentals : Prop := ∀ (s : State) (w : Width) (rm : RM) (d ra : Reg) (x : Xr) (n : Bool) (b : Nat),
  let F := widthFmt w
  let l : Fl := { flags := 0, seed := s.th.srseed }
  let gives (i : Instr) (fn : TFn) : Prop := s.FloatOut i s.th d (transc fn F rm ((s.f ra).toNat % 2 ^ F.bits) l)
  let forms : List (Instr × TFn) := [(.fexp w rm d ra, .exp), (.fexp2 w rm d ra, .exp2), (.flog w rm d ra, .log), (.flog2 w rm d ra, .log2),
    (.frcp w rm d ra, .rcp), (.frsq w rm d ra, .rsq), (.fsin w rm d ra, .sin), (.fcos w rm d ra, .cos), (.ftanh w rm d ra, .tanh),
    (.ferf w rm d ra, .erf)]
  let r (fn : TFn) : Nat × Fl := transc fn F rm b l
  let one : Nat := if w = .w32 then 0x3F800000 else 0x3FF0000000000000
  let gives0 (fn : TFn) (v : Val) : Prop := F.val (r fn).1 = v ∧ (r fn).2.flags = 0
  let invalid (fn : TFn) : Prop := (r fn).1 = F.defaultNaN ∧ (r fn).2.flags = 16
  let zero (fn : TFn) (neg : Bool) : Prop := (∃ y, F.val (r fn).1 = .num y ∧ y.m = 0 ∧ y.neg = neg) ∧ (r fn).2.flags = 0
  let emax : Int := if w = .w32 then 127 else 1023
  let power (fn : TFn) (k : Int) : Prop := (∃ y, F.val (r fn).1 = .num y ∧ y.neg = false ∧ y.e ≤ k ∧ y.m = 2 ^ (k - y.e).toNat) ∧ (r fn).2.flags = 0
  let domain (fn : TFn) : Prop := fn ≠ .rcp ∧ (fn = .log ∨ fn = .log2 ∨ fn = .rsq → x.neg = false)
  let p := F.fp.getD ⟨0, 0, 0, true⟩
  (s.th.fenable = 0 → ∀ e ∈ forms, s.FloatDone e.1 s.th d (transc e.2 F rm ((s.f ra).toNat % 2 ^ F.bits) l)) ∧
  gives (.fexp w rm d ra) .exp ∧ gives (.fexp2 w rm d ra) .exp2 ∧ gives (.flog w rm d ra) .log ∧ gives (.flog2 w rm d ra) .log2 ∧
  gives (.frcp w rm d ra) .rcp ∧ gives (.frsq w rm d ra) .rsq ∧ gives (.fsin w rm d ra) .sin ∧ gives (.fcos w rm d ra) .cos ∧
  gives (.ftanh w rm d ra) .tanh ∧ gives (.ferf w rm d ra) .erf ∧
  transc .rcp F rm b l = roundPre F rm (preDiv (.num { m := 1, e := 0 }) (F.val b)) l ∧
  (F.val b = .nan true n → ∀ fn, transc fn F rm b l = (F.defaultNaN, (if rm = .rsr then { l with seed := lfsr l.seed } else l).raise 16)) ∧
  (F.val b = .nan false n → ∀ fn, r fn = (F.defaultNaN, if rm = .rsr then { l with seed := lfsr l.seed } else l)) ∧
  (F.val b = .inf n →
    (∀ fn ∈ [TFn.exp, .exp2], if n then zero fn false else gives0 fn (.inf false)) ∧
    (∀ fn ∈ [TFn.log, .log2], if n then invalid fn else gives0 fn (.inf false)) ∧
    zero .rcp n ∧ (if n then invalid .rsq else zero .rsq false) ∧ invalid .sin ∧ invalid .cos ∧
    ∀ fn ∈ [TFn.tanh, .erf], (r fn).1 = one + (if n then 2 ^ (F.bits - 1) else 0) ∧ (r fn).2.flags = 0) ∧
  (F.val b = .num x → x.m = 0 →
    (∀ fn ∈ [TFn.exp, .exp2, .cos], (r fn).1 = one ∧ (r fn).2.flags = 0) ∧ (∀ fn ∈ [TFn.sin, .tanh, .erf], zero fn x.neg) ∧
    (∀ fn ∈ [TFn.log, .log2], F.val (transc fn F rm b l).1 = .inf true ∧ (transc fn F rm b l).2.flags = 8) ∧
    (∀ fn ∈ [TFn.rcp, .rsq], F.val (transc fn F rm b l).1 = .inf x.neg ∧ (transc fn F rm b l).2.flags = 8)) ∧
  (F.val b = .num x → x.m ≠ 0 → x.neg = true → ∀ fn ∈ [TFn.log, .log2, .rsq],
    (transc fn F rm b l).1 = F.defaultNaN ∧ (transc fn F rm b l).2.flags = 16) ∧
  (F.val b = .num x → x.m ≠ 0 →
    (∀ i : Int, -emax < i → i ≤ emax → (∀ k, k ≤ x.e → k ≤ 0 → unitsOf x k = i * 2 ^ (-k).toNat) → power .exp2 i) ∧
    (∀ i : Int, x.neg = false → (∀ k, k ≤ x.e → k ≤ i → unitsOf x k = 2 ^ (i - k).toNat) →
      (i = 0 → zero .log false ∧ zero .log2 false) ∧
      (i ≠ 0 → (∃ y, F.val (r .log2).1 = .num y ∧ ∀ k, k ≤ y.e → k ≤ 0 → unitsOf y k = i * 2 ^ (-k).toNat) ∧ (r .log2).2.flags = 0) ∧
      (i % 2 = 0 → power .rsq (-(i / 2))))) ∧
  (F.val b = .num x → x.m ≠ 0 → ∀ fn, domain fn →
    let y := transcTrue fn x
    let q := p.quantum y
    let (t, inexact) := roundAt .rtz 1 y q
    let up : Bool := rm = .rup && !y.neg || rm = .rdn && y.neg
    let down : Bool := rm = .rtz || rm = .rdn && !y.neg || rm = .rup && y.neg
    let is (m : Nat) (e : Int) : Prop := (r fn).1 = (roundNum F p rm false { neg := y.neg, m, e } l).1
    (inexact = false → (r fn).1 = (roundNum F p rm false y l).1 ∧ ((y.m.log2 : Int) + y.e ≤ emax → (r fn).2.flags = 0)) ∧
    (inexact = true → (r fn).2.flags.getLsbD 0 = true ∧
      (fn ≠ .tanh → fn ≠ .erf → ∃ k ∈ [t, t + 1], is k q ∧ (up = true → k = t + 1) ∧ (down = true → k = t)) ∧
      (fn = .tanh ∨ fn = .erf → q ≤ 0 → t < 2 ^ (-q).toNat → (r fn).1 % 2 ^ (F.bits - 1) ≤ one ∧
        ((∃ k, t ≤ k + 1 ∧ k ≤ t + 2 ∧ is k q ∧ (up = true → t < k) ∧ (down = true → k ≤ t)) ∨
         (2 * t = 2 ^ (p.mb + 1) ∧ up = false ∧ ∃ k ∈ [2 ^ (p.mb + 1) - 2, 2 ^ (p.mb + 1) - 1], is k (q - 1)))))) ∧
  (∀ (fn : TFn) (b' : Nat) (x' : Xr), F.val b = .num x → F.val b' = .num x' → x.m ≠ 0 → x'.m ≠ 0 → domain fn →
    (fn = .log ∨ fn = .log2 ∨ fn = .rsq → x'.neg = false) → fn.piece x = fn.piece x' →
    let y := transcTrue fn x
    let y' := transcTrue fn x'
    let q := p.quantum y
    y'.neg = y.neg → p.quantum y' = q → roundAt .rtz 1 y' q = roundAt .rtz 1 y q → (roundAt .rtz 1 y q).2 = true →
    operandPlace p b ≤ operandPlace p b' →
    let mag (z : Nat) : Nat := (transc fn F rm z l).1 % 2 ^ (F.bits - 1)
    if (fn.piece x).2 != y.neg then mag b ≤ mag b' else mag b' ≤ mag b)

/-! ### Memory (spec/06_memory_access.md, spec/01_machine_state.md R26 to R32) -/

/-- An access (R142) checks in this order. A reserved region is VADDR. The device register window is PRIV at U level, then VADDR for a
write, for an instruction it does not admit or beyond its thread block, then ALIGN. Every other access that is not a multiple of its
size is ALIGN. The scratchpad window is SPADDR where it names no core of the context. Global space without a translation waits for the
memory manager with a PFAULT to take if it refuses; then come ALIASAMO and AMOHOST; then RIGHTS without an entry, STALE for a dormant
one or another age, RIGHTS for a missing right (X in place of R for a fetch). taddr is the pointer, tval the kind, and FETCH is set for a
fetch. -/
def Obligations.AccessChecks : Prop := ∀ (s : State) (q : Req),
  let va := q.p.toNat % 2 ^ 56
  let top := va / 2 ^ 48
  let traps (u : State) (code : Word) : Prop := s.check q = .trap u
    { cause := code ||| (if q.fetch then 0x100 else 0), taddr := q.p,
      tval := (if q.rd then 1 else 0) + (if q.wr then 2 else 0) }
  let aligned : Prop := va % q.n = 0
  (top ≥ 0xE0 → top ≠ 0xF8 → top ≠ 0xFC → traps s 0x11) ∧
  (top = 0xFC → q.sLevel = false → traps s 0x04) ∧
  (top = 0xFC → q.sLevel = true → (q.devOk = false ∨ q.wr = true ∨ va % 2 ^ 48 ≥ 0x1000) → traps s 0x11) ∧
  (top = 0xFC → q.sLevel = true → q.devOk = true → q.wr = false → va % 2 ^ 48 < 0x1000 → ¬aligned → traps s 0x10) ∧
  (top = 0xFC → q.sLevel = true → q.devOk = true → q.wr = false → va % 2 ^ 48 < 0x1000 → aligned →
    s.check q = .ok s (.dev (va % 2 ^ 48))) ∧
  (top = 0xF8 → ¬aligned → traps s 0x10) ∧
  (top = 0xF8 → aligned → s.spadTarget q.c q.p = none → traps s 0x12) ∧
  (top = 0xF8 → aligned → ∀ c off, s.spadTarget q.c q.p = some (c, off) → s.check q = .ok s (.spad c off)) ∧
  (top < 0xE0 → ¬aligned → traps s 0x10) ∧
  (top < 0xE0 → aligned → ∀ s1 reason lvl, s.translate q.c va q.wr = (s1, .fault reason lvl) →
    ∃ u i, s.check q = .wait u (.fault q.p q.fetch i) ∧ i.taddr = q.p ∧
      i.cause = 0x13 ||| (if q.fetch then 0x100 else 0) ∧ u.hub.faults.any (fun f => f.page == va / 2 ^ 16) = true ∧
      { u with hub := s1.hub } = s1) ∧
  (top < 0xE0 → aligned → ∀ s1 e lvl, s.translate q.c va q.wr = (s1, .leaf e lvl) →
    let spa := leafSpa e lvl va
    let host := s1.home spa = .host
    (pteMX e = true → q.amo ≠ none → traps s1 0x17) ∧
    (pteMX e = false → host → q.amo = some false → traps s1 0x18) ∧
    ((pteMX e = false ∨ q.amo = none) → (¬host ∨ q.amo ≠ some false) → ∀ s2 r, s1.rightsOf q.c q.owner va = (s2, r) →
      (r = none → traps s2 0x14) ∧
      ∀ en, r = some en →
        let fresh : Prop := en.dm = false ∧ en.age.toNat = q.p.toNat / 2 ^ 56
        let may : Prop := (q.fetch = true → en.rights.getLsbD 2 = true) ∧
          (q.fetch = false → q.rd = true → en.rights.getLsbD 0 = true) ∧ (q.wr = true → en.rights.getLsbD 1 = true)
        (¬fresh → traps s2 0x15) ∧ (fresh → ¬may → traps s2 0x14) ∧ (fresh → may → s.check q = .ok s2 (.glob va e spa))))

/-- Where a scratchpad-window pointer leads (R31, R32): mode 0 names a logical core, mode 1 one relative to the issuing core on the 64 × 24
torus, mode 2 the core itself and no coordinates; mode 3, reserved bits, a row above 23 and a core the context does not hold have no
target; the age byte plays no part. -/
def Obligations.ScratchpadWindow : Prop := ∀ (s : State) (c x y mode mid off age : Nat),
  x < 64 → y < 32 → mode < 4 → mid < 2 ^ 17 → off < 2 ^ 18 → age < 256 →
  let k := s.ctx (s.ownerOf c)
  let own := k.coords c
  let p : Word := BitVec.ofNat 64 (age * 2 ^ 56 + 0xF8 * 2 ^ 48 + mode * 2 ^ 46 + x * 2 ^ 40 + y * 2 ^ 35 + mid * 2 ^ 18 + off)
  s.spadTarget c p =
    if mode = 3 ∨ mid ≠ 0 ∨ y > 23 ∨ (mode = 2 ∧ (x ≠ 0 ∨ y ≠ 0)) then none
    else
      let t := if mode = 0 then (x, y) else if mode = 1 then ((own.1 + x) % 64, (own.2 + y) % 24) else own
      (k.coreAt t.1 t.2).map (fun c' => (c', off))

/-- The plain loads (R145). Each reads its size in bytes at base + s(disp) × size, checked as R142 says (the device register window admits
LDW, LDWU and LDD), and writes its register: signed, unsigned, or an f register with zero above. From a scratchpad the value is that of
its bytes, little-endian; a leader's load from another core's ends its leadership with the cycle (R334). -/
def Says.PlainLoads : Prop := ∀ (s : State) (t b : Reg) (disp : BitVec 12),
  let p (n : Nat) : Word := BitVec.ofInt 64 ((s.g b).toInt + n * disp.toInt)
  let reads (i : Instr) (n : Nat) (dev : Bool) (put : State → Word → State) (ext : Nat → Word) : Prop :=
    s.Accesses i (s.readMem (p n) n dev) (fun u bs => put u (ext (leNat bs))) ∧
    ∀ c off, (p n).toNat / 2 ^ 48 % 256 = 0xF8 → (p n).toNat % n = 0 → s.spadTarget s.cur.1 (p n) = some (c, off) →
      (off / 64) ∉ (s.core c).spadPoison →
      exec i s = .next (put (s.noteRef (c != s.cur.1)) (ext ((s.core c).spad.le off n)))
  let g (u : State) (x : Word) : State := u.setG t x
  let f (u : State) (x : Word) : State := u.setF t x
  let signed (n : Nat) (x : Nat) : Word := BitVec.ofInt 64 (BitVec.ofNat (8 * n) x).toInt
  let plain (x : Nat) : Word := BitVec.ofNat 64 x
  reads (.ldb t b disp) 1 false g (signed 1) ∧ reads (.ldbu t b disp) 1 false g plain ∧
  reads (.ldh t b disp) 2 false g (signed 2) ∧ reads (.ldhu t b disp) 2 false g plain ∧
  reads (.ldw t b disp) 4 true g (signed 4) ∧ reads (.ldwu t b disp) 4 true g plain ∧ reads (.ldd t b disp) 8 true g plain ∧
  reads (.fldw t b disp) 4 false f plain ∧ reads (.fldd t b disp) 8 false f plain

/-- The plain stores (R145). Each writes the low bytes of its register at base + s(disp) × size, checked as R142 says, with no register
changed; in a scratchpad, the stored bytes read as the value and every other byte of every scratchpad as before, and memory is left
alone; what the thread's fetches still see there until its next IFENCE is kept beside (R116, R207). -/
def Says.PlainStores : Prop := ∀ (s : State) (t b : Reg) (disp : BitVec 12),
  let p (n : Nat) : Word := BitVec.ofInt 64 ((s.g b).toInt + n * disp.toInt)
  let writes (i : Instr) (n : Nat) (x : Word) : Prop :=
    s.Accesses i (s.writeMem (p n) (leBytes n x.toNat)) (fun u _ => u) ∧
    ∀ c off, (p n).toNat / 2 ^ 48 % 256 = 0xF8 → (p n).toNat % n = 0 → s.spadTarget s.cur.1 (p n) = some (c, off) →
      (s.core c).spad.wf = true → ∃ u, exec i s = .next u ∧ u.mem = s.mem ∧ (∀ c' sl, u.thread c' sl = s.thread c' sl) ∧
        (u.core c).spad.wf = true ∧ (u.core c).spad.le off n = x.toNat % 2 ^ (8 * n) ∧
        (∀ a, (a < off ∨ off + n ≤ a) → (u.core c).spad.get a = (s.core c).spad.get a) ∧
        ∀ c', c' ≠ c → { u.core c' with unfenced := (s.core c').unfenced } = s.core c'
  writes (.stb t b disp) 1 (s.g t) ∧ writes (.sth t b disp) 2 (s.g t) ∧ writes (.stw t b disp) 4 (s.g t) ∧
  writes (.std t b disp) 8 (s.g t) ∧ writes (.fstw t b disp) 4 (s.f t) ∧ writes (.fstd t b disp) 8 (s.f t)

/-- Where stores to global space go (R145, R157, R297, R309, R401). A store whose check leads to storage that its function reaches, not an
alias block, is made in the core's L1, which holds the line or has room for it, where loads of that core read its bytes; memory is not
changed with the function's dirty log off. The bytes are dirty; those of a replicated page are clean, and the store joins the
sequencer's queue. A store to an alias block is made at its home at once; one to a peer that the function cannot reach is not made, and
reports POISON. -/
def Says.L1Stores : Prop := ∀ (s : State) (c sl va spa : Nat) (pte : Word) (bs : List Byte) (p pc : Word),
  let owner := s.ownerOf c
  s.holeAt owner spa = false →
  (s.lost owner spa = true → s.storeGlob c sl va pte spa bs p pc = .ok (s.report c sl { cause := 0x16, taddr := p, tval := pc }) ()) ∧
  (s.lost owner spa = false → pteMX pte = true → ∃ u, s.storeGlob c sl va pte spa bs p pc = .ok u () ∧ ∀ c', u.core c' = s.core c') ∧
  (s.lost owner spa = false → pteMX pte = false → s.hasRoom c (va / 64) = true → (s.fnc (s.ctx owner).fn).dlEn = false →
    ∃ u, s.storeGlob c sl va pte spa bs p pc = .ok u () ∧ u.mem = s.mem ∧ l1Bytes (u.core c).l1 va bs.length = some bs ∧
    (∀ k < bs.length, ∃ x, l1Find (u.core c).l1 (va + k) = some x ∧ x.dirty = !pteRP pte ∧ (x.slot, x.ptr, x.pc) = (sl, p, pc)) ∧
    u.hub.seqQ = s.hub.seqQ ++ (if pteRP pte then [{ core := c, spa, data := bs }] else []) ∧
    (∀ a, (a < va ∨ va + bs.length ≤ a) → l1Find (u.core c).l1 a = l1Find (s.core c).l1 a) ∧
    { u.core c with l1 := (s.core c).l1 } = s.core c ∧ ∀ c', c' ≠ c → u.core c' = s.core c')

/-- What a load of global space reads (R143, R145, R157, R297, R309, R356). Where the core's L1 holds every byte, and its line's home is not
poisoned, those bytes. Otherwise, not through the alias, with room for the line and a home that is not poisoned, each byte is the
core's own dirty byte, or else the one that stands at the home, all of them at one time (that the whole line is filled then is the model's
choice, log 7); memory is not changed and the core holds the line from then on. A line whose home is poisoned reads as poisoned. -/
def Says.GlobalLoads : Prop := ∀ (s : State) (c va spa n : Nat) (pte : Word),
  let owner := s.ownerOf c
  let fn := (s.ctx owner).fn
  let v := if pteRP pte then s.settleSeq c else s
  let home := v.readAt (dieOf c) pte (spa / 64 * 64)
  s.holeAt owner spa = false → pteMX pte = false → va % 64 + n ≤ 64 →
  (∀ bs, l1Bytes (v.core c).l1 va n = some bs → v.poison.contains (v.readAt (dieOf c) pte spa / 64) = false →
    s.loadGlob c va pte spa n = .ok v (bs, false)) ∧
  (l1Bytes (v.core c).l1 va n = none → v.bandwidthOk fn (v.readAt (dieOf c) pte spa) 64 = true → v.hasRoom c (va / 64) = true →
    (v.readPoison fn home = true → ∃ u bs, s.loadGlob c va pte spa n = .ok u (bs, true)) ∧
    (v.readPoison fn home = false → ∃ u bs, s.loadGlob c va pte spa n = .ok u (bs, false) ∧ bs.length = n ∧
      u.mem = v.mem ∧ u.poison = v.poison ∧ (l1Bytes (u.core c).l1 (va / 64 * 64) 64).isSome = true ∧
      { u.core c with l1 := (v.core c).l1 } = v.core c ∧
      ∀ k < n, bs.getD k 0 = match List.find? (fun b => b.va == va + k && b.dirty) (v.core c).l1 with
        | some b => b.b
        | none => v.mem.get (home + (va + k) % 64)))

/-- A write-back of a line (R157, R405): where the line's walk finds a leaf that is no alias, its home is not sealed, not withheld and
reachable, and has no replica, its dirty bytes stand at their home, every other byte of memory is as the walk left it, and no byte of
the line is dirty any more; the core still holds what it held. -/
def Says.WriteBacks : Prop := ∀ (s s1 : State) (c line lvl lvl' at_ : Nat) (e e' : Word),
  let owner := s.ownerOf c
  let fn := (s.ctx owner).fn
  let spa := leafSpa e' lvl' (line * 64)
  let home := s1.redirect spa
  let dirty := (s.core c).l1.filter (fun b => b.va / 64 == line && b.dirty)
  s.memOk → (dirty.map (·.va)).Nodup → dirty ≠ [] →
  s.walk (dieOf c) (line * 64) true = (s1, .leaf e lvl) → s1.sealedIn (leafSpa e lvl (line * 64)) = none →
  s1.leafOf (line * 64) = some (at_, e', lvl') → pteMX e' = false → s1.bandwidthOk fn home 64 = true → s1.homeUp fn home = true →
  s1.replicaLines (spa / 64) = [] →
  let u := s.writeBackLine c line
  u.lineClean c line = true ∧
  (∀ a, u.mem.get a = match dirty.find? (fun b => home / 64 * 64 + b.va % 64 == a) with
    | some b => b.b
    | none => s1.mem.get a) ∧
  (u.core c).l1.map (fun b => (b.va, b.b)) = (s.core c).l1.map (fun b => (b.va, b.b)) ∧
  ∀ c', c' ≠ c → u.core c' = s.core c'

/-- The number that an element's bits stand for in a format is a magnitude m × 2^e with a sign. -/
def StandsFor (f : Fmt) (b : Nat) (neg : Bool) (m : Nat) (e : Int) : Prop :=
  ∃ y, f.val b = .num y ∧ y.neg = neg ∧ ∀ k, k ≤ e → k ≤ y.e → y.m * 2 ^ (y.e - k).toNat = m * 2 ^ (e - k).toNat

/-- Reads through the MX alias (R60, R61). A load reads at its home, byte by byte, the block's 32 BF16 values, of which value j is the
element j under the block's scale; the alias saturation count rises by 1 for each element read that became an infinity. An element's value
is the default NaN under the scale 255, else a NaN with its sign, and else the element times 2^(scale − 127): that number itself where
the scale code is 3 or more and it does not pass the largest BF16 number, and the infinity of its sign where it does. -/
def Says.AliasReads : Prop :=
  (∀ (s : State) (owner die va spa n : Nat) (pte : Word), pteMX pte = true → va % 64 + n ≤ 64 →
    let block := spa / 32 * 32
    let at_ := s.dev.devnum.toNat * 2 ^ 45 + s.dev.mxscale.toNat + (block % 2 ^ 45 - s.dev.mxbase.toNat) / 32
    let elem (j : Nat) : Nat × Bool := mxReadElem (s.mem.get at_).toNat (s.mem.get (block + j)).toNat
    let lost := ((List.range 32).filter (fun j => decide (va % 64 / 2 ≤ j) && decide (2 * j < va % 64 + n) && (elem j).2)).length
    let (u, bs, _) := s.readHome owner die va pte spa n
    bs.length = n ∧ u.mem = s.mem ∧ (u.ctx owner).aliasSat = (s.ctx owner).aliasSat + BitVec.ofNat 64 lost ∧
    ∀ k < n, bs.getD k 0 = BitVec.ofNat 8 ((elem ((va % 64 + k) / 2)).1 / 256 ^ ((va % 64 + k) % 2))) ∧
  (∀ scale q, scale < 256 → q < 256 →
    (scale = 255 → mxReadElem scale q = (0x7FC0, false)) ∧
    (scale ≠ 255 → q % 128 = 127 → mxReadElem scale q = (if q = 255 then 0xFFC0 else 0x7FC0, false)) ∧
    (3 ≤ scale → scale ≠ 255 → q % 128 ≠ 127 → ∀ x, Fmt.e4m3.val q = .num x →
      let big : Prop := x.m * 2 ^ (x.e + scale + 9).toNat > 255 * 2 ^ (120 + 127 + 9)
      (big → mxReadElem scale q = (if x.neg then 0xFF80 else 0x7F80, true)) ∧
      (¬big → (mxReadElem scale q).2 = false ∧ StandsFor .bf16 (mxReadElem scale q).1 x.neg x.m (x.e + scale - 127))))

/-- Writes through the MX alias (R62, R63). A write of a whole block takes the scale that the largest finite magnitude m × 2^e of its
values gives: floor(log2) − 8, at least −124 and at most 127, −124 without one; a part keeps the scale, and changes nothing under the
NaN scale (the model's choice, log 49). Each written element is its value quantised under the scale, every other byte of memory is as before, and the alias
saturation count rises by 1 for each that saturates. A value quantises to the NaN with its sign; to ±448, saturating, where its
magnitude passes 464 times the scale or it is infinite; to ±448 in (448, 464] without saturating; and otherwise to what RNE rounds it
to in E4M3's spacing. The example of R62 is the last clause. -/
def Says.AliasWrites : Prop :=
  (∀ (s : State) (owner block : Nat) (vs : List Nat), s.memOk → vs.length = 32 → (∀ v ∈ vs, v < 65536) →
    let at_ := s.mxScaleAt block
    let whole := s.mxWrite owner block (offsets 0 (vs.flatMap (leBytes 2)))
    let scale := mxScaleFor vs
    (∀ j < 32, block + j ≠ at_) →
    (whole.mem.get at_).toNat = scale ∧
    (∀ j < 32, (whole.mem.get (block + j)).toNat = (mxWriteElem scale (vs.getD j 0)).1) ∧
    (∀ a, (a < block ∨ block + 32 ≤ a) → a ≠ at_ → whole.mem.get a = s.mem.get a) ∧
    (whole.ctx owner).aliasSat = (s.ctx owner).aliasSat + BitVec.ofNat 64 ((vs.filter (fun v => (mxWriteElem scale v).2)).length) ∧
    ∀ j n, j + n < 32 ∨ (0 < j ∧ j + n = 32) →
      let part := s.mxWrite owner block (offsets (2 * j) (((vs.drop j).take n).flatMap (leBytes 2)))
      let scale := (s.mem.get at_).toNat
      (scale = 255 → part = s) ∧
      (scale ≠ 255 →
        (∀ i < n, (part.mem.get (block + j + i)).toNat = (mxWriteElem scale (vs.getD (j + i) 0)).1) ∧
        (∀ a, (a < block + j ∨ block + j + n ≤ a) → part.mem.get a = s.mem.get a) ∧
        (part.ctx owner).aliasSat =
          (s.ctx owner).aliasSat + BitVec.ofNat 64 ((((vs.drop j).take n).filter (fun v => (mxWriteElem scale v).2)).length))) ∧
  (∀ (vs : List Nat),
    let finite (v : Nat) (x : Xr) : Prop := v ∈ vs ∧ Fmt.bf16.val v = .num x ∧ x.m ≠ 0
    ((∀ v x, ¬finite v x) → mxScaleFor vs = 3) ∧
    (∀ v x, finite v x → (∀ v' x', finite v' x' → (x'.m.log2 : Int) + x'.e ≤ (x.m.log2 : Int) + x.e) →
      (mxScaleFor vs : Int) = max (-124) (min 127 ((x.m.log2 : Int) + x.e - 8)) + 127)) ∧
  (∀ scale v, 3 ≤ scale → scale < 255 → v < 65536 →
    (∀ n sn, Fmt.bf16.val v = .nan sn n → mxWriteElem scale v = (if n then 0xFF else 0x7F, false)) ∧
    (∀ n, Fmt.bf16.val v = .inf n → mxWriteElem scale v = (if n then 0xFE else 0x7E, true)) ∧
    ∀ x, Fmt.bf16.val v = .num x →
      let exceeds (k : Nat) : Prop := x.m * 2 ^ (x.e + 400).toNat > k * 2 ^ (400 + scale - 127)
      let sign := if x.neg then 0x80 else 0
      (exceeds 464 → mxWriteElem scale v = (sign + 0x7E, true)) ∧ (exceeds 448 → ¬exceeds 464 → mxWriteElem scale v = (sign + 0x7E, false)) ∧
      (¬exceeds 448 → (mxWriteElem scale v).2 = false ∧
        let y := x.scale (127 - (scale : Int))
        let q : Int := if y.m = 0 then -9 else max ((y.m.log2 : Int) + y.e) (-6) - 3
        StandsFor .e4m3 (mxWriteElem scale v).1 x.neg (roundAt .rne 1 y q).1 q)) ∧
  (let vs := 0x447A :: 0x4040 :: List.replicate 30 0
   mxScaleFor vs = 128 ∧ mxWriteElem 128 0x447A = (0x7E, true) ∧ mxReadElem 128 0x7E = (0x4460, false) ∧
   mxReadElem 128 (mxWriteElem 128 0x4040).1 = (0x4040, false))

/-- LDAQ, STRL and the AMOs on a scratchpad (R144, R148, R149, R157, R160): with the pointer aligned and leading to a line that is not
poisoned, and the release part of the ordering at its end, they complete; it is at its end at once where the core has nothing dirty and no
replicated write queued. The release part comes first, the acquire part last; an SC
load has a fence before it. LDAQ sign-extends what it reads; STRL writes the low bytes; an AMO writes the old value to t, sign-extended
(zero-extended by AMOFADD), and the new value, from the old one and b, in its place, AMOCAS only where the old one is the one t
expected. A leader's LDAQ or AMO on another core's scratchpad ends its leadership (R334); what a store replaces is kept for the thread's
fetches (R207). -/
def Obligations.OrderedAndAtomic : Prop := ∀ (s before fenced : State) (w : Width) (o : Ord) (sc : Scope) (t b a : Reg) (c off : Nat),
  let n := if w = .w32 then 4 else 8
  let m := 2 ^ (8 * n)
  let p := s.g a
  let ref (v : State) : State := v.noteRef (c != v.cur.1)
  let keep (v : State) : State := v.noteTarget v.cur.1 v.cur.2 (.spad c off) n
  let leads (v : State) (p : Word) : Prop := p.toNat / 2 ^ 48 % 256 = 0xF8 ∧ p.toNat % n = 0 ∧ v.spadTarget v.cur.1 p = some (c, off)
  ((∀ b ∈ s.cpu.l1, b.dirty = false) → (∀ w ∈ s.hub.seqQ, w.core ≠ s.cur.1) →
    s.relPart o sc = .ok s () ∧ s.scBefore o sc = .ok (if o = .sc then s.acquire s.cur.1 sc else s) ()) ∧
  (s.relPart o sc = .ok before () → s.scBefore o sc = .ok fenced () →
  let x := (s.g b).toNat % m
  let y := (s.g t).toNat % m
  let sgn (z : Nat) : Int := (BitVec.ofNat (8 * n) z).toInt
  let old := (before.core c).spad.le off n
  let F := widthFmt w
  let sum := roundPre F .rne (preAdd .rne (F.val old) (F.val x)) {}
  let rmw (i : Instr) (new : Option Nat) (back : Word) (fl : BitVec 6) : Prop :=
    let u := (match new with
      | some z => (keep (ref before)).spadWrite c off (leBytes n z)
      | none => keep (ref before)).setG t back
    exec i s = .next ((u.setTh { u.th with fflags := u.th.fflags ||| fl }).acqPart o sc)
  let int (i : Instr) (new : Nat) : Prop := rmw i (some new) (BitVec.ofInt 64 (sgn old)) 0
  (leads fenced (fenced.g a) → (off / 64) ∉ (fenced.core c).spadPoison → exec (.ldaq w o sc t a) s =
    .next (((ref fenced).acqPart o sc).setG t (BitVec.ofInt 64 (sgn ((fenced.core c).spad.le off n))))) ∧
  (leads s p → exec (.strl w o sc t a) s = .next
    (let u := (keep before).spadWrite c off (leBytes n (s.g t).toNat)
     if o = .sc then u.acquire u.cur.1 sc else u)) ∧
  (leads s p → (off / 64) ∉ (before.core c).spadPoison →
  int (.amoadd w o sc t b a) ((old + x) % m) ∧ int (.amoand w o sc t b a) ((old &&& x) % m) ∧
  int (.amoor w o sc t b a) ((old ||| x) % m) ∧ int (.amoxor w o sc t b a) ((old ^^^ x) % m) ∧
  int (.amomin w o sc t b a) ((if sgn old < sgn x then old else x) % m) ∧
  int (.amomax w o sc t b a) ((if sgn old < sgn x then x else old) % m) ∧
  int (.amominu w o sc t b a) ((if old < x then old else x) % m) ∧ int (.amomaxu w o sc t b a) ((if old < x then x else old) % m) ∧
  int (.amoswp w o sc t b a) (x % m) ∧
  rmw (.amocas w o sc t b a) (if old = y then some x else none) (BitVec.ofInt 64 (sgn old)) 0 ∧
  rmw (.amofadd w o sc t b a) (some sum.1) (BitVec.ofNat 64 old) sum.2.flags))

/-- FENCE, PREF, CFLUSH and CINV (R146, R150, R151, R157, R163). A fence makes its release part, then its acquire part: a release wider than
core ends with no dirty byte in the core's L1, and waits until then; an acquire wider than core leaves no clean byte in it; with nothing
dirty there and no write of the core to a replicated page waiting, the fence completes at once. PREF, with no write waiting for the
sequencer of replicated pages and room for the line, changes no thread, no other core, no byte of memory and no context. CFLUSH and CINV
do nothing in the scratchpad and device windows; elsewhere, where the check as a read of one byte passes, the line's dirty bytes are
written back, at system scope the die cache's copy too, and after CINV its clean ones are gone; they wait while a byte stays dirty. -/
def Obligations.FencesAndMaintenance : Prop := ∀ (s : State) (o : Ord) (sc : Scope) (h : Hint) (a : Reg) (disp : BitVec 12),
  let p := s.g a
  let line := p.toNat % 2 ^ 56 / 64
  let q := { s.req p 1 true false with devOk := true }
  let rel : Prop := o ∈ [Ord.rel, .ar, .sc]
  s.Accesses (.fence o sc) (s.relPart o sc) (fun u _ => u.acqPart o sc) ∧
  (rel → sc ≠ .core → (∀ u, s.relPart o sc = .ok u () → ∀ b ∈ (u.core s.cur.1).l1, b.dirty = false) ∧
    ∀ u w, s.relPart o sc = .wait u w → w = .flush ∧ ∃ b ∈ (u.core s.cur.1).l1, b.dirty = true) ∧
  ((∀ b ∈ s.cpu.l1, b.dirty = false) → (∀ w ∈ s.hub.seqQ, w.core ≠ s.cur.1) → exec (.fence o sc) s = .next (s.acqPart o sc)) ∧
  (sc ≠ .core → ∀ b ∈ ((s.acquire s.cur.1 sc).core s.cur.1).l1, b.dirty = true ∧ b ∈ s.cpu.l1) ∧
  (s.hub.seqQ = [] → s.hasRoom s.cur.1 ((s.effective a disp 64).toNat % 2 ^ 56 / 64) = true →
    ∃ u, exec (.pref h a disp) s = .next u ∧ u.mem = s.mem ∧ (∀ c sl, u.thread c sl = s.thread c sl) ∧ (∀ i, u.ctx i = s.ctx i) ∧
      ∀ c, c ≠ s.cur.1 → u.core c = s.core c) ∧
  (p.toNat / 2 ^ 48 % 256 = 0xF8 ∨ p.toNat / 2 ^ 48 % 256 = 0xFC →
    exec (.cflush sc a) s = .next s ∧ exec (.cinv sc a) s = .next s) ∧
  (p.toNat / 2 ^ 48 % 256 < 0xE0 → ∀ u t, s.check q = .ok u t →
    let v := u.writeBackLine u.cur.1 line
    let done := if sc = .sys then v.dieFlush (p.toNat % 2 ^ 56) else v
    (v.lineClean v.cur.1 line = true →
      exec (.cflush sc a) s = .next done ∧ exec (.cinv sc a) s = .next (done.dropCleanLine done.cur.1 line)) ∧
    (v.lineClean v.cur.1 line = false →
      exec (.cflush sc a) s = .next ((v.setTh (v.thBefore s)).waitOn .flush) ∧ exec (.cinv sc a) s = .next ((v.setTh (v.thBefore s)).waitOn .flush)))

/-- The plain loads, where a load of global space reads, and what the MX alias reads. -/
def Obligations.Loads : Prop := Says.PlainLoads ∧ Says.GlobalLoads ∧ Says.AliasReads

/-- The plain stores, and what a store through the MX alias writes. -/
def Obligations.Stores : Prop := Says.PlainStores ∧ Says.AliasWrites

/-- A store to global space is made in the core's L1, and how its bytes reach memory. -/
def Obligations.StoresEnterTheCache : Prop := Says.L1Stores ∧ Says.WriteBacks

/-! ### Vector instructions and streams (spec/10_vector_streams.md) -/

/-- A vector instruction outside memory and streams (R222 to R231): with every register it names inside the thread's window and unbound,
any pending prefix admitted and the queue not full, it completes: its operation, with its result, enters the thread's queue, the prefix
is consumed, the seed advances, the core's count of operations rises, and nothing else changes until VECTOR_OP_COMPLETE. Lanes are computed in increasing order, each operand
lane at the format's width; VCMP gives all ones or zero; VSEL takes the lanes of a, at the format's width, where those of the old vd are nonzero; VCVT converts
the part that its field names and leaves the other lanes; a reduction puts the tree's result into lane 0 with zero above; VEXT writes a
scalar; VINS replaces one lane; VPERM takes zero for an index beyond the lanes. A name outside the window raises VWIN, and a full queue
holds the step back. -/
def Obligations.VectorIssue : Prop := ∀ (s : State) (w : Width) (rm : RM) (sat : Bool) (d ra rb : VReg) (part : BitVec 4)
    (ln : BitVec 6) (rg : Reg) (fn : TFn),
  let t := s.th
  let base := if t.pp then t.setPrefix false 0 else t
  let a := s.v ra
  let b := s.v rb
  let old := s.v d
  let l : Fl := { flags := 0, seed := t.srseed }
  let F (dflt : Fmt) : Fmt := if t.pp then pfFmt1 t.pf else dflt
  let G (dflt : Fmt) : Fmt := if t.pp then pfFmtD t.pf else dflt
  let vec (i : Instr) (rule : PfxRule) (named : List VReg) (ok : Prop) (op : VecOp) (fl : Fl) : Prop :=
    (t.pp = true → rule.admits t.pf = true) →
    ((∃ r ∈ named, t.id.w ≤ r.toNat) → s.Traps i { cause := 0x0D, taddr := 0, tval := 0 }) ∧
    ((∀ r ∈ named, r.toNat < t.id.w ∧ t.boundTo r = none) →
      (¬ok → s.Traps i (s.badWord .illins)) ∧
      (ok → t.queue.length < 2 → exec i s = .next ((s.setCpu { s.cpu with ops := s.cpu.ops + 1 }).setTh { base with
          queue := t.queue ++ [.vec { op with pc := t.pc, word := s.iss.word, flags := fl.flags, enabled := t.fenable, seq := s.cpu.ops }]
          srseed := fl.seed })) ∧
      (ok → 2 ≤ t.queue.length → exec i s = .next (s.waitOn .queueFull)))
  let lanes (i : Instr) (rule : PfxRule) (dflt : Fmt) (srcs : List VReg) (named : List VReg) (f : Fmt → LaneOp) : Prop :=
    let r := mapLanes (f (F dflt)) (zipLanes (F dflt) (srcs.map s.v)) l
    vec i rule named True { pc := 0, vd := some (d, ofVLanes (F dflt) r.1) } r.2
  let whole (i : Instr) (rule : PfxRule) (named : List VReg) (ok : Prop) (x : V512) : Prop :=
    vec i rule named ok { pc := 0, vd := some (d, x) } l
  let W := widthFmt w
  let I := if w = .w32 then Fmt.int32 else .int64
  let n := fmtLanes (F W)
  let tree (f : LaneOp) (ident : Nat) : Nat × Fl :=
    treeReduce f 7 ((List.range n).map (fun i =>
      if rb ≠ ra ∧ lane (F W).store b i = 0 then ident else laneBits (F W) a i)) l
  let reduce (i : Instr) (r : Nat × Fl) : Prop :=
    vec i ruleArith [d, ra, rb] True { pc := 0, vd := some (d, ofVLanes (F W) [r.1]) } r.2
  let add (F : Fmt) : LaneOp := arithLane F rm (vals2 (preAdd rm)) (ints2 (· + ·))
  let mul (F : Fmt) : LaneOp := arithLane F rm (vals2 preMul) (ints2 (· * ·))
  let dot := treeReduce (add (F W)) 7 (mapLanes (mul (F W)) (zipLanes (F W) [a, b]) l).1 (mapLanes (mul (F W)) (zipLanes (F W) [a, b]) l).2
  let N := min (fmtLanes (F W)) (fmtLanes (G W))
  let cv := mapLanes (fun x l => convert (F W) (G W) rm sat (x.headD 0) l)
    ((List.range N).map (fun i => [laneBits (F W) a (if fmtLanes (F W) > fmtLanes (G W) then part.toNat * N + i else i)])) l
  let first := if fmtLanes (G W) > fmtLanes (F W) then part.toNat * N else 0
  lanes (.vadd w rm d ra rb) ruleArith W [ra, rb] [d, ra, rb] add ∧
  lanes (.vsub w rm d ra rb) ruleArith W [ra, rb] [d, ra, rb]
    (fun F => arithLane F rm (vals2 (fun x y => preAdd rm x y.negate)) (ints2 (· - ·))) ∧
  lanes (.vmul w rm d ra rb) ruleArith W [ra, rb] [d, ra, rb] mul ∧
  lanes (.vfma w rm d ra rb) ruleArith W [ra, rb, d] [d, ra, rb]
    (fun F => arithLane F rm (vals3 (preFma rm)) (ints3 (fun x y z => x * y + z))) ∧
  lanes (.vfms w rm d ra rb) ruleArith W [ra, rb, d] [d, ra, rb]
    (fun F => arithLane F rm (vals3 (fun x y z => preFma rm x y z.negate)) (ints3 (fun x y z => x * y - z))) ∧
  lanes (.vdiv w rm d ra rb) ruleArith W [ra, rb] [d, ra, rb]
    (fun F => arithLane F rm (vals2 preDiv) (ints2 (fun x y => if y = 0 then -1 else x.tdiv y))) ∧
  lanes (.vsqrt w rm d ra) ruleSqrt W [ra] [d, ra] (fun F xs l => roundPre F rm (preSqrt (F.val (xs.headD 0))) l) ∧
  lanes (.vmin w rm d ra rb) ruleArith W [ra, rb] [d, ra, rb] (fun F => minMaxLane F false) ∧
  lanes (.vmax w rm d ra rb) ruleArith W [ra, rb] [d, ra, rb] (fun F => minMaxLane F true) ∧
  whole (.vand w rm d ra rb) ruleNone [d, ra, rb] True (a &&& b) ∧ whole (.vor w rm d ra rb) ruleNone [d, ra, rb] True (a ||| b) ∧
  whole (.vxor w rm d ra rb) ruleNone [d, ra, rb] True (a ^^^ b) ∧ whole (.vmov w rm d ra) ruleNone [d, ra] True a ∧
  lanes (.vsll w rm d ra rb) ruleShift I [ra, rb] [d, ra, rb] (fun F => shiftLane F (fun x k => x * 2 ^ k)) ∧
  lanes (.vsrl w rm d ra rb) ruleShift I [ra, rb] [d, ra, rb] (fun F => shiftLane F (fun x k => x / 2 ^ k)) ∧
  lanes (.vsra w rm d ra rb) ruleShift I [ra, rb] [d, ra, rb] (fun F => shiftLane F (sraBits F)) ∧
  lanes (.vcmpeq w rm d ra rb) ruleArith W [ra, rb] [d, ra, rb] (fun F => cmpLane F true (· == 0)) ∧
  lanes (.vcmplt w rm d ra rb) ruleArith W [ra, rb] [d, ra, rb] (fun F => cmpLane F false (· == -1)) ∧
  lanes (.vcmple w rm d ra rb) ruleArith W [ra, rb] [d, ra, rb] (fun F => cmpLane F false (fun c => c == -1 || c == 0)) ∧
  whole (.vsel w rm d ra rb) ruleSel [d, ra, rb] True (ofVLanes (F W) ((List.range n).map (fun i =>
    if lane (F W).store old i ≠ 0 then laneBits (F W) a i else laneBits (F W) b i))) ∧
  vec (.vcvt w rm sat d ra part) ruleVcvt [d, ra] (part.toNat < max (fmtLanes (F W)) (fmtLanes (G W)) / N)
    { pc := 0, vd := some (d, ofVLanes (G W) ((List.range (fmtLanes (G W))).map (fun i =>
        if first ≤ i ∧ i < first + N then cv.1.getD (i - first) 0 else lane (G W).store old i))) } cv.2 ∧
  reduce (.vrsum w rm d ra rb) (tree (add (F W)) 0) ∧
  reduce (.vrmax w rm d ra rb) (tree (minMaxLane (F W) true) (extremeBits (F W) true)) ∧
  reduce (.vrmin w rm d ra rb) (tree (minMaxLane (F W) false) (extremeBits (F W) false)) ∧ reduce (.vdot w rm d ra rb) dot ∧
  whole (.vbcst w rm d (.g rg)) ruleBcst [d] True
    (ofVLanes (G W) (List.replicate (fmtLanes (G W)) ((s.g rg).toNat % 2 ^ (G W).bits))) ∧
  whole (.vbcst w rm d (.f rg)) ruleBcst [d] True
    (ofVLanes (G W) (List.replicate (fmtLanes (G W)) ((s.f rg).toNat % 2 ^ (G W).bits))) ∧
  vec (.vext w rm (.g rg) ra ln) ruleExt [ra] (ln.toNat < n) { pc := 0, gd := some (rg, laneWord (F W) (laneBits (F W) a ln.toNat)) } l ∧
  vec (.vext w rm (.f rg) ra ln) ruleExt [ra] (ln.toNat < n) { pc := 0, fd := some (rg, BitVec.ofNat 64 (laneBits (F W) a ln.toNat)) } l ∧
  whole (.vins w rm d (.g rg) ln) ruleBcst [d] (ln.toNat < fmtLanes (G W))
    (setFld old ((G W).store * ln.toNat) (G W).store ((s.g rg).toNat % 2 ^ (G W).bits)) ∧
  whole (.vins w rm d (.f rg) ln) ruleBcst [d] (ln.toNat < fmtLanes (G W))
    (setFld old ((G W).store * ln.toNat) (G W).store ((s.f rg).toNat % 2 ^ (G W).bits)) ∧
  whole (.vperm w rm d ra rb) ruleSel [d, ra, rb] True (ofVLanes (F W) ((List.range n).map (fun i =>
    let j := laneBits (F W) b i
    if j < n then laneBits (F W) a j else 0))) ∧
  lanes (.vfn w rm d ra fn) ruleFn W [ra] [d, ra] (fun F xs l => transc fn F rm (xs.headD 0) l)

/-- The lanes and the tree (R59, R221, R225, R226). A register put together from lanes has them at the format's width, low lane first; a
floating lane rounds its exact result once, an integer lane keeps the low bits of its exact result; the seeds of lanes follow one
another; a reduction of eight lanes adds neighbours, then pairs, then halves. -/
def Obligations.VectorLanes : Prop := ∀ (F : Fmt) (rm : RM) (xs : List Nat) (f : LaneOp) (x : List Nat) (t : List (List Nat)) (l : Fl)
    (a b : Nat) (g : LaneOp) (z : Fin 8 → Nat),
  (∀ v i, laneBits F v i = (v.toNat / 2 ^ (F.store * i)) % 2 ^ F.bits) ∧
  (∀ i, i < fmtLanes F → lane F.store (ofVLanes F xs) i = xs.getD i 0 % 2 ^ F.store) ∧
  fmtLanes F * F.store = 512 ∧
  mapLanes f [] l = ([], l) ∧
  mapLanes f (x :: t) l = ((f x l).1 :: (mapLanes f t (f x l).2).1, (mapLanes f t (f x l).2).2) ∧
  (F.isFp = true → arithLane F rm (vals2 (preAdd rm)) (ints2 (· + ·)) [a, b] l = roundPre F rm (preAdd rm (F.val a) (F.val b)) l) ∧
  (F.isFp = false → (arithLane F rm (vals2 (preAdd rm)) (ints2 (· + ·)) [a, b] l).2 = l ∧
    (arithLane F rm (vals2 (preAdd rm)) (ints2 (· + ·)) [a, b] l).1 = (a + b) % 2 ^ F.bits ∧
    (arithLane F rm (vals2 preMul) (ints2 (· * ·)) [a, b] l).1 = a * b % 2 ^ F.bits ∧
    ((arithLane F rm (vals2 (fun x y => preAdd rm x y.negate)) (ints2 (· - ·)) [a, b] l).1 + b) % 2 ^ F.bits = a % 2 ^ F.bits) ∧
  (a < 2 ^ F.bits → shiftLane F (sraBits F) [a, b] l =
    (((BitVec.ofNat F.bits a).toInt / 2 ^ (b % F.bits) % 2 ^ F.bits).toNat, l)) ∧
  (let p := fun (i j : Nat) (l : Fl) => g [i, j] l
   let r1 := p (z 0) (z 1) l
   let r2 := p (z 2) (z 3) r1.2
   let r3 := p (z 4) (z 5) r2.2
   let r4 := p (z 6) (z 7) r3.2
   let q1 := p r1.1 r2.1 r4.2
   let q2 := p r3.1 r4.1 q1.2
   treeReduce g 7 ((List.finRange 8).map z) l = p q1.1 q2.1 q2.2)

/-- The vector memory instructions (R152 to R155): the pointers of each, every lane checked at issue in increasing order and then read,
or written when the operation completes. With the registers in the window and unbound and the queue not full they complete; a lane of a
poisoned line is zero and is reported (DEF POISON, taddr its pointer, tval the step). A lane's trap is the instruction's. Where every
lane is an aligned pointer to a scratchpad of the domain, whose lines are not poisoned for a load, the instruction completes, with the
bytes that stand there or with the register's lanes for those places. -/
def Obligations.VectorMemory : Prop := ∀ (s : State) (v : VReg) (b x : Reg) (disp : BitVec 6) (e : ESz),
  let t := s.th
  let z := match e with | .b => 1 | .h => 2 | .w => 4 | .d => 8
  let line := [s.g b + BitVec.ofInt 64 (64 * disp.toInt)]
  let strided := (List.range (64 / z)).map (fun i => s.g b + BitVec.ofNat 64 i * s.g x)
  let index := s.v (x.setWidth 6)
  let gathered := (List.range (min (64 / z) 16)).map (fun i => s.g b + BitVec.ofInt 64 (index.extractLsb' (32 * i) 32).toInt)
  let free (named : List VReg) : Prop := (∀ r ∈ named, r.toNat < t.id.w ∧ t.boundTo r = none) ∧ t.queue.length < 2
  let queued (u : State) (op : VecOp) : State := (u.setCpu { u.cpu with ops := u.cpu.ops + 1 }).setTh { u.th with
    queue := u.th.queue ++ [.vec { op with pc := u.th.pc, word := s.iss.word, enabled := u.th.fenable, seq := u.cpu.ops }] }
  let place (p : Word) : Nat × Nat := (s.spadTarget s.cur.1 p).getD (0, 0)
  let near (n : Nat) (p : Word) : Prop := p.toNat / 2 ^ 48 % 256 = 0xF8 ∧ p.toNat % n = 0 ∧ (s.spadTarget s.cur.1 p).isSome = true
  let loads (i : Instr) (named : List VReg) (n : Nat) (ps : List Word) : Prop := free named →
    ((∀ p ∈ ps, near n p ∧ (place p).2 / 64 ∉ (s.core (place p).1).spadPoison) →
      exec i s = .next (queued s
        { pc := 0, vd := some (v, ofVBytes (ps.flatMap (fun p => (s.core (place p).1).spad.bytes (place p).2 n))) })) ∧
    (∀ u c, s.checkLanes false n 0 ps = .trap u c → exec i s = .next ((u.setTh (u.thBefore s)).raise c)) ∧
    ∀ s1 xs, s.checkLanes false n 0 ps = .ok s1 xs → ∀ s2 r, s1.readLanes s1.cur.1 n xs = .ok s2 r →
      exec i s = .next (queued s2 { pc := 0, vd := some (v, ofVBytes r.1.flatten)
                                    reports := r.2.map (fun p => { cause := 0x216, taddr := p, tval := s2.th.pc }) })
  let stores (i : Instr) (named : List VReg) (n : Nat) (ps : List Word) : Prop := free named →
    ((∀ p ∈ ps, near n p) → exec i s = .next (queued s { pc := 0, stores := (ps.zip (List.range ps.length)).map (fun p =>
        (.spad (place p.1).1 (place p.1).2, ((vBytes (s.v v)).drop (n * p.2)).take n, p.1)) })) ∧
    (∀ u c, s.checkLanes true n 0 ps = .trap u c → exec i s = .next ((u.setTh (u.thBefore s)).raise c)) ∧
    ∀ s1 xs, s.checkLanes true n 0 ps = .ok s1 xs → s1.writesReady xs = none →
      exec i s = .next (queued s1 { pc := 0, stores := (xs.zip (List.range xs.length)).map (fun p =>
        (p.1.2, ((vBytes (s.v v)).drop (n * p.2)).take n, p.1.1)) })
  loads (.vld v b disp) [v] 64 line ∧ stores (.vst v b disp) [v] 64 line ∧
  loads (.vlds e v b x) [v] z strided ∧ stores (.vsts e v b x) [v] z strided ∧
  loads (.vgth e v b x) [v, x.setWidth 6] z gathered ∧ stores (.vsct e v b x) [v, x.setWidth 6] z gathered

/-- The engines take up queues and the vector unit completes (R222 to R224, R336). ENGINE_ACCEPT moves the head of a slot's queue to its
engine where the visiting order names the slot and the engine is free, a copy to the slot's own place; a thread held back by its full
queue issues again; the matrix engine takes up one while those it holds all wait on a page (the model's reading, log 33); the service of a
vector unit is progress of the context (R337, R339). VECTOR_OP_COMPLETE writes what the oldest
accepted operation computed to its thread's registers and its bytes to their targets, ORs its flags into fflags and reports FPX,
deferred, where one of them was enabled at issue; a thread whose DONE waited for it ends with its last one, and one whose trap did enters
its trap (R223). -/
def Obligations.EnginesAcceptAndComplete : Prop := ∀ (s : State),
  let c := s.ev.c
  let sl := s.ev.sl
  let k := s.core c
  let t := k.thread sl
  (t.queue = [] → exec .engineAccept s = .next s) ∧
  (∀ v q n, t.queue = .vec v :: q → k.nextServed .vec = some (sl, n) → k.vx = [] → ∃ u, exec .engineAccept s = .next u ∧
    (u.core c).vx = [(sl, v)] ∧ (u.thread c sl).queue = q ∧ (u.thread c sl).wait = (if t.wait = .queueFull then .none else t.wait) ∧
    (u.core c).mx = k.mx ∧ (u.core c).cps = k.cps ∧ u.mem = s.mem ∧
    ∀ j, (s.ctx (s.ownerOf c)).job = some j → (u.ctx (s.ownerOf c)).job = some { j with progress := 0, expired := false }) ∧
  (∀ m q n, t.queue = .mat m :: q → k.nextServed .mat = some (sl, n) → (∀ e ∈ k.mx, e.2.waitPage.isSome) → ∃ u, exec .engineAccept s = .next u ∧
    (u.core c).mx = k.mx ++ [(sl, m)] ∧ (u.thread c sl).queue = q ∧ (u.core c).vx = k.vx ∧ (u.core c).cps = k.cps ∧ u.mem = s.mem) ∧
  (∀ p q, t.queue = .copy p :: q → Map.find? k.cps sl = none → p.kill = false → ∃ u, exec .engineAccept s = .next u ∧
    Map.find? (u.core c).cps sl = some { p with st := .running } ∧ (u.thread c sl).queue = q ∧ (u.core c).mx = k.mx ∧ u.mem = s.mem) ∧
  (k.vx = [] → exec .vectorOpComplete s = .next s) ∧
  (∀ i v rest, k.vx = (i, v) :: rest → v.stores = [] → v.reports = [] → (k.thread i).live = true → (k.thread i).wait ≠ .ending →
    (∀ x a, (k.thread i).wait ≠ .trapping x a) → ∃ u,
    exec .vectorOpComplete s = .next u ∧ (u.core c).vx = rest ∧ u.mem = s.mem ∧
    (∀ r x, v.vd = some (r, x) → (u.thread c i).vr r = x) ∧ (∀ r x, v.gd = some (r, x) → (u.thread c i).gr r = if r = 0 then 0 else x) ∧
    (∀ r x, v.fd = some (r, x) → (u.thread c i).fr r = x) ∧
    (∀ r, (∀ x, v.vd ≠ some (r, x)) → (u.thread c i).vr r = (k.thread i).vr r) ∧
    (∀ r, (∀ x, v.gd ≠ some (r, x)) → (u.thread c i).gr r = (k.thread i).gr r) ∧
    (∀ r, (∀ x, v.fd ≠ some (r, x)) → (u.thread c i).fr r = (k.thread i).fr r) ∧
    (u.thread c i).fflags = (k.thread i).fflags ||| v.flags ∧
    (v.flags &&& v.enabled = 0 → (u.thread c i).reports = (k.thread i).reports) ∧
    (v.flags &&& v.enabled ≠ 0 → (k.thread i).reports.length < 4 → (u.thread c i).reports = (k.thread i).reports ++
      [{ cause := 0x208, taddr := v.flags.setWidth 64, tval := v.pc }])) ∧
  (∀ i v rest c' off bs ptr, k.vx = (i, v) :: rest → v.stores = [(.spad c' off, bs, ptr)] → v.reports = [] → v.flags &&& v.enabled = 0 →
    (k.thread i).wait ≠ .ending → (∀ x a, (k.thread i).wait ≠ .trapping x a) →
    ∃ u, exec .vectorOpComplete s = .next u ∧ (u.core c).vx = rest ∧ u.mem = s.mem ∧
      (u.core c').spad = (s.core c').spad.setBytes off bs ∧ ∀ j, j ≠ c' → (u.core j).spad = (s.core j).spad) ∧
  (∀ i v rest, k.vx = (i, v) :: rest → v.stores = [] → v.reports = [] → v.flags &&& v.enabled = 0 → (k.thread i).wait = .ending →
    ({ k with vx := rest }.vecBusy i = false → ∃ u, exec .vectorOpComplete s = .next u ∧ (u.thread c i).live = false) ∧
    ({ k with vx := rest }.vecBusy i = true → ∃ u, exec .vectorOpComplete s = .next u ∧ (u.thread c i).wait = .ending)) ∧
  (∀ i v rest x a, k.vx = (i, v) :: rest → v.stores = [] → v.reports = [] → v.flags &&& v.enabled = 0 → (k.thread i).wait = .trapping x a →
    ({ k with vx := rest }.vecBusy i = true → ∃ u, exec .vectorOpComplete s = .next u ∧ (u.thread c i).wait = .trapping x a) ∧
    ({ k with vx := rest }.vecBusy i = false → (k.thread i).inTrap = false → (k.thread i).tr.uvec ≠ 0 → (k.thread i).tr.tvec ≠ 0 →
      ∃ u, exec .vectorOpComplete s = .next u ∧ (u.thread c i).wait = .none ∧ (u.thread c i).tr.tcause = x.cause ∧
        (u.thread c i).tr.tpc = a ∧ (u.thread c i).inTrap = true ∧ u.cur = s.cur))

/-- The stream ports (R233 to R240). STRCFG binds an unbound port to a register in the window that no port is bound to, with its descriptor
from four registers and as many elements left as the walk has, or raises VWIN or STRFLT 1, 2 or 3 (their order is the model's choice, log
49); STRGO starts a bound port, STRSTOP
unbinds a bound one, and both raise STRFLT 4 otherwise; that the unbound port's fields read as zero is the model's choice (log 49). The
next piece of a walk is as many elements of the row as remain and as fill a register, element k at BASE plus its three indices times
their strides. An instruction that names a running read stream's register takes its next piece, which the port has then claimed; one that
writes a running write stream's register pushes the piece's lanes, which are stored at those elements when it completes, and the register
does not change. STREAM_FETCH_AHEAD reads ahead an element from the next one on that the port does not hold, where its check and its read
succeed. -/
def Says.StreamPorts : Prop := ∀ (s : State) (p : PortNo) (v a : Reg) (w : Width) (rm : RM) (d r : VReg) (i : Fin 4),
  let t := s.th
  let q := t.ports[p.toNat]'p.isLt
  let reg (k : Nat) : Word := s.g (BitVec.ofNat 5 (a.toNat + k))
  let x := reg 1
  let n (lo len : Nat) : Nat := x.toNat / 2 ^ lo % 2 ^ len
  let bound : Port := { st := .bound, base := reg 0, d1 := x, d2 := reg 2, d3 := reg 3, vreg := v.toNat, left := n 0 16 * n 16 16 * n 32 16 }
  let flt (code : Word) : TrapInfo := { cause := 0x35, taddr := 0, tval := code }
  let sets (j : Instr) (new : Port) : Prop := ∃ u, exec j s = .next u ∧ s.OnlyThread u ∧ u.th = { t with ports := t.ports.set p.toNat new p.isLt }
  (t.id.w ≤ v.toNat → s.Traps (.strcfg p v a) { cause := 0x0D, taddr := 0, tval := 0 }) ∧
  (v.toNat < t.id.w → q.st ≠ .unbound → s.Traps (.strcfg p v a) (flt 1)) ∧
  (v.toNat < t.id.w → q.st = .unbound → t.boundTo (v.setWidth 6) ≠ none → s.Traps (.strcfg p v a) (flt 2)) ∧
  (v.toNat < t.id.w → q.st = .unbound → t.boundTo (v.setWidth 6) = none → bound.valid = false → s.Traps (.strcfg p v a) (flt 3)) ∧
  (v.toNat < t.id.w → q.st = .unbound → t.boundTo (v.setWidth 6) = none → bound.valid = true → sets (.strcfg p v a) bound) ∧
  (q.st = .bound → sets (.strgo p) { q with st := .running }) ∧ (q.st ≠ .bound → s.Traps (.strgo p) (flt 4)) ∧
  (q.st ≠ .unbound → sets (.strstop p) {}) ∧ (q.st = .unbound → s.Traps (.strstop p) (flt 4)) ∧
  (t.pp = false → t.queue.length < 2 → d.toNat < t.id.w → r.toNat < t.id.w → t.boundTo d = none → t.boundTo r = some i →
    t.ports[i].st = .running → t.ports[i].isWrite = false → t.ports[i].left ≠ 0 →
    ∀ s1 el, s.checkPiece i 0 t.ports[i].pieceElems = .ok s1 el →
    ∀ s2 val, s1.readPiece s1.cur.1 t.ports[i] el = .ok s2 (val, []) → s2.th = t →
      ∃ u, exec (.vmov w rm d r) s = .next u ∧ u.th = { t with
        ports := t.ports.set i.val t.ports[i].claim
        queue := t.queue ++ [.vec { pc := t.pc, word := s.iss.word, vd := some (d, val), enabled := t.fenable, seq := s2.cpu.ops }] }) ∧
  (t.pp = false → t.queue.length < 2 → d.toNat < t.id.w → r.toNat < t.id.w → t.boundTo r = none → t.boundTo d = some i →
    t.ports[i].st = .running → t.ports[i].isWrite = true → t.ports[i].left ≠ 0 →
    ∀ s1 el, s.checkPiece i 0 t.ports[i].pieceElems = .ok s1 el → s1.writesReady (el.map (fun x => x.2)) = none → s1.th = t →
      ∃ u, exec (.vmov w rm d r) s = .next u ∧ u.th = { t with
        ports := t.ports.set i.val t.ports[i].claim
        queue := t.queue ++ [.vec {
          pc := t.pc, word := s.iss.word, enabled := t.fenable, seq := s1.cpu.ops
          stores := ((List.range el.length).zip el).map (fun e =>
            (e.2.2.2, leBytes t.ports[i].esz ((s.v r).toNat / 2 ^ (8 * t.ports[i].esz * e.1) % 2 ^ (8 * t.ports[i].esz)), e.2.2.1)) }] }) ∧
  (∀ q : Port, let f (x : Word) (lo len : Nat) : Nat := x.toNat / 2 ^ lo % 2 ^ len
    let st (x : Word) (lo : Nat) : Word := (x.extractLsb' lo 32).signExtend 64
    let size := 2 ^ f q.d1 48 2
    let c0 := f q.d1 0 16
    let c1 := f q.d1 16 16
    let k := c0 * c1 * f q.d1 32 16 - q.left
    q.pieceElems = (List.range (min (64 / size) (c0 - k % c0))).map (fun m => (k + m, q.base + BitVec.ofNat 64 ((k + m) % c0) * st q.d2 0 +
      BitVec.ofNat 64 ((k + m) / c0 % c1) * st q.d2 32 + BitVec.ofNat 64 ((k + m) / c0 / c1) * st q.d3 0)) ∧
    q.claim.left = q.left - min (64 / size) (c0 - k % c0)) ∧
  (let c := s.ev.c
   let sl := s.ev.sl
   let th := s.thread c sl
   let q := th.ports[s.ev.port.toNat]'s.ev.port.isLt
   let at_ := { s with cur := (c, sl) }
   let k := q.next + s.ev.k
   th.live = true → q.st = .running → q.isWrite = false → k < q.total → Map.find? q.ahead k = none →
    (∀ s1 tgt, at_.check (at_.req (q.elem k) q.esz true false) = .ok s1 tgt → ∀ s2 bs, s1.load c tgt q.esz = .ok s2 (bs, false) →
      let q2 := (s2.thread c sl).ports[s.ev.port.toNat]'s.ev.port.isLt
      ∃ u, exec .streamFetchAhead s = .next u ∧ (u.thread c sl).ports[s.ev.port.toNat]'s.ev.port.isLt =
        { q2 with ahead := Map.put q2.ahead k (zext bs) } ∧ u.cur = s.cur ∧ u.mem = s2.mem) ∧
    ∀ r x, at_.check (at_.req (q.elem k) q.esz true false) = .trap r x →
      exec .streamFetchAhead s = .next { at_.keepRecords r with cur := s.cur })

/-- Vector instructions on bound registers (R236 to R238). In operand order, a source bound for writing or a destination bound for reading
raises STRFLT 6, one whose port does not run STRFLT 7, one without an element left STRFLT 5 (which comes first where several apply is the
model's choice, log 49). A VEC instruction one of whose sources takes its piece does what it does with the piece's value in that register,
and the port has then claimed it; one whose destination pushes queues, in place of the register's write, the stores of its lanes. VST
stores what it takes, and VLD pushes what it loads, where their line lies in a scratchpad of the domain. -/
def Says.StreamOperands : Prop := ∀ (s : State) (w : Width) (rm : RM) (sat : Bool) (d ra rb : VReg) (part : BitVec 4)
    (ln : BitVec 6) (rg b x : Reg) (disp : BitVec 6) (e : ESz) (fn : TFn) (i : Fin 4),
  let t := s.th
  let q := t.ports[i]
  let n := fmtLanes (widthFmt w)
  let two (l : List (Width → RM → VReg → VReg → VReg → Instr)) : List (Instr × List VReg × Option VReg × Prop) :=
    l.map (fun f => (f w rm d ra rb, [ra, rb], some d, True))
  let ops : List (Instr × List VReg × Option VReg × Prop) :=
    two [.vadd, .vsub, .vmul, .vdiv, .vmin, .vmax, .vand, .vor, .vxor, .vsll, .vsrl, .vsra, .vcmpeq, .vcmplt, .vcmple, .vrsum, .vrmax,
      .vrmin, .vdot, .vperm] ++
    [(.vfma w rm d ra rb, [ra, rb, d], some d, True), (.vfms w rm d ra rb, [ra, rb, d], some d, True),
     (.vsel w rm d ra rb, [ra, rb, d], some d, True), (.vsqrt w rm d ra, [ra], some d, True), (.vmov w rm d ra, [ra], some d, True),
     (.vfn w rm d ra fn, [ra], some d, True), (.vcvt w rm sat d ra part, [ra], some d, part = 0), (.vbcst w rm d (.g rg), [], some d, True),
     (.vbcst w rm d (.f rg), [], some d, True), (.vext w rm (.g rg) ra ln, [ra], none, ln.toNat < n),
     (.vext w rm (.f rg) ra ln, [ra], none, ln.toNat < n), (.vins w rm d (.g rg) ln, [d], some d, ln.toNat < n),
     (.vins w rm d (.f rg) ln, [d], some d, ln.toNat < n)]
  let mems : List (Instr × List VReg × Option VReg × Prop) :=
    [(.vld d b disp, [], some d, True), (.vst d b disp, [d], none, True), (.vlds e d b x, [], some d, True), (.vsts e d b x, [d], none, True),
     (.vgth e d b x, [x.setWidth 6], some d, True), (.vsct e d b x, [d, x.setWidth 6], none, True)]
  let code (dest : Bool) (r : VReg) : Option Word := (t.boundTo r).bind (fun j =>
    if t.ports[j].isWrite ≠ dest then some 6 else if t.ports[j].st = .bound then some 7 else if t.ports[j].left = 0 then some 5 else none)
  let runs (write : Bool) : Prop := q.st = .running ∧ q.isWrite = write ∧ q.left ≠ 0
  let claimed (u : Thread) : Thread := { u with ports := t.ports.set i.val q.claim }
  let pushes (v : V512) (el : List (Nat × Word × Target)) : List (Target × List Byte × Word) :=
    ((List.range el.length).zip el).map (fun y => (y.2.2.2, leBytes q.esz (v.toNat / 2 ^ (8 * q.esz * y.1) % 2 ^ (8 * q.esz)), y.2.2.1))
  let line := s.g b + BitVec.ofInt 64 (64 * disp.toInt)
  let near (u : State) (c off : Nat) : Prop := line.toNat / 2 ^ 48 % 256 = 0xF8 ∧ line.toNat % 64 = 0 ∧ u.spadTarget u.cur.1 line = some (c, off)
  let op (u : State) (st : List (Target × List Byte × Word)) : QOp :=
    .vec { pc := t.pc, word := s.iss.word, stores := st, enabled := t.fenable, seq := u.cpu.ops }
  t.pp = false →
  (∀ y ∈ ops ++ mems, y.2.2.2 → (∀ r ∈ y.2.1 ++ y.2.2.1.toList, r.toNat < t.id.w) → ∀ z,
    (y.2.1.findSome? (code false)).or (y.2.2.1.bind (code true)) = some z → s.Traps y.1 { cause := 0x35, taddr := 0, tval := z }) ∧
  (∀ y ∈ ops, ∀ r ∈ y.2.1, t.boundTo r = some i → runs false → (∀ k ∈ y.2.1 ++ y.2.2.1.toList, k.toNat < t.id.w ∧ (k ≠ r → t.boundTo k = none)) →
    y.2.2.1 ≠ some r → ∀ s1 el, s.checkPiece i 0 q.pieceElems = .ok s1 el → ∀ s2 val, s1.readPiece s1.cur.1 q el = .ok s2 (val, []) → s2.th = t →
    ∀ v u', exec y.1 (s2.setTh { t.setVr r val with ports := .replicate 4 {} }) = .next u' → u'.th.queue = t.queue ++ [.vec v] →
      ∃ u, exec y.1 s = .next u ∧ u.th = claimed { u'.th with v := t.v }) ∧
  (∀ y ∈ ops, y.2.2.1 = some d → t.boundTo d = some i → runs true → (∀ k ∈ y.2.1, t.boundTo k = none) →
    (∀ k ∈ y.2.1 ++ [d], k.toNat < t.id.w) → ∀ s1 el, s.checkPiece i 0 q.pieceElems = .ok s1 el →
    s1.writesReady (el.map (fun z => z.2)) = none → s1.th = t →
    ∀ v val u', exec y.1 (s1.setTh { t with ports := .replicate 4 {} }) = .next u' → u'.th.queue = t.queue ++ [.vec v] → v.vd = some (d, val) →
      ∃ u, exec y.1 s = .next u ∧
        u.th = claimed { u'.th with queue := t.queue ++ [.vec { v with vd := none, stores := pushes val el }] }) ∧
  (d.toNat < t.id.w → t.queue.length < 2 → t.boundTo d = some i → ∀ s1 el, s.checkPiece i 0 q.pieceElems = .ok s1 el →
    (runs false → ∀ s2 val c off, s1.readPiece s1.cur.1 q el = .ok s2 (val, []) → s2.th = t → near s2 c off →
      ∃ u, exec (.vst d b disp) s = .next u ∧ u.th = claimed { t with queue := t.queue ++ [op s2 [(.spad c off, vBytes val, line)]] }) ∧
    (runs true → ∀ c off, s1.writesReady (el.map (fun z => z.2)) = none → s1.th = t → near s1 c off →
      (off / 64) ∉ (s1.core c).spadPoison → ∃ u, exec (.vld d b disp) s = .next u ∧
        u.th = claimed { t with queue := t.queue ++ [op s1 (pushes (ofVBytes ((s1.core c).spad.bytes off 64)) el)] }))

/-- The stream ports, and the vector instructions that take from them and push to them. -/
def Obligations.Streams : Prop := Says.StreamPorts ∧ Says.StreamOperands

/-! ### Counters, messages, waits, barriers and launches (spec/07_sync_messages_work.md, spec/19_scheduler.md) -/

/-- The counters and YIELD (R166, R167, R195, R334). CNTRD reads a counter of the issuing core; CNTSET writes it, CNTADD adds to it and
writes the old value, both after their release at core scope, which waits for nothing; a written counter leaves the others and marks the event of the threads that nap on
one. YIELD makes its thread's leadership end with its step's cycle and does nothing else. -/
def Obligations.Counters : Prop := ∀ (s : State) (rel : Bool) (d b : Reg) (n : Cnt) (k : Core) (x : Word),
  let c := s.cur.1
  let s1 := if rel then s.settleSeq c else s
  let old := s.cpu.cnt n.toNat
  s.PutsG (.cntrd d n) d old ∧
  exec (.cntset rel n b) s = .next (s1.setCpu (s1.cpu.setCnt n.toNat (s.g b))) ∧
  exec (.cntadd rel d b n) s = .next ((s1.setCpu (s1.cpu.setCnt n.toNat (old + s.g b))).setG d old) ∧
  (let k' := k.setCnt n.toNat x
   k'.cnt n.toNat = x ∧ (∀ m, m ≠ n.toNat → k'.cnt m = k.cnt m) ∧ { k' with cnts := k.cnts, threads := k.threads } = k ∧
   ∀ sl, (Map.find? k.threads sl).isSome → k'.thread sl = { k.thread sl with wait := match (k.thread sl).wait with
     | .nap m h => .nap m (h || m.getLsbD 1)
     | w => w }) ∧
  (s.cpu.leader = some s.cur.2 → exec .yield s = .next (s.setCpu { s.cpu with passes := true })) ∧
  (s.cpu.leader ≠ some s.cur.2 → exec .yield s = .next s)

/-- PUT, PUTB and their delivery (R168 to R170). PUT sends 8 bytes, PUTB 8 to 256 in whole words from the issuing core's own scratchpad;
MSGLEN, VADDR, ALIGN and SPADDR are precise, with nothing sent. Sending changes nothing but the messages in flight. PUT_DELIVERY of one
that no earlier one of its thread to the same core stands before writes the payload to the target scratchpad and then adds 1 to the
counter, and changes no memory and no register. -/
def Obligations.Messages : Prop := ∀ (s : State) (a b d : Reg) (n : Cnt),
  let p := s.g a
  let q := s.g b
  let len := (s.g d).toNat
  let spad (w : Word) : Prop := w.toNat / 2 ^ 48 % 256 = 0xF8
  let sent (i : Instr) (c off : Nat) (data : List Byte) : Prop := exec i s = .next { s with hub := { s.hub with
    msgs := s.hub.msgs ++ [{ fromCore := s.cur.1, slot := s.cur.2, owner := s.ownerOf s.cur.1, core := c, off, data, cnt := n.toNat }] } }
  let target (i : Instr) : Prop :=
    (¬spad p → s.Traps i { cause := 0x11, taddr := p, tval := 2 }) ∧
    (spad p → p.toNat % 8 ≠ 0 → s.Traps i { cause := 0x10, taddr := p, tval := 2 }) ∧
    (spad p → p.toNat % 8 = 0 → s.spadTarget s.cur.1 p = none → s.Traps i { cause := 0x12, taddr := p, tval := 2 })
  let fine : Prop := len % 8 = 0 ∧ 8 ≤ len ∧ len ≤ 256
  target (.put a b n) ∧
  (spad p → p.toNat % 8 = 0 → ∀ c off, s.spadTarget s.cur.1 p = some (c, off) → sent (.put a b n) c off (leBytes 8 q.toNat)) ∧
  (¬fine → s.Traps (.putb a b d n) { cause := 0x20, taddr := 0, tval := s.g d }) ∧
  (fine → target (.putb a b d n)) ∧
  (fine → spad p → p.toNat % 8 = 0 → ∀ c off, s.spadTarget s.cur.1 p = some (c, off) →
    (¬spad q ∨ q.toNat % 8 ≠ 0 ∨ (∀ o, s.spadTarget s.cur.1 q ≠ some (s.cur.1, o)) →
      s.Traps (.putb a b d n) { cause := 0x12, taddr := q, tval := 0 }) ∧
    (spad q → q.toNat % 8 = 0 → ∀ o, s.spadTarget s.cur.1 q = some (s.cur.1, o) →
      (off + len ≤ 2 ^ 18 → o + len ≤ 2 ^ 18 → sent (.putb a b d n) c off (s.cpu.spad.bytes o len)) ∧
      (off + len > 2 ^ 18 → s.Traps (.putb a b d n) { cause := 0x12, taddr := p, tval := 0 }) ∧
      (off + len ≤ 2 ^ 18 → o + len > 2 ^ 18 → s.Traps (.putb a b d n) { cause := 0x12, taddr := q, tval := 0 }))) ∧
  (∀ m, s.hub.msgs[s.ev.k]? = some m → (m.data.length % 8 = 0) → (s.core m.core).spad.wf = true →
    (∀ j < s.ev.k, ∀ m', s.hub.msgs[j]? = some m' → (m'.fromCore, m'.slot, m'.core) ≠ (m.fromCore, m.slot, m.core)) →
    ∃ u, exec .putDelivery s = .next u ∧ u.mem = s.mem ∧ u.hub = { s.hub with msgs := s.hub.msgs.eraseIdx s.ev.k } ∧
      (u.core m.core).spad.bytes m.off m.data.length = m.data ∧
      (∀ x, (x < m.off ∨ m.off + m.data.length ≤ x) → (u.core m.core).spad.get x = (s.core m.core).spad.get x) ∧
      (u.core m.core).cnt m.cnt = (s.core m.core).cnt m.cnt + 1 ∧ (∀ c, c ≠ m.core → u.core c = s.core c) ∧
      (∀ sl, (u.thread m.core sl).g = (s.thread m.core sl).g ∧ (u.thread m.core sl).pc = (s.thread m.core sl).pc))

/-- WAITC, DEQ, PEEK and NAP (R171, R172, R175, R176, R195) and what ends their waits. Each completes at
once where its condition holds, with its acquire, and else waits with no effect but its arrival's release; the step that a wake has
given an outcome completes with it. An empty inbox with nothing reserved is INBOXE at DEQ. A wake acquires where its instruction does,
removes DEQ's entry, and makes its thread issue next. That a woken step issues next is the model's choice (log 1). -/
def Obligations.Waits : Prop := ∀ (s : State) (d b : Reg) (n : Cnt) (m : BitVec 3),
  let c := s.cur.1
  let t := s.th
  let free := s.setTh { t with wait := .none }
  let oldest := s.cpu.inbox.find? (fun e => e.slot == s.cur.2)
  let C := s.ev.c
  let S := s.ev.sl
  let T := s.thread C S
  let woken (u : State) (w : Wait) : State :=
    let v := u.setThread C S { u.thread C S with wait := w }
    { v with turns := .issue C S :: v.turns }
  let taken (u : State) (w0 w1 : Word) : State :=
    let v := if w0.toNat / 2 ^ 40 % 256 = 4 then u else u.acquire c .dev
    (v.setG d w0).setG (d + 1) w1
  (t.wait = .none →
    (0 ≤ (s.cpu.cnt n.toNat - s.g b).toInt → exec (.waitc d b n) s = .next ((free.acquire c .dev).setG d (s.cpu.cnt n.toNat))) ∧
    ((s.cpu.cnt n.toNat - s.g b).toInt < 0 → exec (.waitc d b n) s = .next (s.waitOn (.waitc n (s.g b)))) ∧
    (∀ e, oldest = some e → exec (.deq d) s =
      .next (taken ((s.setCpu (s.cpu.removeEntry e)).setTh { (s.setCpu (s.cpu.removeEntry e)).th with wait := .none }) e.w0 e.w1)) ∧
    (oldest = none → s.cpu.inboxCount s.cur.2 = 0 → s.Traps (.deq d) { cause := 0x22, taddr := 0, tval := 0 }) ∧
    (oldest = none → s.cpu.inboxCount s.cur.2 ≠ 0 → exec (.deq d) s = .next (s.waitOn .deq)) ∧
    (m.getLsbD 0 = true → oldest ≠ none → exec (.nap m) s = .next free) ∧
    (m.getLsbD 0 = false ∨ oldest = none → exec (.nap m) s = .next (s.waitOn (.nap m false)))) ∧
  (∀ v, t.wait = .waitcOk v → exec (.waitc d b n) s = .next ((free.acquire c .dev).setG d v)) ∧
  (∀ w0 w1, t.wait = .deqOk w0 w1 → exec (.deq d) s = .next (taken free w0 w1)) ∧
  (t.wait = .napOk → exec (.nap m) s = .next free) ∧
  s.PutsG (.peek d) d (match oldest with | some e => e.w0 | none => 0) ∧
  (∀ n thr, T.wait = .waitc n thr → 0 ≤ ((s.core C).cnt n.toNat - thr).toInt →
    exec .waitcSatisfied s = .next (woken (s.acquire C .dev) (.waitcOk ((s.core C).cnt n.toNat)))) ∧
  (∀ e, T.wait = .deq → (s.core C).inbox.find? (fun e => e.slot == S) = some e →
    exec .deqWake s = .next (woken (s.setCore C ((s.core C).removeEntry e)) (.deqOk e.w0 e.w1))) ∧
  (∀ mask, T.wait = .nap mask true → exec .napWake s = .next (if (s.ctx (s.ownerOf C)).runs then woken s .napOk else s)) ∧
  (T.wait = .none → exec .waitcSatisfied s = .next s ∧ exec .deqWake s = .next s ∧ exec .napWake s = .next s)

/-- The barriers (R178 to R185). CBAR arrives with a release at core scope, completes at once for a crew of one thread, and otherwise waits
until CREW_BARRIER_COMPLETE finds every live thread of the crew arrived. BARCFG and BARARR raise BARMEM, BARBUSY, BARDUP and BAROVF;
BARARR releases at cluster scope, counts its core once that is done and answers the generation it arrived in; a generation in which every member has
arrived completes; a release waits for nothing where the core has nothing dirty and no replicated write queued. BARWAIT completes with an acquire at cluster scope once its generation has, and otherwise waits for BARWAIT_WAKE.
PHASE votes with a release at device scope; PHASE_COMPLETE, once every live thread of the context has voted and no message or copy of it
is in flight, gives each the OR of the votes below and their sum above, those of threads that have ended since they voted among them, and
adds 1 to the phase count. -/
def Obligations.Barriers : Prop := ∀ (s : State) (d a : Reg) (m : BarMode) (b : BarNo),
  let c := s.cur.1
  let t := s.th
  let i := clusterOf c
  let p := posOf c
  let x := (s.cluster i).bar b
  let ga := s.g a
  let n := Map.getD x.n p 0
  let gen := ga.extractLsb' 0 32
  let done : Prop := 0 ≤ (x.gen - gen - 1).toInt
  let trap (code tval : Word) : TrapInfo := { cause := code, taddr := 0, tval := tval }
  let C := s.ev.c
  let S := s.ev.sl
  let released := (s.settleSeq c).setTh { (s.settleSeq c).th with cbarArrived := true }
  (∀ sc, (∀ e ∈ s.cpu.l1, e.dirty = false) → (∀ w ∈ s.hub.seqQ, w.core ≠ c) → s.release c sc = .ok s ()) ∧
  (t.cbarDone = true → exec .cbar s = .next ((s.setTh { t with cbarDone := false, wait := .none }).acquire c .core)) ∧
  (t.cbarDone = false → (released.crewSlots c s.cur.2).length ≤ 1 → exec .cbar s =
    .next (released.setTh { released.th with cbarArrived := false, cbarDone := false, wait := .none })) ∧
  (t.cbarDone = false → 1 < (released.crewSlots c s.cur.2).length → exec .cbar s = .next (released.waitOn .cbar)) ∧
  (s.crewArrived C S = true → (s.ctx (s.ownerOf C)).runs = true → ∃ u, exec .crewBarrierComplete s = .next u ∧ u.mem = s.mem ∧
    ∀ sl ∈ s.crewSlots C S, (u.thread C sl).cbarArrived = false ∧ (u.thread C sl).cbarDone = true ∧
      ((s.thread C sl).wait = .cbar → (u.thread C sl).wait = .cbarOk ∧ Turn.issue C sl ∈ u.turns)) ∧
  (ga.toNat / 2 ^ 48 ≠ 0 ∨ ga.toNat % 2 ^ 48 = 0 → s.Traps (.barcfg m a b) (trap 0x23 ga)) ∧
  (ga.toNat / 2 ^ 48 = 0 → ga.toNat % 2 ^ 48 ≠ 0 →
    ((x.n.any (fun e => e.2 != 0) || s.barWaited i b) = true → s.Traps (.barcfg m a b) (trap 0x24 0)) ∧
    ((x.n.any (fun e => e.2 != 0) || s.barWaited i b) = false → exec (.barcfg m a b) s =
      .next (s.setBar i b { mask := ga.extractLsb' 0 48, strict := decide (m = .strict), gen := 0, n := [] }))) ∧
  (x.mask.getLsbD p = false → s.Traps (.bararr d b) (trap 0x23 0)) ∧
  (x.mask.getLsbD p = true → x.strict = true → n = 1 → s.Traps (.bararr d b) (trap 0x25 0)) ∧
  (x.mask.getLsbD p = true → (x.strict = false ∨ n ≠ 1) → 15 ≤ n → s.Traps (.bararr d b) (trap 0x26 0)) ∧
  (x.mask.getLsbD p = true → (x.strict = false ∨ n ≠ 1) → n < 15 →
    (∀ v, s.release c .clu = .ok v () → ∃ u, exec (.bararr d b) s = .next u ∧
      u.g d = (if d = 0 then 0 else BitVec.ofNat 64 ((x.gen.toNat + n) % 2 ^ 32)) ∧ (∀ r, r ≠ d → u.g r = v.g r) ∧
      (u.cluster i).bar b = Barrier.close { x with n := Map.put x.n p (n + 1) } 16 ∧ u.mem = v.mem) ∧
    ∀ v w, s.release c .clu = .wait v w → exec (.bararr d b) s = .next ((v.setTh (v.thBefore s)).waitOn w)) ∧
  (∀ y : Barrier, (∃ q, y.mask.getLsbD q = true ∧ Map.getD y.n q 0 = 0) → Barrier.close y 16 = y) ∧
  (∀ y : Barrier, y.mask ≠ 0 → (∀ q, y.mask.getLsbD q = true → Map.getD y.n q 0 = 1) →
    (Barrier.close y 16).gen = y.gen + 1 ∧ ∀ q, Map.getD (Barrier.close y 16).n q 0 = if y.mask.getLsbD q then 0 else Map.getD y.n q 0) ∧
  (t.wait = .none → x.mask = 0 → s.Traps (.barwait a b) (trap 0x23 0)) ∧
  (t.wait = .none → x.mask ≠ 0 → done → exec (.barwait a b) s = .next ((s.setTh { t with wait := .none }).acquire c .clu)) ∧
  (t.wait = .none → x.mask ≠ 0 → ¬done → exec (.barwait a b) s = .next (s.waitOn (.barwait b gen))) ∧
  (t.wait = .barwaitOk → exec (.barwait a b) s = .next ((s.setTh { t with wait := .none }).acquire c .clu)) ∧
  (∀ b' g, (s.thread C S).wait = .barwait b' g → 0 ≤ (((s.cluster (clusterOf C)).bar b').gen - g - 1).toInt →
    exec .barwaitWake s = .next ((s.acquire C .clu).wake C S .barwaitOk)) ∧
  (∀ r, t.phaseRes = some r → exec (.phase d a) s =
    .next (((s.setTh { t with phaseRes := none, wait := .none }).acquire c .dev).setG d r)) ∧
  (t.phaseRes = none → t.vote = none →
    (∀ v, s.release c .dev = .ok v () → exec (.phase d a) s = .next ((v.setTh { v.th with vote := some gen }).waitOn .phase)) ∧
    ∀ v w, s.release c .dev = .wait v w → exec (.phase d a) s = .next ((v.setTh (v.thBefore s)).waitOn w)) ∧
  (t.phaseRes = none → t.vote ≠ none → exec (.phase d a) s = .next (s.waitOn .phase)) ∧
  (s.phaseReady s.ev.o = true → (s.ctx s.ev.o).runs = true → ∃ u r, exec .phaseComplete s = .next u ∧ u.mem = s.mem ∧
    (u.ctx s.ev.o).phases = (s.ctx s.ev.o).phases + 1 ∧
    (let ended := s.cores.filter (fun e => e.2.owner.toNat == s.ev.o)
     r = phaseResult ((s.liveThreads s.ev.o).filterMap (fun e => e.2.2.vote)) (ended.foldl (fun n e => n + e.2.endedSum) 0)
       (ended.foldl (fun n e => n ||| e.2.endedOr) 0)) ∧
    ∀ e ∈ s.liveThreads s.ev.o, (u.thread e.1 e.2.1).vote = none ∧ (u.thread e.1 e.2.1).phaseRes = some r) ∧
  (∀ (votes : List (BitVec 32)) (sum or : BitVec 32), (phaseResult votes sum or).toNat =
    (sum.toNat + (votes.map BitVec.toNat).sum) % 2 ^ 32 * 2 ^ 32 + (votes.foldl (· ||| ·) or).toNat)

/-! ### Launches and the scheduler (spec/07_sync_messages_work.md, spec/19_scheduler.md, spec/20_preemption_faults.md) -/

/-- LAUNCH, LCANCEL and LCOUNT (R187, R188, R192 to R194). LAUNCH raises ALIGN for a record that is not 128-aligned and VADDR for one
outside global space (that a record in another region than the scratchpad window traps so is the model's choice, log 52); where its
checks pass, it releases at device scope, which it waits for, enters the launch under the next number and writes that to
gd. An entered launch of a running job has started nothing and stands at the level of PRI, at most CEIL. LCANCEL cancels the launches that
its target names, with all that their threads launched, but those whose completion has begun, and waits; LCANCEL_COMPLETE writes their number to gd once they have settled, and
ends a thread that cancelled its own launch. A LAUNCH of a record that the core's L1 holds, in a page that its TLB and a rights entry cover,
with no counter, no dependence and a place free, completes at once where the core has nothing dirty. LCOUNT answers the count of its level. A target that the level does not admit is ILLINS. -/
def Obligations.Launches : Prop := ∀ (s : State) (d a : Reg) (lvl : BitVec 2),
  let c := s.cur.1
  let o := s.ownerOf c
  let k := s.ctx o
  let p := s.g a
  let bad : Prop := (lvl = 1 ∧ p = 0) ∨ (2 ≤ lvl.toNat ∧ p ≠ 0)
  let C := s.ev.c
  let S := s.ev.sl
  let T := s.thread C S
  (p.toNat % 128 ≠ 0 → s.Traps (.launch d a) { cause := 0x10, taddr := 0, tval := 0 }) ∧
  (p.toNat % 128 = 0 → regionOf (vaOf p) ≠ .glob → s.Traps (.launch d a) { cause := 0x11, taddr := p, tval := 0 }) ∧
  s.Accesses (.launch d a) ((s.checkLaunch p).bind fun u recd => (u.release u.cur.1 .dev).bind fun u _ => .ok u recd) (fun u recd =>
    let v := u.enterLaunch (u.ownerOf u.cur.1) u.th.id.launch.toNat p recd
    v.1.setG d (BitVec.ofNat 64 v.2)) ∧
  (∀ (u : State) parent recd j, (u.ctx o).job = some j →
    let v := u.enterLaunch o parent p recd
    v.2 = u.hub.nextLaunch ∧ v.1.hub.nextLaunch = u.hub.nextLaunch + 1 ∧
    (({ ptr := p, recd, owner := o } : Launch).total ≠ 0 → ∃ l, v.1.launch? v.2 = some l ∧ l.ptr = p ∧ l.recd = recd ∧ l.owner = o ∧
      l.parent = parent ∧ l.started = 0 ∧ l.crews = [] ∧ l.cancelled = false ∧ l.level = Nat.min l.pri j.ceil)) ∧
  (∀ (t : TlbEntry) (en : REntry) (bs : List Byte) (j : Job),
    let va := p.toNat % 2 ^ 56
    let spa := leafSpa t.leaf (if t.size = 2 ^ 28 then 2 else 3) va
    let l : Launch := { ptr := p, recd := BitVec.ofNat 512 (leNat bs), owner := 0 }
    k.job = some j → p.toNat % 128 = 0 → va < 0xE0 * 2 ^ 48 →
    (∀ x ∈ [va, va + 64], (∀ wr, List.find? (tlbHit wr x) s.cpu.tlb = some t) ∧ s.rightsOf c o x = (s, some en)) →
    pteMX t.leaf = false → pteRP t.leaf = false → en.dm = false → en.age.toNat = p.toNat / 2 ^ 56 → en.rights.getLsbD 0 = true →
    en.rights.getLsbD 1 = true → s.holeAt o spa = false → s.poison.contains (s.readAt (dieOf c) t.leaf spa / 64) = false →
    l1Bytes s.cpu.l1 va 64 = some bs → (∀ b ∈ s.cpu.l1, b.dirty = false) → (∀ w ∈ s.hub.seqQ, w.core ≠ c) →
    badRecordBit l.recd = none → l.ccaddr = 0 → l.dep = false → s.lqFull o j l.pw l.graph = none →
    ∃ u, exec (.launch d a) s = .next u ∧ u.hub.nextLaunch = s.hub.nextLaunch + 1 ∧
      u.g d = if d = 0 then 0 else BitVec.ofNat 64 s.hub.nextLaunch) ∧
  (bad → s.Traps (.lcancel d a lvl) (s.badWord .illins) ∧ s.Traps (.lcount d a lvl) (s.badWord .illins)) ∧
  (¬bad →
    let r := if lvl = 3 then s.cancelJob o (some s.cur) .cancelled
      else s.cancel o (some s.cur) (cancelRoot lvl.toNat p k.phases)
    exec (.lcancel d a lvl) s = .next (r.1.setTh { r.1.th with wait := .lcancel d r.2 })) ∧
  (∀ root n l, n ∈ s.family o root → (s.cancel o (some s.cur) root).1.launch? n = some l →
    l.cancelled = true ∨ l.completed = true ∨ l.closing ≠ 0) ∧
  (∀ n, T.wait = .lcancel d n →
    (s.cancelSettled (s.ownerOf C) (C, S) = false → exec .lcancelComplete s = .next s) ∧
    (s.cancelSettled (s.ownerOf C) (C, S) = true →
      let u := (s.setThread C S { T.setGr d (BitVec.ofNat 64 n) with wait := .none }).progress (s.ownerOf C)
      exec .lcancelComplete s = .next (if T.stopped then u.endThread C S none else u))) ∧
  (¬bad →
    (lvl = 0 → ∀ l, s.launch? p.toNat = some l → l.owner = o → l.completed = false →
      s.PutsG (.lcount d a lvl) d (BitVec.ofNat 64 l.doneCrews)) ∧
    (lvl = 0 → (∀ l, s.launch? p.toNat = some l → l.owner ≠ o ∨ l.completed = true) → s.PutsG (.lcount d a lvl) d (-1)) ∧
    (lvl = 1 → s.PutsG (.lcount d a lvl) d (match k.job with | some j => BitVec.ofNat 64 (Map.getD j.graphs p.toNat 0) | none => 0)) ∧
    (lvl = 2 → s.PutsG (.lcount d a lvl) d (BitVec.ofNat 64 k.phases)) ∧
    (lvl = 3 → s.PutsG (.lcount d a lvl) d (match k.job with | some j => BitVec.ofNat 64 j.doneLaunches | none => 0)))

/-- The dispatcher and the ends of crews and launches (R188 to R190, R327 to R331). DISPATCH starts the next crew of the launch it has
chosen: its threads take the lowest free slots of the core, live, with the pc at ENTRY, g3 holding ARG, every other register zero and
srseed 16 times the crew plus the thread plus 1, or 1 where that is 0; STARTED rises and the level's pointer passes to the launch after
it, the first after the last. CREW_DONE counts an idle crew and frees its slots once its core's L1 holds nothing dirty (that it waits for
that is the model's reading, log 2); LAUNCH_COMPLETE completes a launch all of whose crews are done, once no HW field of it waits to be
written: its STATE is written, then, when that is made, its completion counter rises, and, when that is made, it counts in its job (R190,
R413); DEPENDENCE_TEST marks a launch whose
counter has reached its threshold; PROMOTION raises a launch that has waited out its level's interval by one level, at the end of that
level's order; CORE_RESERVATION reserves the context's first core. Each does nothing where its condition does not hold. -/
def Obligations.Dispatcher : Prop := ∀ s : State,
  let o := s.ev.o
  let num := s.ev.num
  (s.nextDispatch o = none → exec .dispatch s = .next s) ∧
  (∀ lvl n l c b j, s.nextDispatch o = some (lvl, n, l, c, b) → (s.ctx l.owner).job = some j → ∃ u l', exec .dispatch s = .next u ∧
    u.launch? n = some l' ∧ l'.started = l.started + 1 ∧ l'.state = (if l.state = 0 then 1 else l.state) ∧ l'.waitClk = 0 ∧
    l'.blockClk = 0 ∧
    (let mates := ((s.liveLaunches o).filter (fun e => e.2.level == lvl && e.2.slot.isSome && e.2.order != 0)).map (·.2.order)
     mates ≠ [] → ∃ j' x, (u.ctx o).job = some j' ∧ Map.find? j'.rr lvl = some x ∧ x ∈ mates ∧
       ((∃ y ∈ mates, l.order < y) → l.order < x ∧ ∀ y ∈ mates, l.order < y → x ≤ y) ∧
       ((∀ y ∈ mates, y ≤ l.order) → ∀ y ∈ mates, x ≤ y)) ∧
    ∀ i < l.nth, ∀ sl, (s.freeSlots c)[i]? = some sl →
      let t := u.thread c sl
      t.live = true ∧ t.pc = l.entry ∧ t.gr 3 = l.arg ∧ (∀ r, r ≠ 3 → t.gr r = 0) ∧ (∀ r, t.fr r = 0) ∧ (∀ r, t.vr r = 0) ∧
      t.status = 0 ∧ t.fflags = 0 ∧ t.fenable = 0 ∧ t.id.tix.toNat = i % 16 ∧ t.id.launch = BitVec.ofNat 64 n ∧
      t.srseed = (let n := BitVec.ofNat 32 (16 * l.started + i + 1); if n = 0 then 1 else n)) ∧
  (∀ l w, s.launch? num = some l → Map.find? l.crews s.ev.k = some w →
    (s.crewIdle w = true → (s.ctx l.owner).save ≠ .saved → ((∀ b ∈ (s.core w.core).l1, b.dirty = false) ∧ ∀ x ∈ s.hub.seqQ, x.core ≠ w.core) →
      ∃ u l', exec .crewDone s = .next u ∧ u.launch? num = some l' ∧ l'.doneCrews = l.doneCrews + 1 ∧ l'.crews = Map.del l.crews s.ev.k ∧
        (s.ownerOf w.core = l.owner → ∀ sl ∈ w.slots, Map.find? (u.core w.core).threads sl = none)) ∧
    (let v := (s.settleSeq w.core).writeBack w.core
     s.crewIdle w = true → (s.ctx l.owner).save ≠ .saved → s.ownerOf w.core = l.owner → v.l1Clean w.core = false →
      exec .crewDone s = .next v) ∧
    (s.crewIdle w = false ∨ (s.ctx l.owner).save = .saved → exec .crewDone s = .next s)) ∧
  (∀ l, s.launch? num = some l → l.finished = false → exec .launchComplete s = .next s) ∧
  (∀ l j, s.launch? num = some l → l.finished = true → (s.ctx l.owner).job = some j →
    let st : BitVec 8 := if l.state = 3 ∨ l.state = 4 then l.state else 2
    let s1 := if l.closing ≠ 0 then s else (s.setLaunch num { l with state := st, closing := 1 }).deviceWrite
      { owner := l.owner, ptr := l.ptr + 80, data := [st] }
    let v := if l.closing = 0 then s1.setLaunch num { l with state := st, closing := 2 } else s.setLaunch num { l with closing := 2 }
    let s2 := if 2 ≤ l.closing then s else if l.ccaddr = 0 then v else v.deviceWrite { owner := l.owner, ptr := l.ccaddr, incr := true }
    (s.launchWaits l = true → exec .launchComplete s = .next s) ∧
    (l.closing = 0 → s.launchWaits l = false → s1.launchWaits l = true → exec .launchComplete s = .next s1) ∧
    (l.closing ≤ 1 → s.launchWaits l = false → s1.launchWaits l = false → s2.launchWaits l = true → exec .launchComplete s = .next s2) ∧
    (s.launchWaits l = false → s1.launchWaits l = false → s2.launchWaits l = false → ∃ u, exec .launchComplete s = .next u ∧
      (∀ l', u.launch? num = some l' → l'.completed = true) ∧
      ((u.ctx l.owner).job = none ∧ (u.ctx l.owner).lastDone = j.doneLaunches + 1 ∨
        ∃ j', (u.ctx l.owner).job = some j' ∧ j'.doneLaunches = j.doneLaunches + 1))) ∧
  (∀ l, s.launch? num = some l → l.dep = true → l.depMet = false → ∀ s1 r, s.deviceRead l.owner l.depPtr 8 = (s1, r) →
    (∀ v, r = some v → exec .dependenceTest s = .next (if l.dthr ≤ v then s1.setLaunch num { l with depMet := true } else s1)) ∧
    (r = none → exec .dependenceTest s = .next s1)) ∧
  (∀ l j, s.launch? num = some l → (s.ctx l.owner).job = some j → l.ready = true → s.promoInterval l.level ≠ 0 →
    s.promoInterval l.level ≤ l.waitClk → l.level < j.ceil → ∃ u, exec .promotion s = .next u ∧ u.mem = s.mem ∧ u.cores = s.cores ∧
      u.launch? num = some { l with level := l.level + 1, order := j.nextOrder + 1, waitClk := 0 }) ∧
  (∀ l, s.launch? num = some l → s.promotable l = false → exec .promotion s = .next s) ∧
  (∀ l c cs, s.launch? num = some l → l.ready = true → s.dev.draint.toNat % 2 ^ 32 ≠ 0 → s.dev.draint.toNat % 2 ^ 32 ≤ l.blockClk →
    (s.ctx l.owner).resv = none → (s.ctx l.owner).cores = c :: cs →
    exec .coreReservation s = .next (s.setCtx l.owner { s.ctx l.owner with resv := some (num, c) })) ∧
  (∀ l, s.launch? num = some l → s.reservable l = false → exec .coreReservation s = .next s)

/-- What a core and a context do between steps (R201, R334, R335, R339, R340, R344, R345). LEADER_CHANGE, at the end of a cycle whose leader
made an off-core reference or issued YIELD, has led for 64 cycles or is not ready, gives leadership to the next ready slot in ring order;
the next cycle's issue group is every ready slot at the leader's PC and privilege level. DEFERRED_TRAP enters a thread's oldest held report as R14 and R199 say, with tpc the pc of the thread, and leaves every other
thread alone. A job's progress clock runs while nothing holds it, and in cycles in which it reaches 2 to the WDLOG2 its watchdog fires
(R339, R340); WATCHDOG_EXPIRY cancels that job, which ends with HANG. GRACE_EXPIRY begins the drain. DRAIN_END, once the context has
drained and no byte of its L1s is dirty, writes the header of its image where that fits, and with the next step (two steps are the model's
choice, log 57) saves the image and answers OK, and otherwise answers NOSPACE and lets the context run on. Each does nothing where
its condition does not hold. -/
def Obligations.CoreEvents : Prop := ∀ s : State,
  let c := s.ev.c
  let sl := s.ev.sl
  let o := s.ev.o
  let k := s.ctx o
  let t := s.thread c sl
  let m := s.core c
  let at_ := m.leader.getD m.lastLead
  let under : Prop := ∃ i ∈ m.group, s.ready c i = true
  let passes : Prop := m.passes = true ∨ 64 ≤ m.leadCount ∨ ∀ l, m.leader = some l → s.ready c l = false
  let due : Prop := t.live = true ∧ t.inTrap = false ∧ t.wait.drains = false ∧ t.wait.token = false ∧ m.vecBusy sl = false ∧
    m.folding sl = false ∧ ((s.ctx m.owner.toNat).runs = true ∨ t.trapDue = true)
  (¬under → passes → ∃ L, exec .leaderChange s = .next
      (s.setCore c { m with leader := L, lastLead := L.getD at_, leadCount := 0, passes := false, group := [] }) ∧
    (∀ i < 16, (∀ j < i, s.ready c ((at_ + 1 + j) % 16) = false) → s.ready c ((at_ + 1 + i) % 16) = true → L = some ((at_ + 1 + i) % 16)) ∧
    ((∀ i < 16, s.ready c ((at_ + 1 + i) % 16) = false) → L = none)) ∧
  (under ∨ ¬passes → exec .leaderChange s = .next s) ∧
  (¬under → ∀ l, ((s.openCycle c).core c).leader = some l → ∀ i, i ∈ ((s.openCycle c).core c).group ↔
    i ∈ m.threads.map (·.1) ∧ s.ready c i = true ∧ (s.thread c i).pc = (s.thread c l).pc ∧ (s.thread c i).sLevel = (s.thread c l).sLevel) ∧
  (t.reports = [] ∨ ¬due → exec .deferredTrap s = .next s) ∧
  (∀ i rest, t.reports = i :: rest → due →
    let t0 := { t with reports := rest, wait := .none, trapDue := false }
    let toU : Bool := !t.sLevel && routeU i && t.tr.uvec != 0
    ∃ u, exec .deferredTrap s = .next u ∧ u.cur = s.cur ∧
      (toU = true → u.thread c sl = { t0.enterTrap i t.pc false with pc := t.tr.uvec &&& ~~~7 }) ∧
      (toU = false → t.tr.tvec ≠ 0 → u.thread c sl = { t0.enterTrap i t.pc true with pc := t.tr.tvec &&& ~~~7 }) ∧
      (toU = false → t.tr.tvec = 0 → (u.thread c sl).live = false) ∧
      (toU = true ∨ t.tr.tvec ≠ 0 → u.mem = s.mem ∧ ∀ c' sl', (c', sl') ≠ (c, sl) → u.thread c' sl' = s.thread c' sl')) ∧
  (∀ j n, k.job = some j → 0 < n →
    (s.progressHeld o = true → s.tickProgress n o = s) ∧
    (s.progressHeld o = false → ∃ j', ((s.tickProgress n o).ctx o).job = some j' ∧ j'.progress = j.progress + n ∧
      (j'.hung = true ↔ j.ending = none ∧ (j.expired = true ∨ (j.wdlog2 ≠ 0 ∧ 2 ^ j.wdlog2 ≤ j.progress + n))))) ∧
  (∀ j, k.job = some j → j.hung = false → exec .watchdogExpiry s = .next s) ∧
  (∀ j, k.job = some j → j.hung = true → k.save = .running ∨ k.save = .grace → ∃ u, exec .watchdogExpiry s = .next u ∧
    ((u.ctx o).job = none ∧ (u.ctx o).lastStatus = .hang ∨ ∃ j', (u.ctx o).job = some j' ∧ j'.ending = some .hang)) ∧
  (∀ j, k.job = some j → k.save = .draining → exec .watchdogExpiry s = .next s) ∧
  (∀ j, k.job = some j → j.hung = true → k.save = .saved → exec .watchdogExpiry s = .next (s.cancelSaved o .hang).1) ∧
  (∀ p, k.save = .grace → k.pre = some p →
    (p.left ≠ 0 → exec .graceExpiry s = .next s) ∧
    (p.left = 0 → ∃ u, exec .graceExpiry s = .next u ∧ (u.ctx o).save = .draining)) ∧
  (k.save ≠ .grace → exec .graceExpiry s = .next s) ∧
  (k.save ≠ .draining → exec .drainEnd s = .next s) ∧
  (∀ p, k.save = .draining → k.pre = some p → p.checkpoint = true → exec .drainEnd s = .next s) ∧
  (∀ p, k.save = .draining → k.pre = some p → p.checkpoint = false →
    (s.drained o = false → exec .drainEnd s = .next s) ∧
    (s.drained o = true → (s.drainL1 o).l1sClean o = false → exec .drainEnd s = .next (s.drainL1 o)) ∧
    (s.drained o = true → (s.drainL1 o).l1sClean o = true → k.cancelWaits = [] → k.destroyWaits = [] →
      let v := s.drainL1 o
      let image := v.imageFor o (!p.coop)
      let len := imageLength image.sections
      let answered (u : State) (st : BitVec 8) : Prop := ∀ fn, p.fn = some fn → (u.fnc fn).busy = false ∧ (u.fnc fn).stStatus = st
      ∃ u, exec .drainEnd s = .next u ∧
        (len ≤ p.size → p.begun = false → (u.ctx o).save = .draining ∧ (u.ctx o).pre = some { p with begun := true } ∧ u.cores = v.cores ∧
          u.mem = (v.putBytes o p.dest ((image.bytes k.key).take 256)).mem) ∧
        (len ≤ p.size → p.begun = true → (u.ctx o).pre = none ∧ (u.ctx o).save = .saved ∧ (u.ctx o).imgAt = p.dest ∧
          (u.ctx o).imgLen = len ∧ answered u 0) ∧
        (p.size < len → (u.ctx o).pre = none ∧ (u.ctx o).save = .running ∧ answered u 6)))

/-! ### The copy engine, migration and replication (spec/11_copy_engine.md, spec/16_memory_hierarchy.md) -/

/-- Copies (R242 to R248, R337). CPY raises RESFLD with the lowest offending bit of its record, waits while its thread's queue is full, and
otherwise queues the copy with the core's next count, answers its handle and, with POST, reserves an inbox entry. CPYS answers the status
word of the copy that a handle of this core names, and 0 for any other handle. CPYK kills a copy that has not ended and waits;
CPYK_COMPLETE answers its status word once it has ended. COPY_LINE serves the slot that R337 gives its turn one destination line of its
copy: its elements, and then its bytes, together (the model's reading, log 43), at the cost 1, charged with its last element; a rejected page
fails the copy with status 4. COPY_END ends a copy, a failed one too: the line under way is written, its
flags reach fflags, its entry is posted with POST, its counter rises by 1 with INC, the engine keeps its state, status and bytes, and a
failure without an entry, or on a malformed Shale block, is reported with the element's pointer (logs 32, 55). -/
def Says.CopySteps : Prop := ∀ (s : State) (d a : Reg),
  let r := Layout.ofWords ((List.range 12).map (fun k => s.g (a + BitVec.ofNat 5 k)))
  let h := s.g a
  let mine : Prop := h.toNat / 2 ^ 52 = s.myCtx.logNo s.cur.1 % 4096
  let n := h.toNat % 2 ^ 52
  let C := s.ev.c
  let S := s.ev.sl
  let T := s.thread C S
  let K := s.core C
  (∀ b, r.badBit = some b → s.Traps (.cpy d a) { cause := 0x34, taddr := 0, tval := BitVec.ofNat 64 b }) ∧
  (∀ i, s.checkCopy r = some i → s.Traps (.cpy d a) i) ∧
  (s.checkCopy r = none → 2 ≤ s.th.queue.length → exec (.cpy d a) s = .next (s.waitOn .queueFull)) ∧
  (s.checkCopy r = none → s.th.queue.length < 2 → ∃ u p, exec (.cpy d a) s = .next u ∧ u.th.queue = s.th.queue ++ [.copy p] ∧
    p.layout = r ∧ p.count = s.cpu.copies ∧ p.pc = s.th.pc ∧ p.next = 0 ∧ p.st = .queued ∧ u.cpu.copies = s.cpu.copies + 1 ∧
    u.g d = (if d = 0 then 0 else BitVec.ofNat 64 (s.myCtx.logNo s.cur.1 % 4096 * 2 ^ 52 + s.cpu.copies % 2 ^ 52)) ∧
    (∀ q, q ≠ d → u.g q = s.g q) ∧ u.mem = s.mem ∧ u.cpu.inbox = s.cpu.inbox ∧
    u.cpu.resv = s.cpu.resv ++ (if r.post then [(s.cur.2, s.cpu.copies + 2 ^ 16)] else [])) ∧
  (mine → s.PutsG (.cpys d a) d (s.cpu.copyStatus n)) ∧
  (¬mine → s.PutsG (.cpys d a) d 0 ∧ s.PutsG (.cpyk d a) d 0) ∧
  (mine → s.cpu.copyLive n = false → s.PutsG (.cpyk d a) d (s.cpu.copyStatus n)) ∧
  (mine → s.cpu.copyLive n = true → ∃ u, exec (.cpyk d a) s = .next u ∧ u.th.wait = .cpyk d h ∧ u.mem = s.mem ∧
    (∀ p, u.cpu.runningCopy n = some p → p.kill = true) ∧ ∀ p, u.cpu.queuedCopy n = some p → p.kill = true) ∧
  (∀ (k : Core) n, (k.queuedCopy n).isSome → k.copyStatus n = copyWord .queued 0 0) ∧
  (∀ (k : Core) n p, k.queuedCopy n = none → k.runningCopy n = some p → k.copyStatus n = copyWord .running 0 p.bytes) ∧
  (∀ d' h', T.wait = .cpyk d' h' →
    (K.copyLive (h'.toNat % 2 ^ 52) = true → exec .cpykComplete s = .next s) ∧
    (K.copyLive (h'.toNat % 2 ^ 52) = false →
      exec .cpykComplete s = .next
        ((s.setThread C S { T.setGr d' (K.copyStatus (h'.toNat % 2 ^ 52)) with wait := .none }).progress (s.ownerOf C)))) ∧
  (∀ p, s.copyAt C S = some p → (p.ready = false ∨ ∀ e, K.nextServed .copy = some e → e.1 ≠ S) → exec .copyLine s = .next s) ∧
  (∀ p e, s.copyAt C S = some p → p.ready = true → K.nextServed .copy = some (S, e) →
    let served (v : State) : State := (v.setCore C ((v.core C).charge .copy S e 1)).progress (v.ownerOf C)
    let line := lineOf (p.layout.dstPtr p.next).1
    let inLine (q : CopyOp) : Prop := q.st = .running ∧ q.next < q.layout.total ∧ lineOf (q.layout.dstPtr q.next).1 = line
    (p.rejected = true → ∀ u q, s.flushMoved C p = .ok u q → exec .copyLine s = .next (u.setCopy C S (q.fail 4 q.failPtr false))) ∧
    (p.rejected = false → ∀ u q, s.copyRun C line 128 p = .ok u q →
      (inLine q → exec .copyLine s = .next (u.setCopy C S q)) ∧
      (¬inLine q → ∀ w q', u.flushMoved C q = .ok w q' → exec .copyLine s = .next (served (w.setCopy C S q'))))) ∧
  (∀ p st, s.copyAt C S = some p → p.ending = some st → st ≠ .failed → p.buf = [] → ∃ u, exec .copyEnd s = .next u ∧ u.mem = s.mem ∧
    (u.thread C S).fflags = T.fflags ||| p.flags ∧ Map.find? (u.core C).cps S = none ∧
    (u.core C).hist.head? = some { count := p.count, st, status := p.status, bytes := p.bytes } ∧
    (u.core C).cnt p.layout.cnt = K.cnt p.layout.cnt + (if p.layout.inc then 1 else 0)) ∧
  (∀ p st v q, s.copyAt C S = some p → p.ending = some st → s.flushMoved C p = .ok v q →
    let t := v.thread C S
    let r := q.layout
    let kind := match st with | .failed => 3 | .killed => 2 | _ => 1
    let reports : Prop := st = .failed ∧ (q.shale = true ∨ r.post = false)
    let code : Word := if q.shale then 0x232 else if q.status = 2 then 0x214 else if q.status = 3 then 0x215 else if q.status = 4 then 0x213 else 0x216
    ∃ u, exec .copyEnd s = .next u ∧ Map.find? (u.core C).cps S = none ∧ (u.thread C S).fflags = t.fflags ||| q.flags ∧
      (u.core C).hist.head? = some { count := q.count, st, status := q.status, bytes := q.next * r.dsz / 2 } ∧
      (u.core C).cnt r.cnt = (v.core C).cnt r.cnt + (if r.inc then 1 else 0) ∧
      (r.post = true → q.cancelled = false → (v.core C).resv.contains (S, q.count + 2 ^ 16) = true → (u.core C).inbox = (v.core C).inbox ++
        [{ slot := S, w0 := entryWord r.tag kind q.status.toNat S, w1 := BitVec.ofNat 64 (q.next * r.dsz / 2) }]) ∧
      (r.post = false ∨ q.cancelled = true → (u.core C).inbox = (v.core C).inbox) ∧
      (¬reports → u.mem = v.mem ∧ (u.thread C S).reports = t.reports) ∧
      (reports → t.live = true → t.wait ≠ .ending → t.reports.length < 4 →
        u.mem = v.mem ∧ (u.thread C S).reports = t.reports ++ [{ cause := code, taddr := q.failPtr, tval := q.pc }])) ∧
  (s.copyAt C S = none → takeKilled T.queue = none → exec .copyEnd s = .next s)

/-- The elements of a copy (R40, R242, R245 to R247). Element i stands at DST + r, r from its indices, the strides and the interleave mode,
the second of two half-byte elements in the high half. Its value is FILL, without an access, outside the tensor, and otherwise the element
at SRC and its strides: a byte that an element before it has put into the line under way is read as written; one of a Shale source (SF 13)
is of its block, decoded after the blocks before it in its row. It moves bit for bit between equal formats
and is converted between others. A source line that fails its check, is poisoned or out of reach fails the copy there, with the element's
pointer (the model's reading, log 32). The elements of a line are written together (log 43); every other byte of a scratchpad line keeps its
value; of a line out of reach by then none is, and its elements are not counted. -/
def Says.CopyElements : Prop := ∀ (s : State) (c i : Nat) (p : CopyOp) (out : Option Target) (l : Fl),
  let r := p.layout
  let f (lo len : Nat) : Nat := r.toNat / 2 ^ lo % 2 ^ len
  let sg (lo len : Nat) : Int := (r.extractLsb' lo len).toInt
  let ssz := r.sf.store / 4
  let dsz := r.df.store / 4
  let n0 := f 448 16
  let n1 := f 464 16
  let n2 := f 480 16
  let j0 := i % n0
  let j1 := i / n0 % n1
  let j2 := i / n0 / n1 % n2
  let j3 := i / n0 / n1 / n2
  let x (k j : Nat) : Nat := f (384 + 16 * k) 16 + j
  let inside : Prop := x 0 j0 < f 128 16 ∧ x 1 j1 < f 144 16 ∧ x 2 j2 < f 160 16 ∧ x 3 j3 < f 176 16
  let row := r.src + BitVec.ofInt 64 (x 1 j1 * sg 192 40 + x 2 j2 * sg 256 40 + x 3 j3 * sg 320 40)
  let off : Int := (j0 * dsz / 2 : Nat) + j1 * sg 512 32 + j2 * sg 544 32 + j3 * sg 544 32 * n2
  let at_ := r.dst + (if f 592 2 = 1 then BitVec.ofInt 64 off ^^^ BitVec.ofNat 64 (j1 % 32 * 2 ^ f 588 4)
    else BitVec.ofInt 64 (if f 592 2 = 2 then off + j1 * 2 ^ f 588 4 else off))
  let elem (bs : List Byte) : Nat := (if ssz = 1 ∧ x 0 j0 % 2 = 1 then leNat bs / 16 else leNat bs) % 2 ^ r.sf.bits
  let gives (v : State) (q : CopyOp) (a : Nat) : Prop := ∀ v' lines t, v.touch c q.dstLines at_ true = .ok v' (lines, t) →
    v'.targetUp c t = true →
      let w := if r.sf = r.df then (a, l) else convert r.sf r.df r.rm r.sat a l
      s.copyElem c p out i l = .ok v' { q with dstLines := lines } w.1 w.2 t
  (¬inside → r.srcRow i = none) ∧ (inside → r.srcRow i = some (row, x 0 j0)) ∧ (r.dstPtr i).1 = at_ ∧
  ((r.dstPtr i).2 = true ↔ dsz = 1 ∧ j0 % 2 = 1) ∧
  (¬inside → gives s p (r.fill % 2 ^ r.sf.bits)) ∧
  (inside → r.sf ≠ .e4m3sh →
    let src := row + BitVec.ofNat 64 (x 0 j0 * ssz / 2)
    (∀ v k, s.touch c p.srcLines src false = .trap v k → s.copyElem c p out i l = .fail v p
      (if k.cause.toNat % 256 = 0x15 then 3 else if k.cause.toNat % 256 = 0x13 then 4 else if k.cause.toNat % 256 = 0x16 then 5 else 2)
      src false) ∧
    ∀ v lines t, s.touch c p.srcLines src false = .ok v (lines, t) →
      let q := { p with srcLines := lines }
      (v.targetUp c t = false → s.copyElem c p out i l = .fail v q 1 src false) ∧
      (v.targetUp c t = true → ∀ u bs bad, v.engRead c t (max 1 (ssz / 2)) = .ok u (bs, bad) →
        let newest (j : Nat) : Byte := match p.buf.reverse.find? (fun b => b.1 == t.lineOff + j) with
          | some b => b.2
          | none => bs.getD j 0
        let held (j : Nat) : Byte := match p.half with
          | some (o, h) => if o = t.lineOff + j then (newest j &&& 0xF0) ||| (h &&& 0x0F) else newest j
          | none => newest j
        (bad = true → s.copyElem c p out i l = .fail u q 5 src false) ∧
        (bad = false → (∀ o, out = some o → o.sameLine t = false) → gives u q (elem bs)) ∧
        (bad = false → (∃ o, out = some o ∧ o.sameLine t = true) → gives u q (elem ((List.range bs.length).map held))))) ∧
  (inside → r.sf = .e4m3sh →
    let block := s.copyShale c p out row (24 * (x 0 j0 / 32 + 1) + 1) (x 0 j0 / 32) []
      (fun v q es => .ok v q (es.getD (x 0 j0 % 32) 0) l (.dev 0))
    (∀ v q a l' t, block = .ok v q a l' t → gives v q a) ∧
    ∀ v q st ptr sh, block = .fail v q st ptr sh → s.copyElem c p out i l = .fail v q st ptr sh) ∧
  (∀ fuel k bs base K,
    let go := s.copyShale c p out base (fuel + 1) k bs K
    (decodeShale bs = .bad → go = .fail s p 0 base true) ∧
    (∀ es n, decodeShale bs = .ok es n → go = if k = 0 then K s p es else s.copyShale c p out (base + BitVec.ofNat 64 n) fuel (k - 1) [] K) ∧
    (decodeShale bs = .need → ∀ v lines t, s.touch c p.srcLines (base + BitVec.ofNat 64 bs.length) false = .ok v (lines, t) →
      v.targetUp c t = true → (∀ o, out = some o → o.sameLine t = false) → ∀ u b, v.engRead c t 2 = .ok u (b, false) →
      go = u.copyShale c { p with srcLines := lines } out base fuel k (bs ++ b) K)) ∧
  (dsz ≠ 1 → s.copyUnit c p out = s.copyElem c p out p.next { flags := p.flags, seed := p.seed }) ∧
  (dsz = 1 → ∀ v q a l1 t, s.copyElem c p out p.next { flags := p.flags, seed := p.seed } = .ok v q a l1 t →
    ∀ u q' b l2 t', v.copyElem c { q with half := some (t.lineOff, BitVec.ofNat 8 a) } (some t) (p.next + 1) l1 = .ok u q' b l2 t' →
      s.copyUnit c p out = .ok u { q' with half := none } (a + 16 * b) l2 t') ∧
  (∀ n line, p.next < r.total → lineOf (r.dstPtr p.next).1 = line →
    ∀ v q a l1 t, s.copyUnit c p (p.dstLine line) = .ok v q a l1 t → s.copyRun c line (n + 1) p = v.copyRun c line n
      { q with
        withheld := false, next := q.next + (if dsz = 1 then 2 else 1), flags := l1.flags, seed := l1.seed
        buf := q.buf ++ offsets t.lineOff (leBytes (max 1 (dsz / 2)) a) }) ∧
  (∀ n line, p.next < r.total → lineOf (r.dstPtr p.next).1 = line → ∀ v q st ptr sh, s.copyUnit c p (p.dstLine line) = .fail v q st ptr sh →
    ∀ w q', v.flushMoved c q = .ok w q' → s.copyRun c line (n + 1) p =
      .ok w { q' with st := .failed, status := st, failPtr := ptr, shale := sh, waitPage := none }) ∧
  (∀ t, p.buf ≠ [] → p.dstLine (r.dstPtr (p.next - 1)).1 = some t → s.targetUp c (s.retarget t) = false → s.flushCopy c p =
    .ok s { p with buf := [], next := p.next - (if dsz = 1 then 2 * p.buf.length else p.buf.length / (dsz / 2)) }) ∧
  (∀ c' base, (s.core c').spad.wf = true → ∃ u, s.flushLine c p (.spad c' base) = .ok u { p with buf := [] } ∧ u.mem = s.mem ∧
    ∀ x, (u.core c').spad.get x = match p.buf.reverse.find? (fun b => decide (b.1 < 64) && decide (base + b.1 = x)) with
      | some b => b.2
      | none => (s.core c').spad.get x)

/-- CPY, CPYS, CPYK and the steps of a copy; and what each element of a copy becomes. -/
def Obligations.Copies : Prop := Says.CopySteps ∧ Says.CopyElements

/-- Migration and replication (R249, R307, R309, R373). MIGR and REPL raise VADDR, ALIGN, RANGE and INBOXQ in that order; otherwise they
answer the next tag that no pending request of the thread has, reserve an inbox entry and ask for their pages. MIGRATION_LINE_COPY copies
the next 64-byte line of the page under way, as a poisoned one where it fails its MAC (R370), and moves its pointer on, or begins the
next page; what it would write to an expander that is down is discarded (R397). MIGR_DONE and REPL_DONE take a request that has ended from the list and post its entry.
SEQUENCER_WRITE performs the oldest waiting write to a replicated page. A move by the memory manager posts no entry.
SEALED_BUFFER_MOVE moves the sealed buffer that a thread waits for and ends that wait, and ends the wait for one that has moved already. -/
def Obligations.Pages : Prop := ∀ (s : State) (tier : Tier) (die : BitVec 2) (d a b : Reg) (m : BitVec 4),
  let p := s.g a
  let n := s.g b
  let o := s.ownerOf s.cur.1
  let both (x : TrapInfo) : Prop := s.Traps (.migr tier die d a b) x ∧ s.Traps (.repl d a b m) x
  let sized : Prop := n ≠ 0 ∧ n.toNat ≤ 4096 ∧ oneRegion (vaOf p) (n.toNat * 2 ^ 16) = true
  let pending (x : Nat) : Prop := (s.cur.2, x) ∈ s.cpu.resv
  let asks (i : Instr) (ok : PageReq → Prop) : Prop := ∃ u q j, exec i s = .next u ∧ ok q ∧ j < 5 ∧
    let tag := ((s.ctx o).tagSeq + 1 + j) % 65536
    ¬pending tag ∧ (∀ i < j, pending (((s.ctx o).tagSeq + 1 + i) % 65536)) ∧ (u.ctx o).tagSeq = (s.ctx o).tagSeq + 1 + j ∧
    u.hub = { s.hub with pageReqs := s.hub.pageReqs ++ [q] } ∧ q.ptr = p ∧ q.pages = n.toNat ∧ q.owner = o ∧ q.core = s.cur.1 ∧
    q.slot = s.cur.2 ∧ q.tag = tag ∧ q.post = true ∧ q.handled = 0 ∧ q.status = 0 ∧ u.g d = (if d = 0 then 0 else BitVec.ofNat 64 tag) ∧
    (∀ r, r ≠ d → u.g r = s.g r) ∧ u.mem = s.mem ∧ u.cpu.resv = s.cpu.resv ++ [(s.cur.2, tag)]
  let k := s.ev.k
  let posted (u : State) (q : PageReq) (kind : Nat) : Prop := u.hub.pageReqs = s.hub.pageReqs.eraseIdx k ∧
    ((s.core q.core).resv.contains (q.slot, q.tag) = true → (u.core q.core).inbox = (s.core q.core).inbox ++
      [{ slot := q.slot, w0 := entryWord q.tag kind q.status.toNat q.slot, w1 := BitVec.ofNat 64 q.handled }]) ∧
    ((s.core q.core).resv.contains (q.slot, q.tag) = false → (u.core q.core).inbox = (s.core q.core).inbox) ∧
    ∀ c, c ≠ q.core → u.core c = s.core c
  (regionOf (vaOf p) ≠ .glob → both { cause := 0x11, taddr := 0, tval := 0 }) ∧
  (regionOf (vaOf p) = .glob → p.toNat % 2 ^ 16 ≠ 0 → both { cause := 0x10, taddr := 0, tval := 0 }) ∧
  (regionOf (vaOf p) = .glob → p.toNat % 2 ^ 16 = 0 → ¬sized → both { cause := 0x19, taddr := 0, tval := n }) ∧
  (regionOf (vaOf p) = .glob → p.toNat % 2 ^ 16 = 0 → sized →
    (4 ≤ s.cpu.inboxCount s.cur.2 → both { cause := 0x21, taddr := 0, tval := 0 }) ∧
    (s.cpu.inboxCount s.cur.2 < 4 → asks (.migr tier die d a b) (fun q => q.repl = none ∧ q.tier = tier ∧ q.die = die.toNat) ∧
      asks (.repl d a b m) (fun q => q.repl = some m))) ∧
  (∀ q i e, s.hub.pageReqs[k]? = some q → q.repl = none → q.ended = false → q.handled < q.pages → q.mig = some i →
    Map.find? s.hub.mig i = some e → s.memOk → e.p + 1 < e.lines → ∃ u, exec .migrationLineCopy s = .next u ∧
      u.hub.mig = Map.put s.hub.mig i { e with p := e.p + 1 } ∧ u.cores = s.cores ∧
      (s.downExp (e.dst + 64 * e.p) = true → u.mem = s.mem ∧ u.poison = s.poison) ∧
      (s.downExp (e.dst + 64 * e.p) = false →
        (∀ j < 64, u.mem.get (e.dst + 64 * e.p + j) = s.mem.get (e.src + 64 * e.p + j)) ∧
        (∀ x, x < e.dst + 64 * e.p ∨ e.dst + 64 * e.p + 64 ≤ x → u.mem.get x = s.mem.get x) ∧
        (e.src % 64 = 0 → s.macFails (e.src + 64 * e.p) = true → (e.dst / 64 + e.p) ∈ u.poison))) ∧
  (∀ q, s.hub.pageReqs[k]? = some q → q.repl = none → q.ended = false → q.handled < q.pages → q.mig = none →
    exec .migrationLineCopy s = .next (s.startPage k q)) ∧
  (∀ q, s.hub.pageReqs[k]? = some q → q.repl = none → q.mig = none → q.ended = true ∨ q.pages ≤ q.handled →
    ∃ u, exec .migrDone s = .next u ∧ posted u q 6 ∧ u.mem = s.mem) ∧
  (∀ q, s.hub.pageReqs[k]? = some q → q.repl ≠ none ∨ q.mig ≠ none ∨ (q.ended = false ∧ q.handled < q.pages) →
    exec .migrDone s = .next s) ∧
  (∀ q x, s.hub.pageReqs[k]? = some q → q.repl = some x → q.rejected = false → q.ended = true ∨ q.pages ≤ q.handled →
    ∃ u, exec .replDone s = .next u ∧ posted u q 7 ∧ u.mem = s.mem) ∧
  (∀ q x, s.hub.pageReqs[k]? = some q → q.repl = some x → q.rejected = true →
    ∃ u, exec .replDone s = .next u ∧ posted u { q with status := 4, ended := true } 7 ∧ u.mem = s.mem) ∧
  (∀ q x, s.hub.pageReqs[k]? = some q → q.repl = some x → q.rejected = false → q.ended = false → q.handled < q.pages →
    let v := s.replPages x 4096 q
    exec .replDone s = .next (if v.2.ended ∨ v.2.pages ≤ v.2.handled then v.1.postPages k v.2 7 else v.1.setReq k v.2)) ∧
  (∀ q, s.hub.pageReqs[k]? = some q → q.repl = none → exec .replDone s = .next s) ∧
  (s.hub.seqQ = [] → exec .sequencerWrite s = .next s) ∧
  (∀ w t, s.hub.seqQ = w :: t → exec .sequencerWrite s =
    .next ({ s with hub := { s.hub with seqQ := t } }.putHome (s.ownerOf w.core) w.spa (offsets (w.spa % 64) w.data))) ∧
  (regionOf (vaOf s.ev.v) ≠ .glob ∨ s.ev.v.toNat % 2 ^ 16 ≠ 0 → exec .memoryManagerMove s = .next s) ∧
  (regionOf (vaOf s.ev.v) = .glob → s.ev.v.toNat % 2 ^ 16 = 0 → ∃ u q, exec .memoryManagerMove s = .next u ∧
    u = { s with hub := { s.hub with pageReqs := s.hub.pageReqs ++ [q] } } ∧ q.ptr = s.ev.v ∧ q.owner = s.ev.o ∧ q.tier = s.ev.tier ∧
    q.die = s.ev.die ∧ q.post = false ∧ q.handled = 0 ∧ 1 ≤ q.pages ∧ q.pages ≤ 4096) ∧
  (s.waitsSealed k = false → exec .sealedBufferMove s = .next s) ∧
  (s.waitsSealed k = true → (Map.getD s.hub.vtab k {}).kind ≠ 2 → exec .sealedBufferMove s = .next (s.wakeSealed k)) ∧
  (s.waitsSealed k = true → (Map.getD s.hub.vtab k {}).kind = 2 → s.unseal k = none → exec .sealedBufferMove s = .next s) ∧
  (∀ v, s.waitsSealed k = true → (Map.getD s.hub.vtab k {}).kind = 2 → s.unseal k = some v → ∃ u, exec .sealedBufferMove s = .next u ∧
    (Map.getD u.hub.vtab k {}).kind = 0 ∧ u.mem = v.mem ∧ u.waitsSealed k = false)

/-! ### The matrix engine and the orthogonal accumulator (spec/12_matrix.md, spec/13_orthogonal_accumulator.md) -/

/-- The queued matrix and orthogonal instructions at issue (R253 to R264, R266, R274 to R288). Each checks its configuration and alignment
against the registers as they will stand after the thread's earlier operations, then the lines it will touch; the first failure is its
precise trap. Otherwise, with room in the queue, its operation enters the queue with its operands as they stand and the seed advances by
its number of roundings. A full queue holds the step back. The configuration checks (R253, R262 to R264, R274, R278, R281): what TCFG, ACZ and QCFG refuse with MCFG and the word in tval; an
operation on an unconfigured register is MCFG; shapes, classes, accumulator types, transposed scaled tiles and columns that do not fit
are MSHAPE; QAPP into a full accumulator whose policy is TRAP is QOVF. A load or store of rows has its rows, bytes and width from the
configuration, and base and stride off that width are ALIGN (R257, R286, R288). That TLD of a tile of format 13, which only TLDK fills
(R41), is MCFG with the tile's number is read from R41 (log 58); the tval of TSCL's MCFG with SC = 0 is the model's choice (log 22), and so
is QAPL and QAPR testing aD before qD (log 59). An operation on rows whose checks pass and whose rows all lie in
scratchpads of the domain enters the queue, which has room. -/
def Obligations.MatrixIssue : Prop :=
  (∀ (s : State) (k ka : Tile) (ad : Acc) (q : QReg) (a b : Reg) (ta tb sat : Bool) (rm : RM)
      (col : BitVec 4),
    let t := s.th
    let m := s.cpu.projected s.cur.2
    let x := s.g a
    let y := s.g b
    let issues (i : Instr) (kind : MatKind) : Prop :=
      let queued (u : State) (ls : List (Word × Target)) : State := (u.setCpu { u.cpu with ops := u.cpu.ops + 1 }).setTh { u.th with
        queue := u.th.queue ++ [.mat { pc := u.th.pc, kind, seed := u.th.srseed, lines := ls, seq := u.cpu.ops }]
        srseed := if kind.rm = .rsr then lfsrN (m.rounds kind) u.th.srseed else u.th.srseed }
      (∀ e, m.check kind = some e → s.Traps i e) ∧
      (m.check kind = none → ∀ e, m.checkAlign kind = some e → s.Traps i e) ∧
      (m.check kind = none → m.checkAlign kind = none → m.rows kind = none →
        (t.queue.length < 2 → exec i s = .next (queued s [])) ∧ (2 ≤ t.queue.length → exec i s = .next (s.waitOn .queueFull))) ∧
      (m.check kind = none → m.checkAlign kind = none → ∀ r, m.rows kind = some r →
        (∀ u e, s.checkRows s.cur.1 r kind.rowNo = .trap u e → exec i s = .next ((u.setTh (u.thBefore s)).raise e)) ∧
        (∀ u w, s.checkRows s.cur.1 r kind.rowNo = .wait u w → exec i s = .next ((u.setTh (u.thBefore s)).waitOn w)) ∧
        ∀ u ls, s.checkRows s.cur.1 r kind.rowNo = .ok u ls →
          (r.wr = true → ∀ w, u.linesReady s.cur.1 ls = some w → exec i s = .next ((u.setTh (u.thBefore s)).waitOn w)) ∧
          ((r.wr = true → u.linesReady s.cur.1 ls = none) →
            (u.th.queue.length < 2 → exec i s = .next (queued u ls)) ∧
            let v := s.keepRecords u
            (2 ≤ u.th.queue.length → exec i s = .next ((v.setTh (v.thBefore s)).waitOn .queueFull)))) ∧
      (m.check kind = none → m.checkAlign kind = none → t.queue.length < 2 → ∀ r, m.rows kind = some r →
        (∀ j < r.n, ∀ p ∈ r.row j, p.1.toNat / 2 ^ 48 % 256 = 0xF8 ∧ (s.spadTarget s.cur.1 p.1).isSome = true) →
        ∃ ls, exec i s = .next (queued s ls))
    issues (.tcfg k a) (.tcfg k x) ∧ issues (.tld k a b) (.tld k x y) ∧ issues (.tst k a b) (.tst k x y) ∧ issues (.tz k) (.tz k) ∧
    issues (.tscl k a b) (.tscl k x y) ∧ issues (.mma ta tb rm ad k ka) (.mma ta tb rm ad k ka) ∧
    issues (.acz ad a) (.acz ad x) ∧ issues (.acld ad a b) (.acld ad x y) ∧ issues (.acst ad a b) (.acst ad x y) ∧
    (t.pp = false → issues (.accv rm sat k ad) (.accv rm sat k ad none)) ∧
    (t.pp = true → ruleAccv.admits t.pf = true →
      let r := (s.setTh (t.setPrefix false 0)).matIssue (.accv rm sat k ad (some (pfFmtD t.pf)))
      (∀ u, r = .ok u () → exec (.accv rm sat k ad) s = .next u) ∧
      (∀ u e, r = .trap u e → exec (.accv rm sat k ad) s = .next ((u.setTh (u.thBefore s)).raise e)) ∧
      ∀ u w, r = .wait u w → exec (.accv rm sat k ad) s = .next ((u.setTh (u.thBefore s)).waitOn w)) ∧
    issues (.qcfg q a) (.qcfg q x) ∧ issues (.qz q) (.qz q) ∧ issues (.qapp rm q k b col) (.qapp rm q k (s.f b) col) ∧
    issues (.qapl ta rm ad q) (.qapl ta rm ad q) ∧ issues (.qapr ta rm ad q) (.qapr ta rm ad q) ∧ issues (.qfold rm q) (.qfold rm q) ∧
    issues (.qst q a) (.qst q x) ∧ issues (.qform rm q a b) (.qform rm q x y)) ∧
  (∀ (m : MxCfg) (k ka : Tile) (ad : Acc) (q : QReg) (x : Word) (ta tb : Bool) (rm : RM) (tau : Word)
      (col : BitVec 4),
    let f (lo n : Nat) : Nat := x.toNat / 2 ^ lo % 2 ^ n
    let mcfg (v : Word) : TrapInfo := { cause := 0x30, taddr := 0, tval := v }
    let shape : TrapInfo := { cause := 0x31, taddr := 0, tval := 0 }
    let bits := (Fmt.ofCode (x.extractLsb' 16 4)).store
    let tile : Prop := f 21 43 = 0 ∧ f 7 1 = 0 ∧ 1 ≤ f 0 7 ∧ f 0 7 ≤ 64 ∧ 1 ≤ f 8 8 ∧ f 8 8 ≤ 128 ∧ f 16 4 < 14 ∧
      (f 20 1 = 1 → 4 ≤ f 16 4 ∧ f 16 4 ≤ 10) ∧ (f 16 4 = 8 ∨ f 16 4 = 11 → f 8 8 % 2 = 0) ∧ (f 16 4 = 13 → f 8 8 % 32 = 0) ∧
      f 0 7 * f 8 8 * bits ≤ 8 * 4096
    let acc : Prop := f 18 46 = 0 ∧ f 7 1 = 0 ∧ f 16 2 ≠ 3 ∧ 1 ≤ f 0 7 ∧ f 0 7 ≤ 64 ∧ 1 ≤ f 8 8 ∧ f 8 8 ≤ 128 ∧
      f 0 7 * f 8 8 * (if f 16 2 = 0 then 8 else 4) ≤ 16384
    let orth : Prop := f 18 46 = 0 ∧ f 14 2 = 0 ∧ f 7 1 = 0 ∧ 1 ≤ f 0 7 ∧ f 0 7 ≤ 64 ∧ 1 ≤ f 8 6 ∧ f 8 6 ≤ 32
    let wa := m.tile k
    let wb := m.tile ka
    let wd := m.acc ad
    let wq := m.orth q
    let has (w : Word) : Prop := w.getLsbD 31 = true
    let width (w : Word) : Nat := Nat.max 1 ((tileFmt w).store / 8)
    let accW := (accFmt wd).store / 8
    let orthW := (orthFmt wq).store / 8
    let tileRows (wr : Bool) : Rows := { n := cfgRows wa, len := cfgCols wa * (tileFmt wa).store / 8, align := width wa, wr, a := x, str := tau
                                         esz := width wa }
    let accRows (wr : Bool) : Rows := { n := cfgRows wd, len := cfgCols wd * accW, align := accW, wr, a := x, str := tau, esz := accW }
    m.rows (.tld k x tau) = some (tileRows false) ∧ m.rows (.tst k x tau) = some (tileRows true) ∧
    m.rows (.tscl k x tau) = some { n := cfgRows wa, len := (cfgCols wa + 31) / 32, align := 1, wr := false, a := x, str := tau, esz := 1 } ∧
    m.rows (.acld ad x tau) = some (accRows false) ∧ m.rows (.acst ad x tau) = some (accRows true) ∧
    m.rows (.qst q x) = some { n := 1, align := 64, wr := true, a := x, str := 0, esz := orthW
                               len := 64 + orthW * (orthN wq * orthCap wq + orthCap wq ^ 2 +
                                 if wq.getLsbD 18 = true then orthN wq ^ 2 else 0) } ∧
    m.rows (.qform rm q x tau) = some { n := orthN wq, len := orthN wq * orthW, align := orthW, wr := true, a := x, str := tau, esz := orthW } ∧
    (∀ kind r, m.rows kind = some r →
      let at0 : Prop := r.a.toNat % r.align = 0 ∧ r.str.toNat % r.align = 0
      (at0 → m.checkAlign kind = none) ∧
      let forms : Prop := ∃ rm' q' str, kind = .qform rm' q' r.a str
      (¬at0 → forms → m.checkAlign kind = some { cause := 0x10, taddr := 0, tval := 0 }) ∧
      (¬at0 → ¬forms → m.checkAlign kind = some { cause := 0x10, taddr := r.a, tval := 0 })) ∧
    (tile → m.check (.tcfg k x) = none) ∧ (¬tile → m.check (.tcfg k x) = some (mcfg x)) ∧
    (acc → m.check (.acz ad x) = none) ∧ (¬acc → m.check (.acz ad x) = some (mcfg x)) ∧
    (orth → m.check (.qcfg q x) = none) ∧ (¬orth → m.check (.qcfg q x) = some (mcfg x)) ∧
    (has wa → m.check (.tst k x tau) = none ∧ m.check (.tz k) = none ∧
      m.check (.tld k x tau) = (if tileFmt wa = .e4m3sh then some (mcfg (k.setWidth 64)) else none) ∧
      m.check (.tscl k x tau) = if wa.getLsbD 20 = true then none else some (mcfg (k.setWidth 64))) ∧
    (has wd → m.check (.acld ad x tau) = none ∧ m.check (.acst ad x tau) = none) ∧
    (has wq → m.check (.qz q) = none ∧ m.check (.qfold rm q) = none ∧ m.check (.qst q x) = none ∧ m.check (.qform rm q x tau) = none) ∧
    (has wd → has wq →
      m.check (.qapl ta rm ad q) = (if accFmt wd = orthFmt wq ∧ cfgRows wd = orthN wq then none else some shape) ∧
      m.check (.qapr ta rm ad q) = if accFmt wd = orthFmt wq ∧ cfgCols wd = orthN wq then none else some shape) ∧
    (∀ sat fmt, let F := (fmt : Option Fmt).getD (accFmt wd)
      m.check (.accv rm sat k ad fmt) = if has wd ∧ F ≠ .int32 ∧ cfgRows wd * cfgCols wd * F.store ≤ 8 * 4096 ∧
        (F.store = 4 → cfgCols wd % 2 = 0) then none else some (mcfg 0)) ∧
    (¬has wa → m.check (.tld k x tau) = some (mcfg (k.setWidth 64)) ∧ m.check (.tst k x tau) = some (mcfg (k.setWidth 64)) ∧
      m.check (.tscl k x tau) = some (mcfg (k.setWidth 64)) ∧ m.check (.tz k) = some (mcfg 0) ∧ m.check (.mma ta tb rm ad k ka) = some (mcfg 0)) ∧
    (¬has wd → m.check (.acld ad x tau) = some (mcfg (ad.setWidth 64 + 16)) ∧ m.check (.acst ad x tau) = some (mcfg (ad.setWidth 64 + 16)) ∧
      m.check (.qapl ta rm ad q) = some (mcfg (ad.setWidth 64 + 16)) ∧ m.check (.qapr ta rm ad q) = some (mcfg (ad.setWidth 64 + 16)) ∧
      m.check (.mma ta tb rm ad k ka) = some (mcfg 0)) ∧
    (¬has wq → m.check (.qz q) = some (mcfg (q.setWidth 64 + 32)) ∧ m.check (.qfold rm q) = some (mcfg (q.setWidth 64 + 32)) ∧
      m.check (.qst q x) = some (mcfg (q.setWidth 64 + 32)) ∧ m.check (.qform rm q x tau) = some (mcfg (q.setWidth 64 + 32)) ∧
      m.check (.qapp rm q k tau col) = some (mcfg (q.setWidth 64 + 32)) ∧
      (has wd → m.check (.qapl ta rm ad q) = some (mcfg (q.setWidth 64 + 32)) ∧ m.check (.qapr ta rm ad q) = some (mcfg (q.setWidth 64 + 32)))) ∧
    (has wq → ¬has wa → m.check (.qapp rm q k tau col) = some (mcfg (k.setWidth 64))) ∧
    (has wa → has wb → has wd →
      let A := if ta then (cfgCols wa, cfgRows wa) else (cfgRows wa, cfgCols wa)
      let B := if tb then (cfgCols wb, cfgRows wb) else (cfgRows wb, cfgCols wb)
      let fits : Prop := A.2 = B.1 ∧ cfgRows wd = A.1 ∧ cfgCols wd = B.2 ∧ pairing wa = pairing wb ∧ (pairing wa).1 = accFmt wd ∧
        ¬(wa.getLsbD 20 = true ∧ ta = true) ∧ ¬(wb.getLsbD 20 = true ∧ tb = false)
      (fits → m.check (.mma ta tb rm ad k ka) = none) ∧ (¬fits → m.check (.mma ta tb rm ad k ka) = some shape)) ∧
    (has wq → has wa →
      let fits : Prop := cfgRows wa = orthN wq ∧ tileFmt wa = orthFmt wq ∧ wa.getLsbD 20 = false ∧ col.toNat < cfgCols wa
      (¬fits → m.check (.qapp rm q k tau col) = some shape) ∧
      (fits → orthK wq = orthCap wq → wq.getLsbD 17 = true →
        m.check (.qapp rm q k tau col) = some { cause := 0x33, taddr := 0, tval := wq }) ∧
      (fits → (orthK wq ≠ orthCap wq ∨ wq.getLsbD 17 = false) → m.check (.qapp rm q k tau col) = none)))

/-- What reads the engine's registers at once, MSYNC, and the engine's steps (R254, R260, R266 to R269, R284, R287, R357). TRDC and QRD read
the configuration word once no earlier operation of the thread on the register is left; TLDK and QLD load it then, and only while no
operation that the engine has begun names it (R276); they complete where all that they read lies in one scratchpad of the domain, no line
of it poisoned, and is a Shale block for each group of a row, or an image with a good header. MSYNC completes when no operation of the
thread is left and it holds no deferred trap of one (that a woken thread issues next, log 1; that an operation's whole effect stands at
its completion, log 41). MATRIX_SERVICE begins the head, or drops it with a deferred trap where its checks fail at service (its ALIGN, and
the order of its checks, are the model's choice, log 59), a register it reads is poisoned, or a line not covered at issue fails its own; it
waits on a page, and a REJECT drops it. MATRIX_OP_COMPLETE makes the whole effect of the head and ORs its flags into fflags. -/
def Says.MatrixSteps : Prop := ∀ (s : State) (d a : Reg) (k : Tile) (ad : Acc) (q : QReg),
  let sl := s.cur.2
  let cpu := s.cpu
  let p := s.g a
  let busy (r : MxReg) : Prop := cpu.regBusy sl r = true
  let held (r : MxReg) : Prop := cpu.regHeld sl r = true
  let settled (k : Core) (sl : Nat) : Prop := k.matOps sl = [] ∧ ∀ r ∈ (k.thread sl).reports, r.mat = false
  let near (c off : Nat) (x : Word) (d : Nat) : Prop := x.toNat / 2 ^ 48 % 256 = 0xF8 ∧ s.spadTarget s.cur.1 x = some (c, off + d) ∧
    (off + d) / 64 ∉ (s.core c).spadPoison
  let C := s.ev.c
  let K := s.core C
  let reads (i : Instr) (r : MxReg) (x : Word) : Prop :=
    (busy r → exec i s = .next (s.waitOn .queueFull)) ∧ (¬busy r → s.PutsG i d x)
  let traps (i : Instr) (u : State) (e : TrapInfo) : Prop := exec i s = .next ((u.setTh (u.thBefore s)).raise e)
  let waits (i : Instr) (u : State) (w : Wait) : Prop := exec i s = .next ((u.setTh (u.thBefore s)).waitOn w)
  let drops (v : State) (sl : Nat) (o : MatOp) (cause taddr : Word) : Prop := ∃ u, exec .matrixService s = .next u ∧
    (u.core C).mx = (v.core C).mx.drop 1 ∧ u.mem = v.mem ∧
    ((v.thread C sl).live = true → (v.thread C sl).wait ≠ .ending → (v.thread C sl).reports.length < 4 → (u.thread C sl).reports =
      (v.thread C sl).reports ++ [{ cause := cause ||| 0x200, taddr := taddr, tval := o.pc, mat := true }])
  reads (.trdc d (.tile k)) (.tile k) (cpu.tile k).cfg ∧ reads (.trdc d (.acc ad)) (.acc ad) (cpu.acc ad).shape ∧
  reads (.qrd d q) (.orth q) (cpu.orth q).st ∧
  (∀ r, held r ↔ busy r ∨ ∃ e ∈ cpu.mx, e.2.begun = true ∧ r ∈ e.2.kind.regs) ∧
  (held (.tile k) → exec (.tldk d k a) s = .next (s.waitOn .queueFull)) ∧
  (¬held (.tile k) →
    let w := (cpu.tile k).cfg
    let ready : Prop := w.getLsbD 31 = true ∧ tileFmt w = .e4m3sh
    let blocks := s.stepShales (cfgRows w * (cfgCols w / 32)) p []
    (¬ready → s.Traps (.tldk d k a) { cause := 0x30, taddr := 0, tval := 0 }) ∧
    (ready → p.toNat % 2 ≠ 0 → s.Traps (.tldk d k a) { cause := 0x10, taddr := p, tval := 0 }) ∧
    (ready → p.toNat % 2 = 0 → (∀ u es stop, blocks = .ok u (es, stop) →
      exec (.tldk d k a) s = .next ((u.setCpu (u.cpu.setTile k
        { u.cpu.tile k with data := memOf (es.map (BitVec.ofNat 8)) })).setG d (stop - p))) ∧
      (∀ u e, blocks = .trap u e → traps (.tldk d k a) u e) ∧ ∀ u x, blocks = .wait u x → waits (.tldk d k a) u x)) ∧
  (¬held (.tile k) → p.toNat % 2 = 0 → ∀ (c off : Nat) (L : List (List Nat × Nat)),
    let w := (cpu.tile k).cfg
    let start (b : Nat) : Nat := ((L.take b).map (·.2)).sum
    let total := start L.length
    let bytes (b n : Nat) : List Byte := (s.core c).spad.bytes (off + start b) n
    w.getLsbD 31 = true → tileFmt w = .e4m3sh → L.length = cfgRows w * (cfgCols w / 32) →
    (∀ j < total / 2, near c off (p + BitVec.ofNat 64 (2 * j)) (2 * j)) →
    (∀ b (h : b < L.length), L[b].2 % 2 = 0 ∧ L[b].2 ≤ 46 ∧ decodeShale (bytes b L[b].2) = .ok L[b].1 L[b].2 ∧
      ∀ j < L[b].2 / 2, decodeShale (bytes b (2 * j)) = .need) →
    ∃ u, exec (.tldk d k a) s = .next u ∧ (u.cpu.tile k).data = memOf ((L.flatMap (·.1)).map (BitVec.ofNat 8)) ∧
      (u.cpu.tile k).cfg = w ∧ u.g d = (if d = 0 then 0 else BitVec.ofNat 64 total) ∧ u.mem = s.mem) ∧
  (held (.orth q) → exec (.qld q a) s = .next (s.waitOn .queueFull)) ∧
  (¬held (.orth q) → p.toNat % 64 ≠ 0 → s.Traps (.qld q a) { cause := 0x10, taddr := 0, tval := 0 }) ∧
  (¬held (.orth q) → p.toNat % 64 = 0 → (∀ u e, s.stepRead p 64 = .trap u e → traps (.qld q a) u e) ∧
    (∀ u x, s.stepRead p 64 = .wait u x → waits (.qld q a) u x) ∧ ∀ u h, s.stepRead p 64 = .ok u h →
    let w0 := zext (h.take 8)
    let bad := imageBad w0 (zext ((h.drop 8).take 8)) (h.drop 16)
    let more := u.stepLines ((orthSize w0 + 63) / 64 - 1) (p + 64) h
    (bad = true → traps (.qld q a) u { cause := 0x30, taddr := 0, tval := w0 }) ∧
    (bad = false → (∀ v bs, more = .ok v bs → exec (.qld q a) s = .next (v.setCpu (v.cpu.setOrth q (orthOfImage w0 bs)))) ∧
      (∀ v e, more = .trap v e → traps (.qld q a) v e) ∧ ∀ v x, more = .wait v x → waits (.qld q a) v x)) ∧
  (¬held (.orth q) → p.toNat % 64 = 0 → ∀ c off,
    let h := (s.core c).spad.bytes off 64
    let w0 := zext (h.take 8)
    let n := (orthSize w0 + 63) / 64
    imageBad w0 (zext ((h.drop 8).take 8)) (h.drop 16) = false →
    (∀ j < n, near c off (p + BitVec.ofNat 64 (64 * j)) (64 * j)) →
    ∃ u, exec (.qld q a) s = .next u ∧ u.cpu.orth q = orthOfImage w0 ((s.core c).spad.bytes off (64 * n)) ∧ u.mem = s.mem) ∧
  (s.th.wait = .none → settled cpu sl → exec .msync s = .next s) ∧
  (s.th.wait = .none → ¬settled cpu sl → exec .msync s = .next (s.waitOn .msync)) ∧
  (s.th.wait = .msyncOk → exec .msync s = .next (s.setTh { s.th with wait := .none })) ∧
  ((s.thread C s.ev.sl).wait = .msync → settled K s.ev.sl → exec .msyncComplete s = .next (s.wake C s.ev.sl .msyncOk)) ∧
  ((s.thread C s.ev.sl).wait = .msync → ¬settled K s.ev.sl → exec .msyncComplete s = .next s) ∧
  (∀ i o rest, K.mx = (i, o) :: rest → o.begun = false → o.waitPage = none →
    (∀ e, K.mxCfg.check o.kind = some e → drops s i o e.cause e.taddr) ∧
    (K.mxCfg.check o.kind = none → ∀ e, K.mxCfg.checkAlign o.kind = some e → drops s i o e.cause e.taddr) ∧
    (K.mxCfg.check o.kind = none → K.mxCfg.checkAlign o.kind = none →
      let clean : Prop := o.rejected = false ∧ o.kind.reads.any K.regPoison = false
      (o.rejected = true → drops s i o 0x13 o.failPtr) ∧
      (o.rejected = false → o.kind.reads.any K.regPoison = true → drops s i o 0x16 0) ∧
      (clean → K.mxCfg.rows o.kind = none → ∃ u, exec .matrixService s = .next u ∧
        u.mem = s.mem ∧ (u.core C) = { K with mx := (i, { o with begun := true }) :: rest }) ∧
      (clean → ∀ r, K.mxCfg.rows o.kind = some r →
        (∀ v ls, s.coverLines C r.wr r.lines o.lines = .ok v ls →
          let w := v.setHead C i { o with begun := true, lines := ls }
          exec .matrixService s = .next (w.progress (w.ownerOf C))) ∧
        (∀ v e, s.coverLines C r.wr r.lines o.lines = .trap v e → drops v i o e.cause e.taddr) ∧
        ∀ v x f e, s.coverLines C r.wr r.lines o.lines = .wait v (.fault x f e) →
          exec .matrixService s = .next (v.setHead C i { o with waitPage := some (vaOf x / 2 ^ 16), failPtr := lineOf x })))) ∧
  (∀ (wr : Bool) (x : Word) (xs : List Word) (ls : List (Word × Target)), s.coverLines C wr [] ls = .ok s ls ∧
    (let covered : Prop := ∃ e ∈ ls, e.1 = x
     (covered → s.coverLines C wr (x :: xs) ls = s.coverLines C wr xs ls) ∧
     (¬covered → s.coverLines C wr (x :: xs) ls = (s.checkByte C x wr).bind fun u t => u.coverLines C wr xs ((x, t) :: ls)))) ∧
  (∀ (r : Rows) (i : Nat), r.lines.Pairwise (fun x y => x.toNat < y.toNat) ∧
    (i < r.n → ∀ e ∈ r.row i, lineOf e.1 ∈ r.lines) ∧ ∀ x ∈ r.lines, ∃ i < r.n, ∃ e ∈ r.row i, x = lineOf e.1) ∧
  (∀ i o rest, K.mx = (i, o) :: rest → o.begun = true → ∀ u l, s.performMat C i o = .ok u l → ∃ v,
    exec .matrixOpComplete s = .next v ∧ (v.core C).mx = (u.core C).mx.drop 1 ∧ v.mem = u.mem ∧
      (v.core C).tiles = (u.core C).tiles ∧ (v.core C).accs = (u.core C).accs ∧ (v.core C).qs = (u.core C).qs ∧
      (v.thread C i).fflags = (u.thread C i).fflags ||| l.flags) ∧
  (∀ i o rest, K.mx = (i, o) :: rest → o.begun = true → ∀ u w, s.performMat C i o = .wait u w →
    exec .matrixOpComplete s = .next (u.setHead C i { ((u.core C).mxHead.map (·.2)).getD o with withheld := u.withholds C w }))

/-- The decoder of a Shale block (R44 to R46). A block is a header, 32 fields of sign and mantissa, 32 tokens, each a code of the table or
the escape and a raw exponent, and zero bits up to the next halfword; it decodes to its elements and its length, and no shorter run of
halfwords is enough. A reserved header bit, an exponent out of range and a padding bit make it malformed. -/
def Says.ShaleBlock : Prop := ∀ (b tid n : Nat) (sm es : Nat → Nat) (codes : Nat → List Bool) (pad rest : List Bool) (bs : List Byte),
  let bits (k x : Nat) : List Bool := (List.range k).map fun i => x / 2 ^ (k - 1 - i) % 2 == 1
  let half (i : Nat) : Nat := (bs.getD (2 * i) 0).toNat + 256 * (bs.getD (2 * i + 1) 0).toNat
  let stream : List Bool := (List.range (bs.length / 2)).flatMap fun i => bits 16 (half i)
  let c (k x : Nat) (d : Int) : List Bool × Int := (bits k x, d)
  let table : List (List Bool × Int) := match tid with
    | 0 => [c 1 0 0, c 2 0b10 1, c 3 0b110 (-1)]
    | 1 => [c 2 0b00 0, c 2 0b01 (-1), c 3 0b100 1, c 3 0b110 (-2), c 4 0b1110 2, c 4 0b1111 (-3)]
    | 2 => [c 1 0 0, c 3 0b100 1, c 3 0b101 (-1), c 5 0b11100 2, c 5 0b11101 (-2), c 6 0b111100 3, c 6 0b111101 (-3), c 6 0b111110 4,
      c 6 0b111111 (-4)]
    | _ => [c 2 0b00 0, c 2 0b01 (-1), c 2 0b10 (-2), c 4 0b1110 (-3), c 5 0b11110 (-4), c 6 0b111110 (-5), c 7 0b1111110 (-6),
      c 7 0b1111111 (-7)]
  let escape : List Bool := bits 3 (match tid with
    | 0 => 0b111
    | 1 => 0b101
    | _ => 0b110)
  let coded (j : Nat) : Prop := (∃ d, (codes j, d) ∈ table ∧ (es j : Int) = b + d) ∨ codes j = escape ++ bits 4 (es j)
  let part (k : Nat) : List Bool := bits 4 b ++ bits 2 tid ++ bits 10 0 ++ (List.range 32).flatMap (fun j => bits 4 (sm j)) ++
    (List.range k).flatMap codes
  let gap := (16 - (part 32).length % 16) % 16
  b < 16 → tid < 4 → (∀ j < 32, sm j < 16 ∧ es j < 16) → bs.length % 2 = 0 →
    ((∀ j < 32, coded j) → stream = part 32 ++ List.replicate gap false →
      decodeShale bs = .ok ((List.range 32).map fun j => sm j / 8 * 2 ^ 7 + es j * 2 ^ 3 + sm j % 8) bs.length ∧
      22 ≤ bs.length ∧ bs.length ≤ 46 ∧ ∀ i < bs.length / 2, decodeShale (bs.take (2 * i)) = .need) ∧
    (2 ≤ bs.length → half 0 % 2 ^ 10 ≠ 0 → decodeShale bs = .bad) ∧
    (n < 32 → (∀ j < n, coded j) → ∀ d, (codes n, d) ∈ table → ((b : Int) + d < 0 ∨ 15 < (b : Int) + d) → stream = part (n + 1) ++ rest →
      decodeShale bs = .bad) ∧
    ((∀ j < 32, coded j) → pad.length = gap → true ∈ pad → stream = part 32 ++ pad → decodeShale bs = .bad)

/-- The image of an orthogonal accumulator (R285, R287): which headers are good, and the register that an image gives. Its status word is
the image's; the entries outside the K reflectors and below T's diagonal are zero. -/
def Says.OrthImage : Prop := ∀ (w w1 : Word) (rest bs : List Byte) (i j : Nat),
  let f (lo n : Nat) : Nat := w.toNat / 2 ^ lo % 2 ^ n
  let N := f 0 7
  let cap := f 8 6
  let K := f 24 6
  let F : Fmt := if f 16 1 = 1 then .fp32 else .fp64
  let z := if f 16 1 = 1 then 4 else 8
  let r := orthOfImage w bs
  let has (off x : Nat) : Nat := elemAt (memOf (bs.drop off)) F x
  (imageBad w w1 rest = false ↔ f 19 5 = 0 ∧ f 30 1 = 0 ∧ f 14 2 = 0 ∧ f 7 1 = 0 ∧ w1 = 1 ∧ (∀ x ∈ rest, x = 0) ∧ f 31 1 = 1 ∧
    1 ≤ N ∧ N ≤ 64 ∧ 1 ≤ cap ∧ cap ≤ 32 ∧ K ≤ cap) ∧
  orthSize w = 64 + z * (N * cap + cap ^ 2 + f 18 1 * N ^ 2) ∧
  (imageBad w w1 rest = false → r.st = w ∧ r.poison = false ∧
    (i < N → j < cap → elemAt r.y F (i * cap + j) = if j < K then has 64 (i * cap + j) else 0) ∧
    (i < cap → j < cap → elemAt r.t F (i * cap + j) = if i ≤ j ∧ j < K then has (64 + z * (N * cap)) (i * cap + j) else 0) ∧
    (f 18 1 = 1 → i < N → j < N → elemAt r.e F (i * N + j) = has (64 + z * (N * cap + cap ^ 2)) (i * N + j)) ∧
    (f 18 1 = 0 → r.e = []))

/-- The matrix engine's steps, the decoder of the blocks that TLDK reads, and the images that QLD reads. -/
def Obligations.MatrixEngine : Prop := Says.MatrixSteps ∧ Says.ShaleBlock ∧ Says.OrthImage

/-- Computations 0 to n − 1 made one after another, flags and seed passing from each to the next: computation i gives x i. -/
def Says.Runs (n : Nat) (f : Nat → Fl → Nat × Fl) (x : Nat → Nat) (l l' : Fl) : Prop :=
  ∃ ls : Nat → Fl, ls 0 = l ∧ ls n = l' ∧ ∀ i < n, f i (ls i) = (x i, ls (i + 1))

/-- What configuring and zeroing does (R253, R259, R262, R274, R275, R280). TCFG, ACZ and QCFG configure and zero their register; TZ and QZ
zero the elements; QFOLD with K = 0 changes nothing. -/
def Says.MatrixZeroing : Prop := ∀ (s : State) (c sl : Nat) (pc : Word) (k : Tile) (ad : Acc) (q : QReg) (x : Word) (seed : BitVec 32)
    (rm : RM) (i : Nat),
  let K := s.core c
  let op (kind : MatKind) : MatOp := { pc, kind, seed, begun := true }
  let l0 : Fl := { flags := 0, seed }
  s.performMat c sl (op (.tcfg k x)) = .ok (s.setCore c (K.setTile k
    { cfg := x ||| 0x80000000, data := [], band := memOf (List.replicate 256 0x7F) })) l0 ∧
  s.performMat c sl (op (.tz k)) = .ok (s.setCore c (K.setTile k { K.tile k with data := [] })) l0 ∧
  s.performMat c sl (op (.acz ad x)) = .ok (s.setCore c (K.setAcc ad { shape := x ||| 0x80000000, data := [] })) l0 ∧
  s.performMat c sl (op (.qcfg q x)) = .ok (s.setCore c (K.setOrth q { st := x % 2 ^ 18 ||| 0x80000000, y := [], t := [], e := [] })) l0 ∧
  s.performMat c sl (op (.qz q)) = .ok (s.setCore c (K.setOrth q { st := (K.orth q).st % 2 ^ 18 ||| 0x80000000 })) l0 ∧
  (orthK (K.orth q).st = 0 → s.performMat c sl (op (.qfold rm q)) = .ok (s.setCore c K) l0) ∧
  (i < 64 → elemAt (memOf (List.replicate 256 0x7F)) .uint8 i = 0x7F)

/-- What one element of a product is (R54 to R58). A chain is one fused product and sum after another, k rising; a group sum adds the
exact sum of up to 32 products with one rounding a group, its special values as R56 has them: a group with an operand under the scale 0xFF
sums to a NaN, and its operands' classes decide NV. Integer products add modulo 2^32, with no flag. -/
def Says.ElementSums : Prop := ∀ (F : Fmt) (rm : RM) (r : Nat) (u v : Val) (ps : List (Val × Val)) (l : Fl) (zs : List (Int × Int))
    (nanScale : Bool) (gs : List (Bool × List (Val × Val))) (b sc : Nat) (x : Xr),
  let nan (p : Val × Val) : Prop := p.1.isNaN = true ∨ p.2.isNaN = true
  let snan (p : Val × Val) : Prop := p.1.isSNaN = true ∨ p.2.isSNaN = true
  let zeroInf (p : Val × Val) : Prop := ∃ z n, z.isZero = true ∧ (p = (.num z, .inf n) ∨ p = (.inf n, .num z))
  let infinite (n : Bool) (p : Val × Val) : Prop := ∃ a, (∃ y, p = (.inf a, y) ∧ ¬p.2.isNaN = true ∧ y.isNeg = (a != n)) ∨
    ∃ y, p = (y, .inf a) ∧ ¬p.1.isNaN = true ∧ y.isNeg = (a != n)
  let inf (n : Bool) : Prop := ∃ p ∈ ps, infinite n p ∧ ¬zeroInf p
  let bad : Prop := (∃ p ∈ ps, zeroInf p) ∨ (inf true ∧ inf false)
  chain F rm r [] l = (r, l) ∧
  (let one := roundPre F rm (preFma rm u v (F.val r)) l
   chain F rm r ((u, v) :: ps) l = chain F rm one.1 ps one.2) ∧
  groupChain rm r [] l = (r, l) ∧
  (let S := groupSum nanScale ps
   let one := roundPre .fp32 rm (preAdd rm (Fmt.fp32.val r) S.1) (if S.2 = true then { l with flags := l.flags ||| 0x10 } else l)
   groupChain rm r ((nanScale, ps) :: gs) l = groupChain rm one.1 gs one.2) ∧
  ((groupSum nanScale ps).2 = true ↔ bad ∨ ∃ p ∈ ps, snan p) ∧
  ((bad ∨ nanScale = true ∨ ∃ p ∈ ps, nan p) → (groupSum nanScale ps).1 = .nan false false) ∧
  (¬bad → (∀ p ∈ ps, ¬nan p) → ∀ n, inf n → (groupSum false ps).1 = .inf n) ∧
  (∀ xs : List (Xr × Xr), (∀ p ∈ xs, p.1.st = false ∧ p.2.st = false) → ∃ y : Xr, y.st = false ∧
    groupSum false (xs.map fun p => (.num p.1, .num p.2)) = (.num y, false) ∧
    (∀ e : Int, (∀ p ∈ xs, e ≤ p.1.e + p.2.e) →
      let units (neg : Bool) (m : Nat) (f : Int) : Int := (if neg = true then -1 else 1) * m * 2 ^ (f - e).toNat
      units y.neg y.m y.e = (xs.map fun p => units (p.1.neg != p.2.neg) (p.1.m * p.2.m) (p.1.e + p.2.e)).sum) ∧
    (y.m = 0 → xs ≠ [] → (y.neg = true ↔ ∀ p ∈ xs, p.1.m * p.2.m = 0 ∧ (p.1.neg != p.2.neg) = true))) ∧
  (F.val b = .num x → ∃ y, scaled F b 255 = .num y ∧ y.isZero = x.isZero ∧ y.neg = x.neg) ∧
  (sc ≠ 255 → F.val b = .num x → scaled F b sc = .num { x with e := x.e + sc - 127 }) ∧
  ((∀ y, F.val b ≠ .num y) → scaled F b sc = F.val b) ∧
  ((wrapSum r zs : Int) - (r + (zs.map (fun z => z.1 * z.2)).sum)) % 2 ^ 32 = 0 ∧ wrapSum r zs < 2 ^ 32

/-- MMA and ACCV when they complete (R263, R264). MMA gives every element of its accumulator, row by row, the sum of its products on top of
the element; what a tile gives under a transpose is the element across; a scaled tile's elements count times their scale. ACCV
configures its tile from the accumulator and converts every element, or copies it where the types agree. -/
def Says.MatrixProducts : Prop := ∀ (s : State) (c sl : Nat) (pc : Word) (k ka : Tile) (ad : Acc) (seed : BitVec 32) (rm : RM) (ta tb sat : Bool)
    (fmt : Option Fmt),
  let K := s.core c
  let op (kind : MatKind) : MatOp := { pc, kind, seed, begun := true }
  let l0 : Fl := { flags := 0, seed }
  let A := K.tile k
  let B := K.tile ka
  let D := K.acc ad
  let fa := tileFmt A.cfg
  let fb := tileFmt B.cfg
  let G := accFmt D.shape
  let m := if ta then cfgCols A.cfg else cfgRows A.cfg
  let n := if tb then cfgRows B.cfg else cfgCols B.cfg
  let len := if ta then cfgRows A.cfg else cfgCols A.cfg
  let a (i x : Nat) : Nat := elemAt A.data fa (if ta then x * cfgCols A.cfg + i else i * cfgCols A.cfg + x)
  let b (x j : Nat) : Nat := elemAt B.data fb (if tb then j * cfgCols B.cfg + x else x * cfgCols B.cfg + j)
  let scale (T : TileReg) (line x : Nat) : Nat := if T.cfg.getLsbD 20 = true then (T.band.get (line * ((cfgCols T.cfg + 31) / 32) + x / 32)).toNat else 127
  let group (i j g : Nat) : Bool × List (Val × Val) :=
    let xs := (List.range (Nat.min 32 (len - 32 * g))).map fun y => 32 * g + y
    (xs.any fun x => scale A i x == 255 || scale B j x == 255,
      xs.map fun x => (scaled fa (a i x) (scale A i x), scaled fb (b x j) (scale B j x)))
  let product (x : Nat) (l : Fl) : Nat × Fl :=
    let i := x / n
    let j := x % n
    let r := elemAt D.data G x
    match (pairing A.cfg).2 with
    | .chain => chain G rm r ((List.range len).map fun y => (fa.val (a i y), fb.val (b y j))) l
    | .groups => groupChain rm r ((List.range ((len + 31) / 32)).map (group i j)) l
    | .wrapping => (wrapSum r ((List.range len).map fun y => (valInt fa (a i y), valInt fb (b y j))), l)
  let F := fmt.getD G
  let size := cfgRows D.shape * cfgCols D.shape
  (K.mxCfg.check (.mma ta tb rm ad k ka) = none → ∃ data l,
    s.performMat c sl (op (.mma ta tb rm ad k ka)) = .ok (s.setCore c (K.setAcc ad { D with data })) l ∧
    Says.Runs (m * n) product (elemAt data G) l0 l) ∧
  (K.mxCfg.check (.accv rm sat k ad fmt) = none → ∃ data l,
    s.performMat c sl (op (.accv rm sat k ad fmt)) = .ok (s.setCore c (K.setTile k { A with
      cfg := BitVec.ofNat 64 (cfgRows D.shape + 2 ^ 8 * cfgCols D.shape + 2 ^ 16 * F.code.toNat + 2 ^ 31), data
      band := memOf (List.replicate 256 0x7F) })) l ∧
    (F = G → (∀ i < size, elemAt data F i = elemAt D.data G i) ∧ l = l0) ∧
    (F ≠ G → Says.Runs size (fun i l => convert G F rm sat (elemAt D.data G i) l) (elemAt data F) l0 l))

/-- The operations of rows when they complete (R256 to R258, R262). The bytes of row i are those at a + i × stride, cut at lines; loads take
them through the core's L1 row after row, zeros for a poisoned line, which is reported; stores write them element by element, the
highest row last, but for those that the operation has written before it had to wait. TLD and ACLD fill the elements, TSCL the side band;
TST writes bits 7:6 of six-bit elements as zero. -/
def Says.MatrixMemory : Prop := ∀ (s : State) (c sl : Nat) (o : MatOp) (r : Rows) (i j : Nat) (k : Tile) (ad : Acc) (x str p : Word) (n : Nat)
    (t : List (Word × Nat)) (ps : List Word) (bs : List Byte) (bad : Option Word),
  let K := s.core c
  let m := K.mxCfg
  let l0 : Fl := { flags := 0, seed := o.seed }
  let told (u : State) (bad : Option Word) : State := match bad with
    | some p => u.report c sl { cause := 0x16, taddr := p, tval := o.pc, mat := true }
    | none => u
  let loads (kind : MatKind) (f : Core → List Byte → Core) : Prop := o.kind = kind → ∀ r, m.rows kind = some r →
    ∀ u bs bad, s.readRows c o r = .ok u (bs, bad) → s.performMat c sl o = .ok (told (u.setCore c (f (u.core c) bs)) bad) l0
  let saves (kind : MatKind) (bs : Nat → List Byte) : Prop := o.kind = kind → ∀ r, m.rows kind = some r →
    ∀ u, s.writeRows c sl o r (bs (r.n * r.len)) = .ok u () → s.performMat c sl o = .ok u l0
  let six (b : Byte) : Byte := if (tileFmt (K.tile k).cfg).bits = 6 then b &&& 0x3F else b
  loads (.tld k x str) (fun K bs => K.setTile k { K.tile k with data := memOf bs }) ∧
  loads (.tscl k x str) (fun K bs => K.setTile k { K.tile k with band := (K.tile k).band.setBytes 0 bs }) ∧
  loads (.acld ad x str) (fun K bs => K.setAcc ad { K.acc ad with data := memOf bs }) ∧
  saves (.tst k x str) (fun len => ((K.tile k).data.bytes 0 len).map six) ∧
  saves (.acst ad x str) (fun len => (K.acc ad).data.bytes 0 len) ∧
  (r.row i).flatMap (fun e => (List.range e.2).map fun y => e.1 + BitVec.ofNat 64 y) =
    (List.range r.len).map (fun y => r.a + BitVec.ofNat 64 i * r.str + BitVec.ofNat 64 y) ∧
  (∀ e ∈ r.row i, 0 < e.2 ∧ e.1.toNat % 64 + e.2 ≤ 64) ∧
  s.readPieces c o [] (bs, bad) = .ok s (bs, bad) ∧
  (∀ u got dead, s.load c (o.target s p) n = .ok u (got, dead) → s.readPieces c o ((p, n) :: t) (bs, bad) = u.readPieces c o t
    (bs ++ (if dead = true then leBytes n 0 else got), if dead = true ∧ bad = none then some p else bad)) ∧
  s.readRows c o { r with n := 0 } = .ok s ([], none) ∧
  (∀ u got, s.readRows c o { r with n := n } = .ok u got → s.readRows c o { r with n := n + 1 } = u.readPieces c o (r.row n) got) ∧
  (r.elems i).map (fun q => q - (r.a + BitVec.ofNat 64 i * r.str)) = (List.range (r.len / r.esz)).map (fun j => BitVec.ofNat 64 (j * r.esz)) ∧
  s.writeElems c sl o n j [] bs = .ok s () ∧
  (j < o.written → s.writeElems c sl o n j (p :: ps) bs = s.writeElems c sl o n (j + 1) ps (bs.drop n)) ∧
  (o.written ≤ j → ∀ u, s.store c sl (o.target s p) (bs.take n) p o.pc = .ok u () →
    let v := u.setThread c sl ((s.thread c sl).markReports (u.thread c sl))
    s.writeElems c sl o n j (p :: ps) bs = (v.setHead c sl { o with written := j + 1 }).writeElems c sl o n (j + 1) ps (bs.drop n)) ∧
  (o.written ≤ j → ∀ u w, s.store c sl (o.target s p) (bs.take n) p o.pc = .wait u w →
    s.writeElems c sl o n j (p :: ps) bs = .wait u w) ∧
  (∀ (t0 t1 : Thread) (new : List TrapInfo), t1.merged = t0.merged → t1.reports = t0.reports ++ new →
    t0.markReports t1 = { t1 with reports := t0.reports ++ new.map fun e => { e with mat := true } }) ∧
  s.writeRows c sl o { r with n := 0 } bs = .ok s () ∧
  (∀ u, s.writeRows c sl o { r with n := n } bs = .ok u () → s.writeRows c sl o { r with n := n + 1 } bs =
    u.writeElems c sl o r.esz (n * (r.elems n).length) (r.elems n) ((bs.drop (n * r.len)).take r.len))

/-- The operations of the orthogonal accumulator when they complete (R277 to R282, R285, R286, R288). Each stage gives its whole array, row
by row, before the next begins, every element a fused chain. A fold puts E·(I − Y·T·Yᵀ) into E and empties Y and T. QAPP folds a full
register, then appends its column. QAPL and QAPR apply Q or its transpose from their side. QST writes the image, QFORM what QAPL makes
of the identity. -/
def Says.OrthogonalEffects : Prop := ∀ (s : State) (c sl : Nat) (pc : Word) (ls : List (Word × Target)) (k : Tile) (ad : Acc) (q : QReg)
    (tau x str : Word) (seed : BitVec 32) (rm : RM) (tr : Bool) (col : BitVec 4),
  let K := s.core c
  let op (kind : MatKind) : MatOp := { pc, kind, seed, begun := true, lines := ls }
  let l0 : Fl := { flags := 0, seed }
  let w := (K.orth q).st
  let F := orthFmt w
  let n := orthN w
  let cap := orthCap w
  let ef : Prop := w.getLsbD 18 = true
  let eye (i j : Nat) : Nat := if i = j then (if F = .fp32 then 0x3F800000 else 0x3FF0000000000000) else 0
  let Y0 (i r : Nat) : Nat := elemAt (K.orth q).y F (i * cap + r)
  let T0 (i j : Nat) : Nat := elemAt (K.orth q).t F (i * cap + j)
  let E0 (i j : Nat) : Nat := if w.getLsbD 18 then elemAt (K.orth q).e F (i * n + j) else eye i j
  let dot (neg : Bool) (start lo hi : Nat) (a b : Nat → Nat) (l : Fl) : Nat × Fl := chain F rm start
    ((List.range (hi - lo)).map fun y => (if neg then (F.val (a (lo + y))).negate else F.val (a (lo + y)), F.val (b (lo + y)))) l
  let array (rows cols : Nat) (f : Nat → Nat → Fl → Nat × Fl) (a : Nat → Nat → Nat) : Fl → Fl → Prop :=
    Says.Runs (rows * cols) (fun y => f (y / cols) (y % cols)) (fun y => a (y / cols) (y % cols))
  let same (rows cols : Nat) (a b : Nat → Nat → Nat) (l l' : Fl) : Prop := (∀ i < rows, ∀ j < cols, a i j = b i j) ∧ l' = l
  let folded (E : Nat → Nat → Nat) (l l' : Fl) : Prop := ∃ W U l1 l2,
    (if w.getLsbD 18 then array n (orthK w) (fun i r => dot false 0 0 n (E0 i) fun y => Y0 y r) W l l1 else same n (orthK w) W Y0 l l1) ∧
    array n (orthK w) (fun i r => dot false 0 0 (r + 1) (W i) fun y => T0 y r) U l1 l2 ∧
    array n n (fun i j => dot true (E0 i j) 0 (orthK w) (U i) (Y0 j)) E l2 l'
  let word (K EF FOLDS : Nat) : Word := BitVec.ofNat 64 (w.toNat % 2 ^ 18 + 2 ^ 18 * EF + 2 ^ 24 * K + 2 ^ 31 + 2 ^ 32 * (FOLDS % 2 ^ 32))
  let eStage (left : Bool) (m : Nat) (C C' : Nat → Nat → Nat) (l l' : Fl) : Prop :=
    if w.getLsbD 18 then
      if left then array n m (fun i j => dot false 0 0 n (fun y => if tr then E0 y i else E0 i y) fun y => C y j) C' l l'
      else array m n (fun i j => dot false 0 0 n (C i) fun y => if tr then E0 j y else E0 y j) C' l l'
    else if left then same n m C' C l l' else same m n C' C l l'
  let onLeft (m : Nat) (C C' : Nat → Nat → Nat) (l l' : Fl) : Prop := ∃ C1 C2 W U l1 l2 l3 l4,
    (if tr then eStage true m C C1 l l1 else same n m C1 C l l1) ∧
    array (orthK w) m (fun r j => dot false 0 0 n (fun y => Y0 y r) fun y => C1 y j) W l1 l2 ∧
    array (orthK w) m (fun r j => if tr then dot false 0 0 (r + 1) (fun y => T0 y r) fun y => W y j
      else dot false 0 r (orthK w) (T0 r) fun y => W y j) U l2 l3 ∧
    array n m (fun i j => dot true (C1 i j) 0 (orthK w) (Y0 i) fun y => U y j) C2 l3 l4 ∧
    (if tr then same n m C' C2 l4 l' else eStage true m C2 C' l4 l')
  let onRight (m : Nat) (C C' : Nat → Nat → Nat) (l l' : Fl) : Prop := ∃ C1 C2 W U l1 l2 l3 l4,
    (if tr then same m n C1 C l l1 else eStage false m C C1 l l1) ∧
    array m (orthK w) (fun i r => dot false 0 0 n (C1 i) fun y => Y0 y r) W l1 l2 ∧
    array m (orthK w) (fun i r => if tr then dot false 0 r (orthK w) (W i) (T0 r) else dot false 0 0 (r + 1) (W i) fun y => T0 y r) U l2 l3 ∧
    array m n (fun i j => dot true (C1 i j) 0 (orthK w) (U i) (Y0 j)) C2 l3 l4 ∧
    (if tr then eStage false m C2 C' l4 l' else same m n C' C2 l4 l')
  let D := K.acc ad
  let G := accFmt D.shape
  let C (i j : Nat) : Nat := elemAt D.data G (i * cfgCols D.shape + j)
  let v (i : Nat) : Nat := elemAt (K.tile k).data (tileFmt (K.tile k).cfg) (i * cfgCols (K.tile k).cfg + col.toNat)
  let t := tau.toNat % 2 ^ F.bits
  let q' (st : Word) (y t e : Mem) : Core := K.setOrth q { st, y, t, e }
  1 ≤ orthN w ∧ orthN w ≤ 64 ∧ 1 ≤ cap ∧ cap ≤ 32 ∧ orthK w ≤ cap ∧ w.getLsbD 31 = true →
  (1 ≤ orthK w → ∃ e l, s.performMat c sl (op (.qfold rm q)) = .ok (s.setCore c (q' (word 0 1 (orthFolds w + 1)) [] [] e)) l ∧
    folded (fun i j => elemAt e F (i * n + j)) l0 l) ∧
  (K.mxCfg.check (.qapp rm q k tau col) = none →
    let full : Prop := orthK w = cap
    let k0 := if orthK w = cap then 0 else orthK w
    ∃ y t' e l1 l2 l3 l W U, s.performMat c sl (op (.qapp rm q k tau col)) = .ok (s.setCore c (q'
      (word (k0 + 1) (if orthK w = cap then 1 else if w.getLsbD 18 then 1 else 0) (orthFolds w + if orthK w = cap then 1 else 0)) y t' e)) l ∧
    (full → folded (fun i j => elemAt e F (i * n + j)) l0 l1) ∧ (¬full → l1 = l0) ∧
    (¬full → ef → ∀ i < n, ∀ j < n, elemAt e F (i * n + j) = E0 i j) ∧ (¬full → ¬ef → e = []) ∧
    Says.Runs k0 (fun r => dot false 0 0 n (fun y => Y0 y r) v) W l1 l2 ∧
    Says.Runs k0 (fun r => dot false 0 r k0 (T0 r) W) U l2 l3 ∧
    Says.Runs k0 (fun r => roundPre F rm (preMul (F.val t).negate (F.val (U r)))) (fun r => elemAt t' F (r * cap + k0)) l3 l ∧
    elemAt t' F (k0 * cap + k0) = t ∧ (∀ i < k0, ∀ j < k0, i ≤ j → elemAt t' F (i * cap + j) = T0 i j) ∧
    ∀ i < n, elemAt y F (i * cap + k0) = v i ∧ ∀ j < k0, elemAt y F (i * cap + j) = Y0 i j) ∧
  (K.mxCfg.check (.qapl tr rm ad q) = none → ∃ data l,
    s.performMat c sl (op (.qapl tr rm ad q)) = .ok (s.setCore c (K.setAcc ad { D with data })) l ∧
    onLeft (cfgCols D.shape) C (fun i j => elemAt data G (i * cfgCols D.shape + j)) l0 l) ∧
  (K.mxCfg.check (.qapr tr rm ad q) = none → ∃ data l,
    s.performMat c sl (op (.qapr tr rm ad q)) = .ok (s.setCore c (K.setAcc ad { D with data })) l ∧
    onRight (cfgRows D.shape) C (fun i j => elemAt data G (i * cfgCols D.shape + j)) l0 l) ∧
  (∀ r, K.mxCfg.rows (.qform rm q x str) = some r → ∃ bs l, bs.length = n * n * ((F.store) / 8) ∧
    (tr = false → onLeft n eye (fun i j => elemAt (memOf bs) F (i * n + j)) l0 l) ∧
    ∀ u, s.writeRows c sl (op (.qform rm q x str)) r bs = .ok u () → s.performMat c sl (op (.qform rm q x str)) = .ok u l) ∧
  (∀ r, K.mxCfg.rows (.qst q x) = some r → ∃ bs : List Byte, bs.length = r.len ∧
    bs.take 64 = leBytes 8 w.toNat ++ leBytes 8 1 ++ leBytes 48 0 ∧
    (let z := F.store / 8
     let at0 (off i : Nat) : Nat := elemAt (memOf (bs.drop off)) F i
     (∀ i < n, ∀ j < cap, at0 64 (i * cap + j) = if j < orthK w then Y0 i j else 0) ∧
     (∀ i < cap, ∀ j < cap, at0 (64 + z * (n * cap)) (i * cap + j) = if i ≤ j ∧ j < orthK w then T0 i j else 0) ∧
     (ef → ∀ i < n, ∀ j < n, at0 (64 + z * (n * cap + cap * cap)) (i * n + j) = E0 i j)) ∧
    ∀ u, s.writeRows c sl (op (.qst q x)) r bs = .ok u () → s.performMat c sl (op (.qst q x)) = .ok u l0)

/-- What the operations of the matrix engine and the orthogonal accumulator do when they complete. -/
def Obligations.MatrixEffects : Prop :=
  Says.MatrixZeroing ∧ Says.ElementSums ∧ Says.MatrixProducts ∧ Says.MatrixMemory ∧ Says.OrthogonalEffects

/-! ### Cordwain's commands (spec/22_confidential_code.md, spec/23_host_fabric_partitions.md, spec/24_firmware_management.md) -/

/-- The commands on contexts and jobs (R342, R346, R352, R364 to R367, R382, R383, R392, R407, R408). A step of another command than the
one at the head of Cordwain's order does nothing; reserved bytes that are not zero answer BADREQ, and a context that is not the
function's NOCTX. IDENTIFY and ATTEST answer their reports. CTX_CREATE checks form, clusters, their holders and the interface in that
order and makes the context of the lowest free owner number, whose cores belong to it; SUB 1 installs a root entry and SUB 2 asks for its
removal. CTX_DESTROY destroys, or waits for a save, also a second one. JOB_START starts the root launch of a checked record; a
context in its grace period is not yet being saved (R339), and what a refused one has found leaves its records only. That a removal asked for twice is BADREQ is the model's choice, log 57, as the
order of the checks (log 40), the route table (log 60), the key slot of the pages of a root entry (log 61), what a grace period lets through (log 41) and the fit of an image (log 13) are. JOB_CANCEL cancels the job, now
or once a save completes. PREEMPT begins a grace period. RESTORE refuses a wrong image and reloads a right one. -/
def Says.ContextSteps : Prop := ∀ s : State,
  let fn := s.ev.fn
  let f := s.fnc fn
  let s0 := { s with hub := { s.hub with cmdQ := s.hub.cmdQ.drop 1 } }
  let due (op : Nat) (sub : Nat → Bool) : Prop := s.hub.cmdQ.head? = some fn ∧ f.cmdOp.toNat = op ∧ sub (f.arg 0 1) = true
  let any : Nat → Bool := fun _ => true
  let create : Nat → Bool := fun n => n != 1 && n != 2
  let rows : List (Instr × Nat × (Nat → Bool) × List (Nat × Nat)) := [
    (.identify, 1, any, []), (.attest, 2, any, [(0, 32), (32, 2)]),
    (.ctxCreate, 3, create, [(0, 1), (8, 8), (16, 8), (24, 8), (32, 1), (40, 8)]),
    (.ctxCreateRootEntry, 3, (· == 1), [(0, 1), (8, 2), (16, 8), (24, 8), (32, 1), (33, 1)]),
    (.ctxCreateRemoveRoot, 3, (· == 2), [(0, 1), (8, 2), (16, 8)]), (.ctxDestroy, 4, any, [(8, 2)]),
    (.jobStart, 5, any, [(8, 2), (16, 8), (24, 8), (32, 8)]), (.jobCancel, 6, any, [(8, 2)]),
    (.preempt, 7, any, [(8, 2), (16, 4), (24, 8), (32, 8)]), (.restore, 8, any, [(8, 2), (16, 8), (24, 8)])]
  let does (i : Instr) (r : State) : Prop := ∀ e ∈ rows, e.1 = i → due e.2.1 e.2.2.1 → f.reservedOk e.2.2.2 = true → exec i s = .next r
  let o := f.arg 8 2
  let k := s.ctx o
  let own : Prop := s.ownedBy fn o = some k
  let p := f.arg 16 8
  let n := f.arg 24 8
  let down : Prop := ∃ e ∈ s.hub.expDown, let b := s.own (expBase + e * expBytes)
    p < b + expBytes ∧ b < p + n
  (∀ e ∈ rows, (¬due e.2.1 e.2.2.1 → exec e.1 s = .next s) ∧
    (due e.2.1 e.2.2.1 → f.reservedOk e.2.2.2 = false → exec e.1 s = .next (s0.finish fn .badreq))) ∧
  (∀ (u : State) st bytes, let v := (u.finish fn st bytes).fnc fn
    v.busy = false ∧ v.stStatus = BitVec.ofNat 8 st.code ∧ v.stSeq = (u.fnc fn).cmdSeq ∧ Says.Signals (u.fnc fn) v 0 ∧
    (st = .ok → v.resp.bytes 0 bytes.length = bytes) ∧ (u.finish fn st bytes).mem = u.mem) ∧
  does .identify (s0.finish fn .ok (leBytes 8 Config.partCode.toNat ++ leBytes 8 Config.stepping.toNat ++
    leBytes 8 s.dev.devnum.toNat ++ leBytes 8 fn ++ firmware)) ∧
  (s.ownedBy fn (f.arg 32 2) = none → does .attest (s0.finish fn .noctx)) ∧
  (∀ k, s.ownedBy fn (f.arg 32 2) = some k → ∃ sig : List Byte, sig.length = 384 ∧
    let r := s0.textMeasures (f.arg 32 2)
    does .attest ({ r.1 with free := r.1.free + 1 }.finish fn .ok (r.1.attestBody k.fn (f.arg 32 2) (f.req.bytes 0 32) r.2 ++ sig))) ∧
  (let mask := f.arg 8 8
   let flags := f.arg 16 8
   let cap := f.arg 32 1
   let formed : Prop := f.arg 0 1 = 0 ∧ flags ≤ 1 ∧ 6 ≤ cap ∧ cap ≤ 20 ∧ mask ≠ 0 ∧ mask &&& f.clusters = mask
   (¬formed → does .ctxCreate (s0.finish fn .badreq)) ∧
   (formed → mask &&& s.heldClusters ≠ 0 → does .ctxCreate (s0.finish fn .busy)) ∧
   (formed → mask &&& s.heldClusters = 0 → flags = 1 → f.tdisp ≠ .locked → f.tdisp ≠ .run → does .ctxCreate (s0.finish fn .denied)) ∧
   (formed → mask &&& s.heldClusters = 0 → s.freeOwner = none → (flags = 1 → f.tdisp = .locked ∨ f.tdisp = .run) →
     does .ctxCreate (s0.finish fn .full)) ∧
   (∀ x, formed → mask &&& s.heldClusters = 0 → flags = 0 → s.freeOwner = some x → ∃ u : State, does .ctxCreate (u.finish fn .ok
     (leBytes 2 x ++ leBytes 2 0)) ∧ (∀ y, 1 ≤ y → y < x → (Map.find? s.ctxs y).isSome) ∧ u.mem = s.mem ∧
     u.ctx x = { fn, tab := tableOf mask, routes := routesOf x (tableOf mask), svec := BitVec.ofNat 64 n, cap := 2 ^ cap, allow := BitVec.ofNat 64 (f.arg 40 8) } ∧
     ∀ c ∈ (u.ctx x).cores, (u.core c).owner = BitVec.ofNat 16 x ∧ (u.core c).threads = []) ∧
   (∀ x slot v, formed → mask &&& s.heldClusters = 0 → flags = 1 → f.tdisp = .locked ∨ f.tdisp = .run → s.freeOwner = some x →
     s.freeKeySlot = some slot → s.freeEntry = some v → ∃ u : State, does .ctxCreate (u.finish fn .ok (leBytes 2 x ++ leBytes 2 v)) ∧
     u.mem = s.mem ∧ (Map.getD u.hub.vtab v {}).kind = 1 ∧ (Map.getD u.hub.vtab v {}).owner = x ∧ u.hub.draws = s.hub.draws + 2 ∧
     (∃ keys, Map.find? u.hub.slotKeys slot = some keys ∧ keys.xts.length = 64 ∧ keys.mac.length = 32) ∧
     u.ctx x = { fn, prot := true, tab := tableOf mask, routes := routesOf x (tableOf mask), svec := BitVec.ofNat 64 n, cap := 2 ^ cap, allow := BitVec.ofNat 64 (f.arg 40 8),
                 keySlot := slot, vidx := v, key := Config.drawKey s.hub.draws }) ∧
   (formed → mask &&& s.heldClusters = 0 → flags = 1 → f.tdisp = .locked ∨ f.tdisp = .run → s.freeKeySlot = none ∨ s.freeEntry = none →
     does .ctxCreate (s0.finish fn .full))) ∧
  (s.ownedBy fn o = none →
    does .ctxCreateRootEntry (s0.finish fn .noctx) ∧ does .ctxCreateRemoveRoot (s0.finish fn .noctx) ∧
    does .ctxDestroy (s0.finish fn .noctx) ∧ does .jobCancel (s0.finish fn .noctx) ∧ does .restore (s0.finish fn .noctx)) ∧
  (own →
    let bad : Prop := p % 64 ≠ 0 ∨ n = 0 ∨ p / 2 ^ 56 ≠ 0 ∨ oneRegion p (64 * n) = false ∨ 15 < f.arg 32 1 ∨
      (s.table o).any (fun e => e.meets (p / 64) n) = true
    (bad → does .ctxCreateRootEntry (s0.finish fn .badreq)) ∧
    (¬bad → k.cap ≤ k.rights.length → does .ctxCreateRootEntry (s0.finish fn .full)) ∧
    (¬bad → k.rights.length < k.cap → ∃ u : State, does .ctxCreateRootEntry (u.finish fn .ok (leBytes 8 s.hub.nextGid)) ∧
      ({ base := p / 64, len := n, age := BitVec.ofNat 8 (f.arg 33 1), rights := BitVec.ofNat 4 (f.arg 32 1), gid := s.hub.nextGid } :
        REntry) ∈ u.table o ∧ (∀ e ∈ s.table o, e ∈ u.table o) ∧ u.hub.nextGid = s.hub.nextGid + 1 ∧ (k.prot = false → u.mem = s.mem))) ∧
  (own → (∀ e ∈ s.table o, e.pgid = 0 → e.gid ≠ p) → does .ctxCreateRemoveRoot (s0.finish fn .badreq)) ∧
  (own → (∃ q ∈ s.hub.secQ, q.owner = o ∧ ∃ g, q.kind = .removeRoot p g) → does .ctxCreateRemoveRoot (s0.finish fn .badreq)) ∧
  (own → (∃ e ∈ s.table o, e.pgid = 0 ∧ e.gid = p) → (∀ q ∈ s.hub.secQ, q.owner = o → ∀ g, q.kind ≠ .removeRoot p g) → does .ctxCreateRemoveRoot
    { s0 with hub := { s0.hub with secQ := s.hub.secQ ++ [{ kind := .removeRoot p (some fn), owner := o }] } }) ∧
  (own → k.save = .grace ∨ k.save = .draining →
    does .ctxDestroy (s0.setCtx o { k with destroyWaits := k.destroyWaits ++ [fn] })) ∧
  (own → k.save = .running ∨ k.save = .saved → does .ctxDestroy (s0.destroy o .cancelled (some fn))) ∧
  (let sched := BitVec.ofNat 64 n
   let spill := BitVec.ofNat 64 (f.arg 32 8)
   let free : Prop := k.save = .running ∨ k.save = .grace
   let root := s0.rootRecord o (BitVec.ofNat 64 p)
   (schedOk sched = false → does .jobStart (s0.finish fn .badreq)) ∧
   (schedOk sched = true → s.ownedBy fn o = none → does .jobStart (s0.finish fn .noctx)) ∧
   (schedOk sched = true → own →
     (k.job ≠ none ∨ ¬free → does .jobStart (s0.finish fn .busy)) ∧
     (k.job = none → free → k.prot = true →
       (s.fnc k.fn).tdisp ≠ .run ∨ (s.fnc k.fn).spdm.session = none → does .jobStart (s0.finish fn .denied)) ∧
     (k.job = none → free →
       (k.prot = true → (s.fnc k.fn).tdisp = .run ∧ (s.fnc k.fn).spdm.session ≠ none) →
       (root.2 = none → does .jobStart ((s0.keepRecords root.1).finish fn .badreq)) ∧
       (∀ r, root.2 = some r → p % 128 = 0 ∧
         let l : Launch := { ptr := BitVec.ofNat 64 p, recd := r, owner := o }
         let j : Job := { sched, spillBase := spill, root := root.1.hub.nextLaunch }
         (root.1.lqFull o j l.pw l.graph ≠ none → does .jobStart ((s0.keepRecords root.1).finish fn .full)) ∧
         (root.1.lqFull o j l.pw l.graph = none → does .jobStart
           (((root.1.setCtx o { root.1.ctx o with job := some j, lastStatus := .running, lastDone := 0 }).enterLaunch o 0 (BitVec.ofNat 64 p) r).1.finish
             fn .ok)))))) ∧
  (own → k.save = .draining → does .jobCancel (s0.setCtx o { k with cancelWaits := k.cancelWaits ++ [fn] })) ∧
  (own → k.save = .running ∨ k.save = .grace → let r := s0.cancelJob o none .cancelled
    does .jobCancel ((r.1.settleJob o).finish fn .ok (leBytes 8 r.2))) ∧
  (own → k.save = .saved → let r := s0.cancelSaved o .cancelled
    does .jobCancel (r.1.finish fn .ok (leBytes 8 r.2))) ∧
  (let g := f.arg 16 4
   let size := f.arg 32 8
   let formed : Prop := g ≤ 1000000 ∧ n % 4096 = 0 ∧ s.imageRoom n size = true
   (¬formed → does .preempt (s0.finish fn .badreq)) ∧
   (formed → s.ownedBy fn o = none → does .preempt (s0.finish fn .noctx)) ∧
   (formed → own → k.save ≠ .running → does .preempt (s0.finish fn .busy)) ∧
   (formed → own → k.save = .running → does .preempt (s0.setCtx o { k with
     save := .grace, pre := some { left := 940 * (if g = 0 then 2000 else g), dest := n, size, fn := some fn } }))) ∧
  (own → k.save ≠ .saved → does .restore (s0.finish fn .busy)) ∧
  (own → k.save = .saved → k.prot = true → (s.fnc k.fn).tdisp ≠ .run → does .restore (s0.finish fn .denied)) ∧
  (own → k.save = .saved → down → (k.prot = true → (s.fnc k.fn).tdisp = .run) →
    does .restore ((s0.ras 1 3 (BitVec.ofNat 64 p) o).finish fn .badimage)) ∧
  (own → k.save = .saved → ¬down → k.prot = false →
    (headerOk k o n (s.mem.bytes p 256) = false → does .restore (s0.finish fn .badimage)) ∧
    (headerOk k o n (s.mem.bytes p 256) = true →
      let m := imageOf false k.tab.length (s.mem.bytes p n)
      does .restore (if m.fits k (s.mem.bytes p n) then (s0.loadImage o p m).finish fn .ok else s0.finish fn .badimage))) ∧
  (own → k.save = .saved → ¬down → k.prot = true → (s.fnc k.fn).tdisp = .run →
    let h := s.mem.bytes p 256
    let open_ := gcmOpen k.key (imageIv (numAt h 16 8) (numAt h 24 4)) h (slice (s.mem.bytes p n) 256 (n - 272))
      ((s.mem.bytes p n).drop (n - 16))
    (headerOk k o n h = false → does .restore (s0.finish fn .badimage)) ∧
    (headerOk k o n h = true → numAt h 16 8 ≠ (Map.getD s.hub.vtab k.vidx {}).saveCtr → does .restore (s0.finish fn .staleImage)) ∧
    (headerOk k o n h = true → numAt h 16 8 = (Map.getD s.hub.vtab k.vidx {}).saveCtr →
      (open_ = none → does .restore (((s0.finish fn .tagFail).alarm2 9 (BitVec.ofNat 64 p) o).countTagFail o)) ∧
      ∀ b, open_ = some b → let img := h ++ b ++ leBytes 16 0
        let m := imageOf true k.tab.length img
        does .restore (if m.fits k img then (s0.loadImage o p m).finish fn .ok else s0.finish fn .badimage)))

/-- The bytes of an ATTEST report before its signature (R382, R383), and the measurement of a text window. -/
def Says.AttestReport : Prop := ∀ (s : State) (fn o : Nat) (nonce : List Byte) (texts : List (List Byte)) (w : TextWin),
  let k := s.ctx o
  let R := s.attestBody fn o nonce texts
  let zeros (n : Nat) : List Byte := List.replicate n 0
  let counter := if k.prot then (Map.getD s.hub.vtab k.vidx {}).saveCtr else 0
  (nonce.length = 32 → texts.length = 4 → (∀ t ∈ texts, t.length = 32) →
    R.length = 512 ∧ numAt R 0 4 = 0x5A394152 ∧ numAt R 4 2 = 1 ∧ numAt R 6 2 = (if k.prot then 1 else 0) ∧
    numAt R 8 4 = s.dev.devnum.toNat ∧ numAt R 12 4 = Config.stepping.toNat % 2 ^ 32 ∧ numAt R 16 8 = Config.partCode.toNat ∧
    slice R 24 8 = zeros 8 ∧ slice R 32 32 = nonce ∧ slice R 64 32 = firmware ∧ slice R 96 32 = sha256 ((s.fnc k.fn).cfg.bytes 0 64) ∧
    numAt R 128 2 = o % 2 ^ 16 ∧ numAt R 130 2 = (if k.prot then k.vidx else 0) % 2 ^ 16 ∧ numAt R 132 4 = 0 ∧
    numAt R 136 8 = counter % 2 ^ 64 ∧ slice R 144 128 = texts.flatten ∧ slice R 272 32 = sha256 (Config.interfaceReport fn) ∧
    slice R 304 208 = zeros 208) ∧
  (w.valid = false → s.textMeasure o w = (s, zeros 32)) ∧
  (w.valid = true → let r := s.homeBytes o w.tagBase (w.len.toNat / 8)
    s.textMeasure o w = (r.1, sha256 (leBytes 8 w.textBase.toNat ++ leBytes 8 w.len.toNat ++ leBytes 4 w.epoch.toNat ++ r.2))) ∧
  ((∀ i < 4, (Map.getD k.wins i {}).valid = false) → s.textMeasures o = (s, List.replicate 4 (zeros 32)))

/-- The header and the sections of an image, and the checks of a header (R347, R352). What an image holds inside a section from 4 on is the
model's (log 13). -/
def Says.ImageLayout : Prop := ∀ (m : Image) (key : List Byte) (k : Ctx) (o len i : Nat) (h img : List Byte),
  let B := m.bytes key
  let n (off z : Nat) : Nat := numAt B off z
  let seal_ (x : Nat) : Nat := if m.prot then x else 0
  let place := (placeSections 256 m.sections).getD i (0, 0)
  let d := imageOf m.prot k.tab.length img
  (imageLength m.sections < 2 ^ 64 → B.length = imageLength m.sections ∧ imageLength m.sections % 64 = 0 ∧ n 0 4 = 0x5A39494D ∧ n 4 2 = 1 ∧
    n 6 2 = (if m.prot then 1 else 0) + (if m.forced then 2 else 0) ∧ n 8 2 = m.owner % 2 ^ 16 ∧ n 10 2 = seal_ m.vidx % 2 ^ 16 ∧
    n 12 4 = 0 ∧ n 16 8 = seal_ m.ctr % 2 ^ 64 ∧ n 24 4 = seal_ m.attempt % 2 ^ 32 ∧ n 28 4 = 0 ∧ n 32 8 = imageLength m.sections ∧
    n 40 8 = m.phases % 2 ^ 64 ∧ n 48 16 = 0 ∧ n 176 80 = 0 ∧ m.sections.length = 7 ∧
    (i < 7 → n (64 + 16 * i) 8 = place.1 ∧ n (72 + 16 * i) 8 = place.2 ∧ place.1 % 64 = 0 ∧ 256 ≤ place.1 ∧
      place.1 + place.2 + 16 ≤ B.length ∧ (m.prot = false → slice B place.1 place.2 = m.sections.getD i [])) ∧
    (m.prot = false → B.drop (B.length - 16) = leBytes 16 0 ∧ sectionsOf B = m.sections)) ∧
  (headerOk k o len h = true ↔ numAt h 0 4 = 0x5A39494D ∧ numAt h 4 2 = 1 ∧ numAt h 6 2 < 4 ∧ (numAt h 6 2 % 2 = 1 ↔ k.prot = true) ∧
    numAt h 8 2 = o ∧ numAt h 10 2 = (if k.prot then k.vidx else 0) ∧ numAt h 12 4 = 0 ∧ numAt h 28 4 = 0 ∧ numAt h 32 8 = len ∧
    numAt h 48 16 = 0 ∧ numAt h 176 80 = 0 ∧ len % 64 = 0 ∧ 320 ≤ len ∧ (k.prot = false → numAt h 16 8 = 0 ∧ numAt h 24 4 = 0)) ∧
  d.owner = numAt img 8 2 ∧ d.vidx = numAt img 10 2 ∧ d.ctr = numAt img 16 8 ∧ d.attempt = numAt img 24 4 ∧ d.phases = numAt img 40 8 ∧
  (d.fits k img = true → d.cores.map (·.1) = k.cores.map k.logNo ∧ d.clusters.map (·.1) = k.tab.map (·.1) ∧
    d.header d.sections ++ imageBody d.sections = img.take (img.length - 16) ∧
    (m.prot = false → img.drop (img.length - 16) = leBytes 16 0))

/-- The commands on contexts and jobs, the report of ATTEST, and the images that PREEMPT writes and RESTORE checks. -/
def Obligations.ContextCommands : Prop := Says.ContextSteps ∧ Says.AttestReport ∧ Says.ImageLayout

/-- The commands on the device (R311, R325, R328, R358, R374, R375, R377, R378, R381, R403, R405, R407, R408, R410). Those the PF alone may send
answer DENIED to another function; reserved bytes that are not zero answer BADREQ. CHECKPOINT stops every context and, once all have
drained, writes the region, saves them and completes with entry 0's new SAVECTR; its recovery checks the region in order. SET_QOS replaces a
running job's scheduling word, where launches above its ceiling enter the level of that (in which order, log 64), or a function's configuration record. DIRTY_LOG_CFG writes a function's log
registers. READ_COUNTER answers what the allow-list admits and counts what it refuses. RAS_LOG answers and removes up to 62 records.
KEY_UPDATE sets a protected context's window, or its allow-list, from a request that its session's key opens; TEXT_KEY_SWITCH is a core's
boundary of it: unlocked lines of the window go and locked ones are filled again. The layout inside the parts of a checkpoint is the model's
(log 17), as the BADREQ of a missing region (log 8), the order of the checks (log 40) and KEY_UPDATE's waiting (log 42) are. -/
def Says.DeviceSteps : Prop := ∀ s : State,
  let fn := s.ev.fn
  let f := s.fnc fn
  let s0 := { s with hub := { s.hub with cmdQ := s.hub.cmdQ.drop 1 } }
  let due (op : Nat) (sub : Nat → Bool) : Prop := s.hub.cmdQ.head? = some fn ∧ f.cmdOp.toNat = op ∧ sub (f.arg 0 1) = true ∧
    (op = 9 → sub 0 = true → s.hub.ckpt = none) ∧ (op = 14 → sub 0 = true → (s.ctx (f.arg 8 2)).oldWin = none)
  let any : Nat → Bool := fun _ => true
  let update : List (Nat × Nat) := [(0, 1), (4, 4), (8, 2), (16, 8), (24, 1), (32, 32), (64, 32), (96, 16)]
  let rows : List (Instr × Nat × (Nat → Bool) × Bool × List (Nat × Nat)) := [
    (.checkpoint, 9, (· != 1), true, [(0, 1)]), (.checkpointRecover, 9, (· == 1), true, [(0, 1)]),
    (.setQos, 10, (· != 1), false, [(0, 1), (8, 2), (16, 8)]), (.setQosConfigRecord, 10, (· == 1), false, [(0, 1), (8, 8), (16, 64)]),
    (.dirtyLogCfg, 11, any, true, [(8, 8), (16, 8), (24, 8)]), (.readCounter, 12, any, false, [(8, 2), (16, 2), (20, 4)]),
    (.rasLog, 13, any, true, []), (.keyUpdate, 14, (· != 1), false, update),
    (.keyUpdateAllowList, 14, (· == 1), false, [(0, 1), (4, 4), (8, 2), (16, 8), (24, 8), (96, 16)])]
  let does (i : Instr) (r : State) : Prop := ∀ e ∈ rows, e.1 = i → due e.2.1 e.2.2.1 → (e.2.2.2.1 = true → fn = 0) →
    f.reservedOk e.2.2.2.2 = true → exec i s = .next r
  let o := f.arg 8 2
  let k := s.ctx o
  let own : Prop := s.ownedBy fn o = some k
  let C := s.ev.c
  (∀ e ∈ rows, due e.2.1 e.2.2.1 →
    (e.2.2.2.1 = true → fn ≠ 0 → exec e.1 s = .next (s0.finish fn .denied)) ∧
    ((e.2.2.2.1 = true → fn = 0) → f.reservedOk e.2.2.2.2 = false → exec e.1 s = .next (s0.finish fn .badreq))) ∧
  (f.arg 0 1 ≠ 0 ∨ s.regionOk = false → does .checkpoint (s0.finish fn .badreq)) ∧
  (f.arg 0 1 = 0 → s.regionOk = true → 2 ^ 20 - 1 ≤ s.fuse → does .checkpoint (s0.finish fn .full)) ∧
  (f.arg 0 1 = 0 → s.regionOk = true → s.fuse < 2 ^ 20 - 1 → ∃ u : State, does .checkpoint u ∧ u.hub.ckpt = some fn ∧
    ∀ x, (Map.find? s.ctxs x).isSome → (s.ctx x).save = .running ∨ (s.ctx x).save = .grace → (u.ctx x).save = .draining) ∧
  (∀ g, s.hub.ckpt = some g → let v := s.stopAll g
    (v.checkpointReady = false → exec .checkpoint s = .next v) ∧
    (v.checkpointReady = true → (∀ e ∈ v.ctxs, e.2.cancelWaits = [] ∧ e.2.destroyWaits = []) → ∃ u, exec .checkpoint s = .next u ∧
      u.hub.ckpt = none ∧ (u.fnc g).busy = false ∧ (u.fnc g).stStatus = 0 ∧ (u.fnc g).resp.bytes 0 8 = leBytes 8 u.fuse ∧
      u.mem = v.writeCheckpoint.mem ∧ u.fuse = v.writeCheckpoint.fuse ∧ ∀ o ∈ v.owners, (u.ctx o).save = (v.writeCheckpoint.ctx o).save)) ∧
  (s.ctxs ≠ [] → does .checkpointRecover (s0.finish fn .denied)) ∧
  (s.ctxs = [] → s.regionOk = false → does .checkpointRecover (s0.finish fn .badreq)) ∧
  (let ck := s.own s.dev.ckbase.toNat
   let h (off n : Nat) : Nat := numAt (s.mem.bytes ck 64) off n
   let found (a n : Nat) : State := if s.rangeDown a n = true then s0.ras 1 3 (BitVec.ofNat 64 a) 0 else s0
   let tagFail (part : Nat) : State := (((found part 4096).alarm1 9 (BitVec.ofNat 64 part) 0).countTagFail 0).finish fn .tagFail
   (s.ctxs = [] → s.regionOk = true → s.downExp ck = true → does .checkpointRecover ((found ck 64).finish fn .badimage)) ∧
   (s.ctxs = [] → s.regionOk = true → s.downExp ck = false →
     (h 0 4 ≠ 0x5A39434B ∨ h 4 2 ≠ 1 → does .checkpointRecover (s0.finish fn .badimage)) ∧
     (h 0 4 = 0x5A39434B → h 4 2 = 1 →
       let p1 := s0.openPart ck 4096 (h 8 8) 1
       let p2 := s0.openPart (ck + 4096) (s.mem.le (ck + 4096) 8) (h 8 8) 2
       let p3 := s0.openPart (ck + h 24 8) (s.mem.le (ck + h 24 8) 8) (h 8 8) 3
       (p1 = none → does .checkpointRecover (tagFail ck)) ∧
       (p1 ≠ none → h 8 8 ≠ s.fuse → does .checkpointRecover (s0.finish fn .staleImage)) ∧
       (p1 ≠ none → h 8 8 = s.fuse → p2 = none → does .checkpointRecover (tagFail (ck + 4096))) ∧
       (p1 ≠ none → h 8 8 = s.fuse → p2 ≠ none → p3 = none → does .checkpointRecover (tagFail (ck + h 24 8))) ∧
       (h 8 8 = s.fuse → ∀ dir b2 b3 keys d r2 r3, p1 = some dir → p2 = some b2 → p3 = some b3 →
         rdKeys ((bytesWords b2).map BitVec.toNat) = some (keys, r2) → rdDev ((bytesWords b3).map BitVec.toNat) = some (d, r3) →
         does .checkpointRecover (if clash d.ctxs || d.ctxs.any (fun e => (s.functionOf e.2).isNone) then s0.finish fn .badimage
           else (s0.recover d keys dir ck (h 32 8) (h 40 8)).finish fn .ok (leBytes 8 d.ctxs.length))))) ∧
   (∀ at0 len ctr part, let bs := s.mem.bytes at0 len
     s.openPart at0 len ctr part = if s.rangeDown at0 len = true then none else gcmOpen Config.checkpointKey (leBytes 8 ctr ++ leBytes 4 part)
       (bs.take 64) ((bs.drop 64).take (len - 80)) (bs.drop (len - 16)))) ∧
  (let sched := BitVec.ofNat 64 (f.arg 16 8)
   (f.arg 0 1 ≠ 0 ∨ schedOk sched = false → does .setQos (s0.finish fn .badreq)) ∧
   (f.arg 0 1 = 0 → schedOk sched = true → s.ownedBy fn o = none → does .setQos (s0.finish fn .noctx)) ∧
   (f.arg 0 1 = 0 → schedOk sched = true → own → k.job = none → does .setQos (s0.finish fn .badreq)) ∧
   (∀ j, f.arg 0 1 = 0 → schedOk sched = true → own → k.job = some j → ∃ u : State, does .setQos (u.finish fn .ok) ∧
     (∃ j', (u.ctx o).job = some j' ∧ j'.sched = sched ∧ j'.ceil = f.arg 19 1 % 64) ∧ u.mem = s.mem ∧
     ((s.launches.map (·.1)).Nodup → ∀ num l, s.launch? num = some l → ∃ l', u.launch? num = some l' ∧
       let above : Prop := l.owner = o ∧ l.completed = false ∧ f.arg 19 1 % 64 < l.level
       (above → l'.level = f.arg 19 1 % 64 ∧ (l.slot.isSome = true → l'.waitClk = 0)) ∧ (¬above → l' = l)))) ∧
  (let g := f.arg 8 8
   let r : Mem := Mem.setBytes [] 0 (f.req.bytes 16 64)
   let other := r.bytes 0 24 != (s.fnc g).cfg.bytes 0 24 || r.bytes 32 32 != (s.fnc g).cfg.bytes 32 32
   let bad := !recordOk g r || s.recordClash g r || (other && s.ctxs.any (fun k => k.2.fn == g))
   (32 < g → does .setQosConfigRecord (s0.finish fn .badreq)) ∧
   (g ≤ 32 → fn ≠ 0 → g ≠ fn → does .setQosConfigRecord (s0.finish fn .denied)) ∧
   (g ≤ 32 → (fn ≠ 0 → g = fn) → bad = true → does .setQosConfigRecord (s0.finish fn .badreq)) ∧
   (g ≤ 32 → (fn ≠ 0 → g = fn) → bad = false → ∃ u : State, does .setQosConfigRecord (u.finish fn .ok) ∧ (u.fnc g).cfg = r ∧ u.mem = s.mem ∧
     ∀ l, ((Map.find? u.hub.links l).isSome = decide (l < 72 ∧ l % 4 ≤ (u.fnc 0).cfg.le (32 + l / 4) 1 % 4)) ∧
       ∀ x, Map.find? u.hub.links l = some x → x.owner = u.linkOwner l) ∧
   (32 < g → does .dirtyLogCfg (s0.finish fn .badreq)) ∧
   (g ≤ 32 → let u := (s0.writeDlbase g (BitVec.ofNat 64 (f.arg 16 8))).writeDlctl g (BitVec.ofNat 64 (f.arg 24 8))
     does .dirtyLogCfg (u.finish fn .ok (leBytes 8 (u.fnc g).dlProd.toNat)))) ∧
  (let cls := f.arg 16 2
   let idx := f.arg 20 4
   (counterOk cls idx = false → does .readCounter (s0.finish fn .badreq)) ∧
   (counterOk cls idx = true → s.ownedBy fn o = none → does .readCounter (s0.finish fn .noctx)) ∧
   (counterOk cls idx = true → own → k.allow.getLsbD cls = false →
     does .readCounter ((s0.setCtx o { k with audit := k.audit + 1 }).finish fn .filtered (leBytes 8 0))) ∧
   (counterOk cls idx = true → own → k.allow.getLsbD cls = true → ∃ v, does .readCounter
     ({ s0 with free := s.free + 1 }.finish fn .ok (leBytes 8 v)) ∧ (cls = 2 → v = k.cyclesRun) ∧
     (cls = 1 → idx % 4 = 2 → v = k.phases) ∧ (cls = 0 → k.job = none → v = k.lastStatus.code) ∧ (cls = 0 → k.job ≠ none → v = 0))) ∧
  does .rasLog ({ s0 with hub := { s0.hub with ras := s.hub.ras.drop 62 } }.finish fn .ok
    (leBytes 8 (Nat.min 62 s.hub.ras.length) ++ leBytes 8 s.hub.rasLost ++ leBytes 48 0 ++ (s.hub.ras.take 62).flatMap RasRec.bytes)) ∧
  (s.hub.cmdQ.head? = some fn → k.oldWin ≠ none → exec .keyUpdate s = .next s) ∧
  (let win := f.arg 24 1
   let formed : Prop := f.arg 0 1 = 0 ∧ win ≤ 3 ∧ windowOk (f.arg 32 32) = true
   (¬formed → does .keyUpdate (s0.finish fn .badreq)) ∧
   (formed → s.ownedBy fn o = none → does .keyUpdate (s0.finish fn .noctx)) ∧
   (formed → own → k.prot = false ∨ s.openUpdate k f (f.req.bytes 64 32) = none → does .keyUpdate (s0.finish fn .denied)) ∧
   (∀ key, formed → own → k.prot = true → s.openUpdate k f (f.req.bytes 64 32) = some key →
     ∃ u : State, does .keyUpdate u ∧ Map.find? (u.ctx o).wins win = some (TextWin.ofRecord (f.arg 32 32) key) ∧ u.mem = s.mem)) ∧
  (s.ownedBy fn o = none → does .keyUpdateAllowList (s0.finish fn .noctx)) ∧
  (own → k.prot = false ∨ s.openUpdate k f [] = none → does .keyUpdateAllowList (s0.finish fn .denied)) ∧
  (∀ x, own → k.prot = true → s.openUpdate k f [] = some x → ∃ u : State, does .keyUpdateAllowList (u.finish fn .ok) ∧
    (u.ctx o).allow = BitVec.ofNat 64 (f.arg 24 8) ∧ (u.fnc k.fn).spdm.lastCounter = some (f.arg 16 8) ∧ u.mem = s.mem) ∧
  ((s.core C).textSwitch = none → exec .textKeySwitch s = .next s) ∧
  (∀ w, (s.core C).textSwitch = some w →
    let old : TextWin := match (s.ctx (s.ownerOf C)).oldWin with
      | some (_, x, _) => x
      | none => {}
    let new := Map.getD (s.ctx (s.ownerOf C)).wins w {}
    let b := s.beginSwitch C old new
    let v := if (s.core C).switchBegun then s else b
    (∀ l ∈ (b.core C).icache, old.holds (vaOf l.ptr) = true ∨ new.holds (vaOf l.ptr) = true → l.locked = true ∧ l.stale = true) ∧
    (∀ l ∈ (s.core C).icache, old.holds (vaOf l.ptr) = false → new.holds (vaOf l.ptr) = false → l ∈ (b.core C).icache) ∧
    b.mem = s.mem ∧ (b.core C).switchBegun = true ∧
    ∀ u, (v.refillStale C = .ok u () ∨ ∃ x, v.refillStale C = .wait u x) →
      ((∃ l ∈ (u.core C).icache, l.stale = true) → exec .textKeySwitch s = .next u) ∧
      ((∀ l ∈ (u.core C).icache, l.stale = false) → ∃ q, exec .textKeySwitch s = .next q ∧ (q.core C).textSwitch = none ∧
        (q.core C).icache = (u.core C).icache ∧ q.mem = u.mem))

/-- What a CHECKPOINT writes once every context is saved or has drained (R311, R374, R375), where no expander's link is down, no page has a
replica and the parts fit in the second tier: entry 0's SAVECTR steps and every context is saved; the directory stands at CKBASE, sealed with what
it names, then the key block and the device block; the images of contexts saved before are those they had, and without a keyed frame HBM
stands in part 5 as it was. The layout inside the parts is the model's (log 17). -/
def Says.CheckpointRegion : Prop := ∀ (v : State),
  let u := v.writeCheckpoint
  let os := v.owners
  let ck := v.own v.dev.ckbase.toNat
  let n (off z : Nat) : Nat := numAt (u.mem.bytes ck 4096) off z
  let up (x : Nat) : Nat := (x + 65535) / 65536 * 65536
  let p3 := up (4096 + numPartLen v.keyNums)
  let p4 := up (p3 + v.devPartLen os)
  let r := v.readImages os
  let end4 := (r.checkpointImages r (ck + p4) os (ck + p4)).2.2
  v.checkpointReady = true → v.memOk → v.fuse < 2 ^ 20 → os.Nodup → (∀ e ∈ v.ctxs, e.2.prot = true → e.2.vidx ≠ 0) →
    (∀ e ∈ v.ctxs, (Map.find? v.hub.vtab e.2.vidx).isSome) → v.hub.expDown = [] → (∀ l, v.replicaLines l = []) →
    v.regionOk = true → end4 + 2 ^ 16 + hbmBytes ≤ v.own (expBase + 8 * expBytes) →
    u.fuse = v.fuse + 1 ∧ (∀ o ∈ os, (u.ctx o).save = .saved) ∧
    n 0 4 = 0x5A39434B ∧ n 4 2 = 1 ∧ n 8 8 = u.fuse ∧ n 16 8 = os.length % 2 ^ 64 ∧ n 24 8 = p3 ∧ n 32 8 = p4 ∧
    (∃ dir, u.openPart ck 4096 u.fuse 1 = some dir ∧ ∀ i (h : i < os.length), i < 62 →
      let k := u.ctx os[i]
      numAt dir (64 * i) 2 = os[i] % 2 ^ 16 ∧ numAt dir (64 * i + 2) 2 = k.vidx % 2 ^ 16 ∧
      numAt dir (64 * i + 4) 1 = (if k.prot then 1 else 0) ∧ numAt dir (64 * i + 37) 8 = (k.imgAt - (ck + p4)) % 2 ^ 64 ∧
      numAt dir (64 * i + 45) 8 = k.imgLen % 2 ^ 64) ∧
    u.mem.bytes (ck + 4096) (numPartLen u.keyNums) = numPart u.fuse 2 u.keyNums ∧
    u.mem.bytes (ck + p3) (numPartLen u.devNums) = numPart u.fuse 3 u.devNums ∧
    (∀ o ∈ os, (v.ctx o).save = .saved → (u.ctx o).imgLen = (v.ctx o).imgLen ∧
      u.mem.bytes (u.ctx o).imgAt (u.ctx o).imgLen = v.mem.bytes (v.ctx o).imgAt (v.ctx o).imgLen) ∧
    n 40 8 = up (end4 - ck) ∧ ck + p4 ≤ end4 ∧
    (v.keyedFrames v.hub.fkt = [] → ∀ x < hbmBytes, u.mem.get (ck + up (end4 - ck) + x) = v.mem.get (v.own 0 + x))

/-- The commands on the device, and the region that CHECKPOINT writes. -/
def Obligations.DeviceCommands : Prop := Says.DeviceSteps ∧ Says.CheckpointRegion

/-- What the host does through its registers (R299, R304, R305, R326, R353, R391, R392, R394, R396, R404 to R406). DIRTY_LOG_RESET empties a
function's log; DLCONS_WRITE moves its consumer where that leaves no more than the ring holds. FAULT_RECORD writes a waiting record of 16
bytes to its function's ring where that has room. RESOLVE lets the accesses that wait on a record's page walk again, REJECT makes them fail;
one that names no outstanding record sets ERR, which FQST_READ clears. TLBI begins an invalidation, or sets ERR while one runs;
INVALIDATION_DONE ends it. REGISTER_WRITE writes a register of BAR0: an accepted CMDREQ puts the function into Cordwain's order. A read of BAR0 returns what
the register table gives, zero where a register is only written or a virtual function asks for the device window; BUSY reads 1 until a cold
reset has ended. An APERTURE_ACCESS
reaches HBM with key slot 0 that no other function's pages hold, and nothing else. An interface in RUN takes its function's accesses only
in its own IDE stream (R395), reads too, and a function under reset none. That the entries of an overlapping translation go as soon as TLBI
begins is the model's choice (log 47), as BADCMD at the write of CMDREQ (log 40) and which frames the aperture reaches (log 19) are.
BANDWIDTH_WINDOW_END begins a window and releases what waited. FUNCTION_LEVEL_RESET leaves none of the
function's contexts running, no command, and its registers as after reset. -/
def Obligations.HostInterface : Prop := ∀ s : State,
  let fn := s.ev.fn
  let f := s.fnc fn
  let v := s.ev.v
  let num := s.ev.num
  let keep (u : State) : Prop := u.cores = s.cores ∧ u.ctxs = s.ctxs
  let admitted : Prop := f.flr = false ∧ (f.tdisp = .run → s.ev.ide = true)
  let busy : Bool := f.busy || s.hub.booting
  let host : List Instr := [.dirtyLogReset, .dlconsWrite, .resolve, .reject, .fqstRead, .registerWrite, .apertureAccess]
  let named (r : FaultRec) : Prop := s.hub.faults.find? (fun r => r.fn == fn && r.tag == some num) = some r
  let waits (w : Wait) (r : FaultRec) : Prop := ∃ p b i, w = .fault p b i ∧ vaOf p / 2 ^ 16 = r.page
  (¬admitted → ∀ i ∈ host, exec i s = .next s) ∧
  (admitted → let u := (s.setFn fn { f with dlRst := true }).performLogged fn
    (u.loggedDone fn = false → exec .dirtyLogReset s = .next u) ∧
    (u.loggedDone fn = true → ∃ w, exec .dirtyLogReset s = .next w ∧ (w.fnc fn).dlProd = 0 ∧ (w.fnc fn).dlCons = 0 ∧
      (w.fnc fn).dlOvf = false ∧ w.mem = u.mem)) ∧
  (admitted → 2 ^ f.dlSize < (f.dlProd - v.setWidth 32).toNat → exec .dlconsWrite s = .next s) ∧
  (admitted → (f.dlProd - v.setWidth 32).toNat ≤ 2 ^ f.dlSize → ∃ u, exec .dlconsWrite s = .next u ∧ u.mem = s.mem ∧
    u.fnc fn = { f with dlCons := v.setWidth 32 }) ∧
  (∀ r, s.hub.faults[s.ev.k]? = some r → r.tag ≠ none ∨ (s.fnc r.fn).fqRoom = false → exec .faultRecord s = .next s) ∧
  (∀ r, s.hub.faults[s.ev.k]? = some r → r.tag = none → (s.fnc r.fn).fqRoom = true → s.memOk → ∃ u tag, exec .faultRecord s = .next u ∧
    keep u ∧ u.hub.faults = s.hub.faults.set s.ev.k { r with tag := some tag } ∧ (u.fnc r.fn).fqProd = (s.fnc r.fn).fqProd + 1 ∧
    Says.Signals (s.fnc r.fn) (u.fnc r.fn) 1 ∧
    let a := s.hostSpa ((s.fnc r.fn).fqBase.toNat + 16 * ((s.fnc r.fn).fqProd.toNat % 2 ^ (s.fnc r.fn).fqSize))
    u.mem.le a 8 = r.p.toNat ∧ u.mem.le (a + 8) 8 = (r.word1 tag).toNat ∧ ∀ x, x < a ∨ a + 16 ≤ x → u.mem.get x = s.mem.get x) ∧
  (admitted → (∀ r, ¬named r) → let u := s.setFn fn { f with fqErr := true }
    exec .resolve s = .next u ∧ exec .reject s = .next u) ∧
  (∀ r, admitted → named r → ∃ u, exec .resolve s = .next u ∧ r ∉ u.hub.faults ∧ u.mem = s.mem ∧ ∀ c sl,
    let goes : Prop := waits (s.thread c sl).wait r ∨ (s.thread c sl).wait = .flush
    (goes → u.thread c sl = { s.thread c sl with wait := .none }) ∧ (¬goes → u.thread c sl = s.thread c sl)) ∧
  (∀ r, admitted → named r → ∃ u, exec .reject s = .next u ∧ ∀ c sl, ¬waits (s.thread c sl).wait r →
    (u.thread c sl).pc = (s.thread c sl).pc) ∧
  (∀ r, admitted → named r → (∀ k ∈ s.cores, ∀ l ∈ k.2.icache, l.waitPage ≠ some r.page) → ∃ u, exec .reject s = .next u ∧ ∀ c sl p b i, (s.thread c sl).wait = .fault p b i → vaOf p / 2 ^ 16 = r.page →
    let t := s.thread c sl
    ((s.core c).vecBusy sl = true → u.thread c sl = { t with wait := .trapping i t.pc }) ∧
    ((s.core c).vecBusy sl = false → routeU i = false → t.inTrap = false → t.tr.tvec ≠ 0 → u.thread c sl =
      { Thread.enterTrap { t with wait := .none } i t.pc true with pc := t.tr.tvec &&& ~~~7 })) ∧
  (∀ r, admitted → named r → ∃ u v, exec .reject s = .next u ∧ exec .resolve s = .next v ∧ ∀ c i o, (i, o) ∈ (s.core c).mx →
    o.waitPage = some r.page → ((∀ c sl, ¬waits (s.thread c sl).wait r) → (i, { o with waitPage := none, rejected := true }) ∈ (u.core c).mx) ∧
      (i, { o with waitPage := none, rejected := false }) ∈ (v.core c).mx) ∧
  (admitted → exec .fqstRead s = .next (s.setFn fn { f with fqErr := false })) ∧
  (s.dev.tlbi ≠ none → exec .tlbi s = .next { s with dev := { s.dev with tlbiErr := true } }) ∧
  (s.dev.tlbi = none → let range : Nat × Nat := (v.toNat / 2 ^ 16 % 2 ^ 40 * 2 ^ 16, (v.toNat % 2 ^ 16 + 1) * 2 ^ 16)
    let dev := { s.dev with tlbiErr := false, tlbi := some range
                            tlbiHeld := s.cores.map fun (k : Nat × Core) => (k.1, k.2.held (range.1 / 64) (range.2 / 64)) }
    ∃ u, exec .tlbi s = .next u ∧ u.dev = dev ∧ u.mem = s.mem ∧ u.ctxs = s.ctxs ∧
      ∀ c, ∀ t ∈ (u.core c).tlb, t.va + t.size ≤ range.1 ∨ range.1 + range.2 ≤ t.va) ∧
  (s.dev.tlbi = none → exec .invalidationDone s = .next s) ∧
  (∀ va len, s.dev.tlbi = some (va, len) →
    let held : Prop := ∃ k ∈ s.cores, k.2.holds (va / 64) (len / 64) (Map.getD s.dev.tlbiHeld k.1 []) = true
    (held → exec .invalidationDone s = .next s) ∧
    (¬held → ∃ u, exec .invalidationDone s = .next u ∧ u.dev.tlbi = none ∧
      ∀ c, ∀ t ∈ (u.core c).tlb, t.va + t.size ≤ va ∨ va + len ≤ t.va)) ∧
  (let w (off : Nat) (u : State) : Prop := admitted → s.ev.off = off → exec .registerWrite s = .next u
   (admitted → s.ev.off % 8 ≠ 0 → exec .registerWrite s = .next s) ∧
   (busy = true → w 0 (s.setFn fn { f with stErr := true })) ∧
   (busy = false → s.hub.alarm3 = false → 1 ≤ v.toNat % 256 → v.toNat % 256 ≤ 14 → ∃ u : State, w 0 u ∧ u.hub.cmdQ = s.hub.cmdQ ++ [fn] ∧
     u.fnc fn = { f with busy := true, stErr := false, cmdSeq := v.extractLsb' 16 16, stSeq := v.extractLsb' 16 16,
                         cmdOp := v.extractLsb' 0 8 } ∧ u.mem = s.mem) ∧
   (busy = false → s.hub.alarm3 = false → v.toNat % 256 = 0 ∨ 14 < v.toNat % 256 → ∃ u : State, w 0 u ∧ (u.fnc fn).stStatus = 1 ∧
     (u.fnc fn).busy = false) ∧
   (∀ o, 0x40 ≤ o → o < 0x800 → o % 8 = 0 → w o (if busy then s else s.setFn fn { f with req := f.req.setLe (o - 0x40) 8 v.toNat })) ∧
   w 0x1000 (if f.fqEn then s else s.setFn fn { f with fqBase := v &&& ~~~0xFFF }) ∧
   w 0x1100 (if f.dlEn then s else s.setFn fn { f with dlBase := v &&& ~~~0xFFF }) ∧
   w 0x1008 (s.writeFqctl fn v) ∧ w 0x1108 (s.writeDlctl fn v) ∧
   w 0x1018 (if (f.fqProd - v.setWidth 32).toNat ≤ 2 ^ f.fqSize then s.setFn fn { f with fqCons := v.setWidth 32 } else s) ∧
   w 0x1020 (if v.getLsbD 0 then s.rejectTag fn (v.toNat / 2 ^ 48) else s.resolveTag fn (v.toNat / 2 ^ 48)) ∧
   w 0x1118 (s.writeDlcons fn (v.setWidth 32)) ∧
   (∀ i < 16, admitted → s.ev.off = 0x2000 + 8 * i → ∃ pend sent,
     let g := { f with msix := f.msix.setLe (8 * i) 8 v.toNat, pend, sent }
     exec .registerWrite s = .next (s.setFn fn g) ∧ ∀ x < 8, if f.pend.getLsbD x = true then Says.Signals { g with pend := f.pend, sent := f.sent } g x
       else g.pend.getLsbD x = false ∧ Map.getD g.sent x 0 = Map.getD f.sent x 0) ∧
   (fn = 0 → w 0x11080 (s.writeTlbi v) ∧ w 0x11090 { s with dev := { s.dev with npcfg := v &&& 0x8000000000001F0F } } ∧
     w 0x110A0 { s with dev := { s.dev with mxlim := v &&& ~~~0x7FFF } } ∧
     w 0x110A8 { s with dev := { s.dev with mxscale := v &&& ~~~0x3FF } } ∧
     ∀ i < 12, w (0x11100 + 8 * i) { s with dev := { s.dev with ffr := Map.put s.dev.ffr i v } }) ∧
   (fn = 0 → (∀ i < 14, w (0x11000 + 8 * i) { s with dev := { s.dev with ttroot := Map.put s.dev.ttroot i (v &&& 0xFC01FFFFFFFFFFFF) } }) ∧
     w 0x11098 { s with dev := { s.dev with mxbase := v &&& ~~~0x7FFF } } ∧ w 0x110B8 { s with dev := { s.dev with ckbase := v } } ∧
     w 0x11600 { s with dev := { s.dev with draint := v &&& 0xFFFFFFFF } } ∧
     ∀ i < 63, w (0x11400 + 8 * i) { s with dev := { s.dev with promo := Map.put s.dev.promo i (v &&& 0xFFFFFFFF) } }) ∧
   (fn ≠ 0 → ∀ o, 0x10000 ≤ o → o < 0x20000 → w o s)) ∧
  (let num (x : Nat) : Word := BitVec.ofNat 64 x
   let rows : List (Nat × Word) := [
     (0, num (f.cmdSeq.toNat * 2 ^ 16 + f.cmdOp.toNat)),
     (8, num (f.stSeq.toNat * 2 ^ 16 + f.stStatus.toNat * 2 ^ 8 + (if f.stErr then 2 else 0) + if busy then 1 else 0)),
     (0x1000, f.fqBase), (0x1008, f.fqCtl), (0x1010, f.fqProd.setWidth 64), (0x1018, f.fqCons.setWidth 64), (0x1020, 0),
     (0x1028, if f.fqErr then 1 else 0), (0x1100, f.dlBase), (0x1108, f.dlCtl), (0x1110, f.dlProd.setWidth 64),
     (0x1118, f.dlCons.setWidth 64), (0x2800, f.pend.setWidth 64)]
   let pf : List (Nat × Word) := [
     (0x11080, 0), (0x11088, num ((if s.dev.tlbi ≠ none then 1 else 0) + if s.dev.tlbiErr then 2 else 0)), (0x11090, s.dev.npcfg),
     (0x11098, s.dev.mxbase), (0x110A0, s.dev.mxlim), (0x110A8, s.dev.mxscale), (0x110B0, s.dev.devnum.setWidth 64),
     (0x110B8, s.dev.ckbase), (0x11600, s.dev.draint),
     (0x11608, num (s.launches.filter (fun l => l.2.slot.isSome && !l.2.completed)).length)]
   (admitted → ∀ off, s.hostRead fn off s.ev.ide = some (s.readBar0 fn off)) ∧ (¬admitted → ∀ off, s.hostRead fn off s.ev.ide = none) ∧
   (∀ e ∈ rows, s.readBar0 fn e.1 = e.2) ∧ (∀ e ∈ pf, s.readBar0 fn e.1 = if fn = 0 then e.2 else 0) ∧
   (∀ i < 248, s.readBar0 fn (0x40 + 8 * i) = num (f.req.le (8 * i) 8)) ∧ (∀ i < 256, s.readBar0 fn (0x800 + 8 * i) = num (f.resp.le (8 * i) 8)) ∧
   (∀ i < 16, s.readBar0 fn (0x2000 + 8 * i) = num (f.msix.le (8 * i) 8)) ∧
   (∀ i < 14, s.readBar0 fn (0x11000 + 8 * i) = if fn = 0 then Map.getD s.dev.ttroot i 0 else 0) ∧
   (∀ i < 12, s.readBar0 fn (0x11100 + 8 * i) = if fn = 0 then Map.getD s.dev.ffr i 0 else 0) ∧
   (∀ i < 63, s.readBar0 fn (0x11400 + 8 * i) = if fn = 0 then Map.getD s.dev.promo i 0x100000 else 0)) ∧
  (let n := if s.ev.wr then s.ev.bytes.length else s.ev.len
   let map := (s.fnc 0).cfg.le 50 6
   let at0 := map % 2 ^ 16 * 2 ^ 36 + s.ev.off
   let open_ : Prop := map / 2 ^ 16 % 2 = 1 ∧ s.ev.off < 2 ^ 36 ∧ ∀ i < n, localHome (at0 + i) = .hbm ∧ (s.frameKey (s.own (at0 + i))).kslot = 0 ∧
     f.cfg.le 8 3 ≠ 0 ∧ s.heldByOther fn (at0 + i) = false
   (admitted → ¬open_ → exec .apertureAccess s = .next s) ∧ (¬admitted ∨ ¬open_ → s.apertureRead fn s.ev.off n s.ev.ide = none) ∧
   (admitted → open_ → s.ev.wr = true → exec .apertureAccess s = .next (s.putBytes 0 (s.own at0) s.ev.bytes)) ∧
   (admitted → open_ → s.ev.wr = false → ∃ u, exec .apertureAccess s = .next u ∧ u.mem = s.mem ∧ keep u ∧
     s.apertureRead fn s.ev.off n s.ev.ide = some ((List.range n).map fun i => s.mem.get (s.redirect (s.own (at0 + i)))))) ∧
  (∃ u, exec .bandwidthWindowEnd s = .next u ∧ u.mem = s.mem ∧ u.hub = { s.hub with window := s.now / 4096 } ∧
    (∀ g, (u.fnc g).hbmUsed = 0 ∧ (u.fnc g).expUsed = 0) ∧
    ∀ c sl, (u.thread c sl) = { s.thread c sl with wait := if (s.thread c sl).wait = .bandwidth ∨ (s.thread c sl).wait = .flush then .none else (s.thread c sl).wait }) ∧
  (∃ u, exec .functionLevelReset s = .next u ∧ (∀ o k, Map.find? s.ctxs o = some k → k.fn = fn →
      ∀ x, Map.find? u.ctxs o = some x → x.save = .gone) ∧
    fn ∉ u.hub.cmdQ ∧ (∀ r ∈ u.hub.faults, r.fn ≠ fn) ∧ (u.fnc fn).busy = false ∧ (u.fnc fn).cfg = f.cfg ∧
    ((u.fnc fn).flr = false ↔ ∀ e ∈ u.ctxs, e.2.fn ≠ fn) ∧
    ((u.fnc fn).flr = false → (u.fnc fn).tdisp = .unlocked ∧ (u.fnc fn).spdm = {} ∧ (u.fnc fn).fqEn = false ∧ (u.fnc fn).dlEn = false))

/-- SPDM and TDISP (R378, R382 to R385). A negotiation takes GET_VERSION, GET_CAPABILITIES and NEGOTIATE_ALGORITHMS in order; what needs it
finished, a session, or a state of the interface is answered with an error and nothing else where that is missing. GET_DIGESTS,
GET_CERTIFICATE, CHALLENGE and GET_MEASUREMENTS answer for slot 0. KEY_EXCHANGE begins a handshake, which FINISH turns into the function's
session or ends. LOCK takes an interface from UNLOCKED to LOCKED, START from LOCKED to RUN, STOP and END_SESSION to UNLOCKED; an error
takes a locked or running one to ERROR. Leaving RUN leaves no protected context of the function running. The layout of the
messages is a free value (log 12). That a function has one session, that GET_VERSION keeps it, that a request out of its order is an error,
that TDISP needs a session and a virtual function, and that STOP and END_SESSION leave UNLOCKED are the model's readings (log 35). -/
def Obligations.Attestation : Prop := ∀ s : State,
  let fn := s.ev.fn
  let f := s.fnc fn
  let p := f.spdm
  let err (i : Instr) : Prop := exec i s = .next (s.respond fn .error [])
  let quiet (u : State) : Prop := u.mem = s.mem ∧ u.cores = s.cores ∧ u.ctxs = s.ctxs
  let tells (u : State) (m : SpdmMsg) (bs : List Byte) : Prop := (u.fnc fn).spdm.response = Config.spdmFrame m.no bs
  let answers (i : Instr) (m : SpdmMsg) (bs : List Byte) : Prop := exec i s = .next (s.respond fn m bs)
  let nego : Prop := p.algs ≠ none
  let sess : Prop := p.session ≠ none
  let tdisp (states : List Tdisp) : Prop := fn ≠ 0 ∧ sess ∧ f.tdisp ∈ states
  let left (u : State) : Prop := ∀ o k, Map.find? s.ctxs o = some k → k.fn = fn → k.prot = true →
    ∀ x, Map.find? u.ctxs o = some x → x.save = .gone
  let all : List Tdisp := [.unlocked, .locked, .run, .error]
  let signedAt (v : State) (i : Instr) (m : SpdmMsg) (body : List Byte) : Prop := ∃ u sig, exec i s = .next u ∧ sig.length = 384 ∧
    u.mem = v.mem ∧ u.cores = v.cores ∧ u.ctxs = v.ctxs ∧ tells u m (body ++ sig) ∧ (u.fnc fn).spdm.session = p.session
  let signed := signedAt s
  (∀ (u : State) m bs, let v := u.respond fn m bs
    { v with fns := u.fns } = u ∧ v.fnc fn = { u.fnc fn with spdm := { (u.fnc fn).spdm with response := Config.spdmFrame m.no bs } }) ∧
  (∃ u, exec .getVersion s = .next u ∧ quiet u ∧ tells u .version [0x12, 0x13] ∧
    (u.fnc fn).spdm = { p with version := true, caps := false, algs := none, handshake := none, response := (u.fnc fn).spdm.response }) ∧
  (p.version = false → err .getCapabilities) ∧
  (p.version = true → ∃ u, exec .getCapabilities s = .next u ∧ quiet u ∧
    (u.fnc fn).spdm = { p with caps := true, response := (u.fnc fn).spdm.response }) ∧
  (p.caps = false → err .negotiateAlgorithms) ∧
  (p.caps = true → ∃ u, exec .negotiateAlgorithms s = .next u ∧ quiet u ∧
    (u.fnc fn).spdm = { p with algs := some s.ev.dhe, response := (u.fnc fn).spdm.response }) ∧
  (¬nego → err .getDigests ∧ err .getCertificate ∧ err .challenge ∧ err .getMeasurements ∧ err .keyExchange) ∧
  (nego → answers .getDigests .digests (sha256 Config.certChain) ∧
    (s.ev.k ≠ 0 → err .getCertificate ∧ err .challenge) ∧
    (s.ev.k = 0 → answers .getCertificate .certificate ((Config.certChain.drop s.ev.off).take s.ev.len) ∧
      signed .challenge .challengeAuth (sha256 Config.certChain ++ s.ev.bytes ++ Config.drawKey s.hub.draws)) ∧
    (6 < s.ev.k → s.ev.k ≠ 255 → err .getMeasurements) ∧
    (s.ev.k = 0 → signed .getMeasurements .measurements ([6] ++ s.ev.bytes)) ∧
    (s.ev.k = 1 → signed .getMeasurements .measurements (firmware ++ s.ev.bytes)) ∧
    (s.ev.k = 2 → signed .getMeasurements .measurements (sha256 (f.cfg.bytes 0 64) ++ s.ev.bytes)) ∧
    (s.boundCtx fn = none → 3 ≤ s.ev.k → s.ev.k ≤ 6 → signed .getMeasurements .measurements (List.replicate 32 0 ++ s.ev.bytes)) ∧
    (∀ o, s.boundCtx fn = some o → 3 ≤ s.ev.k → s.ev.k ≤ 6 →
      let w := Map.getD (s.ctx o).wins (s.ev.k - 3) {}
      let tags := s.homeBytes o w.tagBase (w.len.toNat / 8)
      (w.valid = false → signed .getMeasurements .measurements (List.replicate 32 0 ++ s.ev.bytes)) ∧
      (w.valid = true → signedAt tags.1 .getMeasurements .measurements
        (sha256 (leBytes 8 w.textBase.toNat ++ leBytes 8 w.len.toNat ++ leBytes 4 w.epoch.toNat ++ tags.2) ++ s.ev.bytes))) ∧
    (s.ev.k = 255 → let r := s.measurements fn [1, 2, 3, 4, 5, 6]
      signedAt r.1 .getMeasurements .measurements (r.2 ++ s.ev.bytes) ∧ r.2.take 32 = firmware ∧ r.2.length = 192) ∧
    (sess → err .keyExchange) ∧
    (¬sess → ∃ u id, exec .keyExchange s = .next u ∧ quiet u ∧ id = s.ev.num % 2 ^ 16 + 2 ^ 16 * (s.hub.draws % 2 ^ 16) ∧
      (u.fnc fn).spdm = { p with handshake := some id, secret := Config.spdmSecret s.hub.draws s.ev.bytes,
                                 response := (u.fnc fn).spdm.response } ∧ u.hub.draws = s.hub.draws + 1)) ∧
  (p.handshake = none → err .finish) ∧
  (∀ id, p.handshake = some id → ∃ u, exec .finish s = .next u ∧ quiet u ∧ (u.fnc fn).spdm.handshake = none ∧
    (s.ev.bytes = Config.spdmVerify id → (u.fnc fn).spdm.session = some id ∧ (u.fnc fn).spdm.lastCounter = none) ∧
    (s.ev.bytes ≠ Config.spdmVerify id → (u.fnc fn).spdm.session = p.session ∧ tells u .error [])) ∧
  (¬sess → err .spdmKeyUpdate ∧ err .heartbeat ∧ err .endSession) ∧
  (sess → answers .heartbeat .heartbeatAck [] ∧
    (∃ u, exec .spdmKeyUpdate s = .next u ∧ quiet u ∧ (u.fnc fn).spdm.session = p.session ∧
      (u.fnc fn).spdm.keyGen = p.keyGen + (if s.ev.keyOp = .verifyNewKey then 0 else 1)) ∧
    (∃ u, exec .endSession s = .next u ∧ (u.fnc fn).spdm.session = none ∧ (u.fnc fn).tdisp = .unlocked ∧ (f.tdisp = .run → left u) ∧
      (f.tdisp ≠ .run → quiet u))) ∧
  (¬tdisp [.unlocked] → err .lockInterfaceRequest) ∧
  (tdisp [.unlocked] → ∃ u, exec .lockInterfaceRequest s = .next u ∧ quiet u ∧ (u.fnc fn).tdisp = .locked) ∧
  (¬tdisp [.locked, .run] → err .getDeviceInterfaceReport) ∧
  (tdisp [.locked, .run] → answers .getDeviceInterfaceReport .tdispReport (Config.interfaceReport fn)) ∧
  (¬tdisp all → err .getDeviceInterfaceState ∧ err .stopInterfaceRequest) ∧
  (tdisp all → answers .getDeviceInterfaceState .tdispState [tdispCode f.tdisp] ∧
    ∃ u, exec .stopInterfaceRequest s = .next u ∧ (u.fnc fn).tdisp = .unlocked ∧ (f.tdisp = .run → left u) ∧ (f.tdisp ≠ .run → quiet u)) ∧
  (¬tdisp [.locked] → err .startInterfaceRequest) ∧
  (tdisp [.locked] → ∃ u, exec .startInterfaceRequest s = .next u ∧ quiet u ∧ (u.fnc fn).tdisp = .run) ∧
  (f.tdisp = .unlocked ∨ f.tdisp = .error → exec .interfaceError s = .next s) ∧
  (f.tdisp = .locked ∨ f.tdisp = .run → ∃ u, exec .interfaceError s = .next u ∧ (u.fnc fn).tdisp = .error ∧
    (f.tdisp = .run → left u) ∧ (f.tdisp = .locked → quiet u))

/-! ### Links, errors, alarms, power and the cold reset (spec/20_preemption_faults.md, spec/23_host_fabric_partitions.md,
spec/24_firmware_management.md) -/

/-- Links and errors (R355 to R361, R397 to R401, R411, R412). FLIT_RECEIVE counts a flit of a sub-link that is up: a wrong CRC and a wrong
tag are answered with a negative acknowledgement, another sequence number changes nothing else, and an accepted one moves the sequence
on. SUBLINK_REKEY acts after three tag failures. EXPANDER_LINK_DOWN, the register, line and corrected errors act on what they name
alone: the thread, the register, or the line, of which the RAS log has a LATENT record. A sensor or tamper alarm and a failed check at a cold reset are of level 3: no context is left running and every command is
answered. POWER_SAMPLE slows the cores of a die over its share, and restores those that are within it. COLD_RESET leaves no context, core,
function or queue; links are trained anew and keys drawn, entry 0's counter stays, and BUSY reads 1 until the device's next step. What
identifies a cached line is the model's choice (log 51); how a carried copy is told is log 2; that an acknowledgement empties the replay
buffer is log 34, the parameters of the flits' CRC log 12, the rates and which cores are slowed log 36, the sub-links trained, what a cold
reset keeps and its failure parameter log 37, and what a level-3 alarm keeps log 57. -/
def Obligations.LinksAndErrors : Prop := ∀ s : State,
  let k := s.ev.k
  let c := s.ev.c
  let sl := s.ev.sl
  let b := s.ev.bytes
  let r := s.ev.readings
  let slow (c : Nat) : Prop := r.getD 4 0 > 360000 ∨ r.getD 5 0 > 360000 ∨ r.getD 6 0 > 2400000 ∨
    r.getD (dieOf c) 0 > powerShares.getD (dieOf c) 0
  let dark (u : State) : Prop := u.hub.alarm3 = true ∧ u.hub.cmdQ = [] ∧ ∀ o x, (Map.find? s.ctxs o).isSome →
    Map.find? u.ctxs o = some x → x.save = .gone
  (∀ l, Map.find? s.hub.links k = some l → l.up = true → l.tagFails < 3 → b.length = 256 → ∃ u l', exec .flitReceive s = .next u ∧
    u = { s with hub := { s.hub with links := Map.put s.hub.links k l' } } ∧ l'.flits = l.flits + 1 ∧ l'.up = true ∧ l'.rxKey = l.rxKey ∧
    (flitCrcOk b = false → l' = { l with flits := l.flits + 1, naking := true }) ∧
    (flitCrcOk b = true → flitSeq b ≠ l.rxSeq → l' = { l with flits := l.flits + 1 }) ∧
    (flitCrcOk b = true → flitSeq b = l.rxSeq → l.openFlit b = none →
      l' = { l with flits := l.flits + 1, naking := true, tagFails := l.tagFails + 1 }) ∧
    (∀ pt, flitCrcOk b = true → flitSeq b = l.rxSeq → l.openFlit b = some pt →
      l'.rxSeq = (l.rxSeq + 1) % 2 ^ 48 ∧ l'.tagFails = 0 ∧ l'.naking = false ∧
      l'.rxPayloads = (if flitKind b = 0 then l.rxPayloads ++ [pt] else l.rxPayloads) ∧
      l'.replay = (if flitKind b = 2 then [] else l.replay))) ∧
  (∀ l, Map.find? s.hub.links k = some l → l.up = false ∨ 3 ≤ l.tagFails ∨ b.length ≠ 256 → exec .flitReceive s = .next s) ∧
  (Map.find? s.hub.links k = none → exec .flitReceive s = .next s ∧ exec .sublinkRekey s = .next s) ∧
  (∀ l, Map.find? s.hub.links k = some l → l.tagFails < 3 → exec .sublinkRekey s = .next s) ∧
  (∀ l, Map.find? s.hub.links k = some l → 3 ≤ l.tagFails → ∃ u,
    exec .sublinkRekey s = .next u ∧ u.hub.links = Map.put s.hub.links k { l with
      rxKey := Config.drawKey s.hub.draws, txKey := Config.drawKey (s.hub.draws + 1), rxSeq := 0, txSeq := 0, tagFails := 0, naking := false, replay := [] } ∧
    (s.cores.all (fun e => e.2.cps.isEmpty) = true → u.mem = s.mem) ∧
    (s.cores.all (fun e => e.2.cps.isEmpty) = true → s.hub.ras.length < 4096 → u.hub.ras = s.hub.ras ++ [{ w0 := 0x8005, w1 := 0, w2 := 0, w3 := BitVec.ofNat 64 s.now }])) ∧
  (k < 8 → k ∉ s.hub.expDown → exec .expanderLinkDown s = .next { s with hub := { s.hub with expDown := s.hub.expDown ++ [k] } }) ∧
  (8 ≤ k ∨ k ∈ s.hub.expDown → exec .expanderLinkDown s = .next s) ∧
  ((s.thread c sl).live = false → exec .threadRegisterError s = .next s) ∧
  ((s.thread c sl).live = true → ∃ u, exec .threadRegisterError s = .next u ∧ (u.thread c sl).live = false ∧
    ∀ l, s.launch? (s.thread c sl).id.launch.toNat = some l → l.ecause = 0 → ∃ l', u.launch? (s.thread c sl).id.launch.toNat = some l' ∧
      l'.state = 4 ∧ l'.ecause = 0x216 ∧ l'.failCrew = (s.thread c sl).id.crew) ∧
  (∀ c' sl', (c', sl') ≠ (c, sl) → ∃ u, (exec .threadRegisterError s = .next u) ∧ let x := s.thread c' sl'
    let y := u.thread c' sl'
    y.live = x.live ∧ y.pc = x.pc ∧ y.g = x.g ∧ y.f = x.f ∧ y.v = x.v ∧ y.status = x.status ∧
      (s.launch? (s.thread c sl).id.launch.toNat = none → y = x)) ∧
  (∃ u, exec .engineRegisterError s = .next u ∧ { u with cores := s.cores } = s ∧ (∀ x, x ≠ c → u.core x = s.core x) ∧
    match s.ev.reg with
    | .tile i => ((u.core c).tile i).poison = true ∧ (u.core c).accs = (s.core c).accs ∧ (u.core c).qs = (s.core c).qs
    | .acc i => ((u.core c).acc i).poison = true ∧ (u.core c).tiles = (s.core c).tiles ∧ (u.core c).qs = (s.core c).qs
    | .orth i => ((u.core c).orth i).poison = true ∧ (u.core c).tiles = (s.core c).tiles ∧ (u.core c).accs = (s.core c).accs) ∧
  (s.iline c s.ev.v = none → exec .icacheError s = .next s) ∧
  (∀ l, s.iline c s.ev.v = some l → ∃ u, exec .icacheError s = .next u ∧ u.mem = s.mem ∧
    (∀ x ∈ (u.core c).icache, x.key = l.key → x.ok = 0 ∧ x.stale = l.locked) ∧
    (u.core c).icache.filter (·.key != l.key) = (s.core c).icache.filter (·.key != l.key) ∧ (u.core c).threads = (s.core c).threads ∧
    (∀ x, x ≠ c → u.core x = s.core x) ∧ (s.hub.ras.length < 4096 → u.hub.ras = s.hub.ras ++
      [{ w0 := 0x4002, w1 := l.ptr, w2 := (s.core c).owner.setWidth 64, w3 := BitVec.ofNat 64 s.now }])) ∧
  (∃ u, exec .correctedError s = .next u ∧ u.mem = s.mem ∧ u.cores = s.cores ∧ (s.hub.ras.length < 4096 → u.hub.ras = s.hub.ras ++
    [{ w0 := BitVec.ofNat 64 (k <<< 12 + 1), w1 := s.ev.v, w2 := BitVec.ofNat 64 s.ev.o, w3 := BitVec.ofNat 64 s.now }])) ∧
  (∃ u, exec .sensorAlarm s = .next u ∧ dark u) ∧ (∃ u, exec .tamperMeshBroken s = .next u ∧ dark u) ∧
  (∃ u, exec .powerSample s = .next u ∧ u.mem = s.mem ∧ ∀ x < 1536, (u.core x).threads = (s.core x).threads ∧
    (slow x → (u.core x).rate = Nat.min 8 (2 * (s.core x).rate)) ∧ (¬slow x → (u.core x).rate = Nat.max 1 ((s.core x).rate / 2))) ∧
  (∃ u, exec .coldReset s = .next u ∧ u.cores = [] ∧ u.clusters = [] ∧ u.ctxs = [] ∧ u.launches = [] ∧ u.dev.ttroot = [] ∧
    u.dev.devnum = s.dev.devnum ∧ u.hub.cmdQ = [] ∧ u.hub.alarm3 = s.ev.wr ∧ u.hub.tagFails = 0 ∧
    u.fuse = s.fuse ∧ u.hub.seen = [] ∧ u.hub.booting = (!s.ev.wr) ∧ (Map.find? u.hub.slotKeys 0).isSome ∧
    (s.ev.wr = false → ∀ x < 18, ∃ l, Map.find? u.hub.links (4 * x) = some l ∧ l.up = true ∧ l.rxSeq = 0 ∧ l.txSeq = 0) ∧ ∀ o, s.home o = .hbm → s.memOk → u.mem.get o = 0) ∧
  (s.hub.booting = true → s.turns = [] → s.move = .next { s with hub := { s.hub with booting := false } })
end

