-- ==== Sys2Proof/Laws/Data.lean ====
section
/-! SUPPORT. What the maps and memories of Machine/Data.lean do: reading after writing, and the canonical form of memory, which every
memory operation keeps. -/

namespace Sys2Proof.Machine

/-! ### Maps -/

@[simp] theorem Map.find?_put_self {α : Type} (m : Map α) (k : Nat) (v : α) : Map.find? (Map.put m k v) k = some v := by
  induction m with
  | nil => simp [Map.put, Map.find?]
  | cons e t ih =>
    obtain ⟨k', v'⟩ := e
    simp only [Map.put]
    split
    · simp [Map.find?]
    · split
      · simp [Map.find?]
      · simp [Map.find?, *]

theorem Map.find?_put_ne {α : Type} (m : Map α) {j k : Nat} (v : α) (h : j ≠ k) :
    Map.find? (Map.put m k v) j = Map.find? m j := by
  induction m with
  | nil => simp [Map.put, Map.find?, h]
  | cons e t ih =>
    obtain ⟨k', v'⟩ := e
    simp only [Map.put]
    split
    · simp [Map.find?, h]
    · split
      · next hk => subst hk; simp [Map.find?, h]
      · simp only [Map.find?, ih]

@[simp] theorem Map.getD_put_self {α : Type} (m : Map α) (k : Nat) (v d : α) : Map.getD (Map.put m k v) k d = v := by
  simp [Map.getD]

theorem Map.getD_put_ne {α : Type} (m : Map α) {j k : Nat} (v d : α) (h : j ≠ k) :
    Map.getD (Map.put m k v) j d = Map.getD m j d := by
  simp [Map.getD, Map.find?_put_ne m v h]

/-- Reading a map after a write. -/
theorem Map.getD_put {α : Type} (m : Map α) (j k : Nat) (v d : α) :
    Map.getD (Map.put m k v) j d = if j = k then v else Map.getD m j d := by
  split
  · next h => subst h; simp
  · next h => exact Map.getD_put_ne m v d h

theorem Map.find?_mapV {α : Type} (m : Map α) (f : Nat → α → α) (k : Nat) :
    Map.find? (Map.mapV m f) k = (Map.find? m k).map (f k) := by
  induction m with
  | nil => rfl
  | cons e t ih =>
    obtain ⟨k', v'⟩ := e
    simp only [Map.mapV, List.map_cons, Map.find?]
    split
    · next h => subst h; rfl
    · exact ih

/-! ### Memories -/

theorem Mem.wfFrom_mono {lo lo' : Nat} {m : Mem} (h : Mem.wfFrom lo m = true) (hl : lo' ≤ lo) : Mem.wfFrom lo' m = true := by
  cases m with
  | nil => rfl
  | cons e t =>
    obtain ⟨k, v⟩ := e
    simp only [Mem.wfFrom, Bool.and_eq_true, decide_eq_true_eq] at h ⊢
    exact ⟨⟨by omega, h.1.2⟩, h.2⟩

theorem Mem.wfFrom_set {m : Mem} {lo a : Nat} (b : Byte) (h : Mem.wfFrom lo m = true) (ha : lo ≤ a) :
    Mem.wfFrom lo (Mem.set m a b) = true := by
  induction m generalizing lo with
  | nil =>
    simp only [Mem.set]
    split
    · rfl
    · simp_all [Mem.wfFrom]
  | cons e t ih =>
    obtain ⟨k, v⟩ := e
    simp only [Mem.wfFrom, Bool.and_eq_true, decide_eq_true_eq] at h
    simp only [Mem.set]
    split
    · split
      · simp only [Mem.wfFrom, Bool.and_eq_true, decide_eq_true_eq]
        exact h
      · simp only [Mem.wfFrom, Bool.and_eq_true, decide_eq_true_eq]
        exact ⟨⟨ha, by assumption⟩, ⟨by omega, h.1.2⟩, h.2⟩
    · split
      · split
        · exact Mem.wfFrom_mono h.2 (by omega)
        · simp only [Mem.wfFrom, Bool.and_eq_true, decide_eq_true_eq]
          subst a
          exact ⟨⟨ha, by assumption⟩, h.2⟩
      · simp only [Mem.wfFrom, Bool.and_eq_true, decide_eq_true_eq]
        exact ⟨h.1, ih h.2 (by omega)⟩

/-- A write keeps the canonical form. -/
theorem Mem.wf_set {m : Mem} (a : Nat) (b : Byte) (h : m.wf = true) : (Mem.set m a b).wf = true :=
  Mem.wfFrom_set b h (Nat.zero_le a)

/-- A write of bytes keeps the canonical form. -/
theorem Mem.wf_setBytes {m : Mem} (a : Nat) (bs : List Byte) (h : m.wf = true) : (Mem.setBytes m a bs).wf = true := by
  induction bs generalizing m a with
  | nil => exact h
  | cons b t ih => exact ih (a + 1) (Mem.wf_set a b h)

/-- A write of a number keeps the canonical form. -/
theorem Mem.wf_setLe {m : Mem} (a n x : Nat) (h : m.wf = true) : (Mem.setLe m a n x).wf = true :=
  Mem.wf_setBytes a _ h

/-- Writes one after another keep the canonical form. -/
theorem Mem.wf_foldl {α : Type} (f : Mem → α → Mem) (hf : ∀ m x, m.wf = true → (f m x).wf = true) (l : List α) {m : Mem}
    (h : m.wf = true) : (l.foldl f m).wf = true := by
  induction l generalizing m with
  | nil => exact h
  | cons x t ih => exact ih (hf m x h)

theorem Mem.wfFrom_filter {lo : Nat} {m : Mem} (p : Host.Cell → Bool) (h : Mem.wfFrom lo m = true) :
    Mem.wfFrom lo (m.filter p) = true := by
  induction m generalizing lo with
  | nil => rfl
  | cons e t ih =>
    obtain ⟨k, v⟩ := e
    simp only [Mem.wfFrom, Bool.and_eq_true, decide_eq_true_eq] at h
    simp only [List.filter_cons]
    split
    · simp only [Mem.wfFrom, Bool.and_eq_true, decide_eq_true_eq]
      exact ⟨h.1, ih h.2⟩
    · exact Mem.wfFrom_mono (ih h.2) (by omega)

/-- Dropping addresses keeps the canonical form. -/
theorem Mem.wf_filter {m : Mem} (p : Host.Cell → Bool) (h : m.wf = true) : Mem.wf (m.filter p) = true :=
  Mem.wfFrom_filter p h

/-- A copy of a range keeps the canonical form. -/
theorem Mem.wf_copy {m : Mem} (src dst len : Nat) (h : m.wf = true) : (Mem.copy m src dst len).wf = true :=
  Mem.wf_foldl _ (fun _ _ hm => Mem.wf_set _ _ hm) _ (Mem.wf_filter _ h)

theorem Mem.get_of_lt {lo a : Nat} {m : Mem} (h : Mem.wfFrom lo m = true) (ha : a < lo) : Mem.get m a = Mem.unlisted := by
  cases m with
  | nil => rfl
  | cons e t =>
    obtain ⟨k, v⟩ := e
    simp only [Mem.wfFrom, Bool.and_eq_true, decide_eq_true_eq] at h
    simp only [Mem.get]
    rw [if_neg (by omega), if_pos (by omega)]

/-- Reading a byte after a write of one: the byte written, or the byte before. -/
theorem Mem.get_set {m : Mem} {lo : Nat} (a j : Nat) (b : Byte) (h : Mem.wfFrom lo m = true) :
    Mem.get (Mem.set m a b) j = if j = a then b else Mem.get m j := by
  induction m generalizing lo with
  | nil =>
    simp only [Mem.set]
    split
    · split <;> simp_all [Mem.get]
    · simp only [Mem.get]
      split <;> simp_all
  | cons e t ih =>
    obtain ⟨k, v⟩ := e
    simp only [Mem.wfFrom, Bool.and_eq_true, decide_eq_true_eq] at h
    have low : ∀ j, j ≤ k → j ≠ k → Mem.get t j = Mem.unlisted := fun j h1 h2 => Mem.get_of_lt h.2 (by omega)
    simp only [Mem.set]
    split
    · split
      · simp only [Mem.get]
        split_ifs <;> first | omega | rfl | simp_all
      · simp only [Mem.get]
        split_ifs <;> first | omega | rfl
    · split
      · subst a
        split
        · simp only [Mem.get]
          split_ifs with h1 h2
          · subst h1; rw [Mem.get_of_lt h.2 (by omega)]; simp_all
          · exact Mem.get_of_lt h.2 (by omega)
          · rfl
        · simp only [Mem.get]
          split_ifs <;> rfl
      · simp only [Mem.get, ih h.2]
        split_ifs <;> first | omega | rfl

@[simp] theorem Mem.bytes_length (m : Mem) (a n : Nat) : (Mem.bytes m a n).length = n := by
  induction n generalizing a with
  | zero => rfl
  | succ n ih => simp [Mem.bytes, ih]

/-- Reading a byte after a write of bytes: the byte written there, or the byte before. -/
theorem Mem.get_setBytes {m : Mem} (a j : Nat) (bs : List Byte) (h : m.wf = true) :
    Mem.get (Mem.setBytes m a bs) j = if a ≤ j ∧ j < a + bs.length then bs.getD (j - a) 0 else Mem.get m j := by
  induction bs generalizing m a with
  | nil => simp only [Mem.setBytes, List.length_nil]; rw [if_neg (by omega)]
  | cons b t ih =>
    rw [Mem.setBytes, ih _ (Mem.wf_set a b h), Mem.get_set a j b h, List.length_cons]
    by_cases h1 : a + 1 ≤ j ∧ j < a + 1 + t.length
    · rw [if_pos h1, if_pos (by omega), show j - a = (j - (a + 1)) + 1 by omega]; rfl
    · rw [if_neg h1]
      by_cases h2 : j = a
      · subst h2; rw [if_pos rfl, if_pos (by omega)]; simp
      · rw [if_neg h2, if_neg (by omega)]

/-- Bytes written read back. -/
theorem Mem.bytes_setBytes {m : Mem} (a : Nat) (bs : List Byte) (h : m.wf = true) : Mem.bytes (Mem.setBytes m a bs) a bs.length = bs := by
  induction bs generalizing m a with
  | nil => rfl
  | cons b t ih =>
    rw [List.length_cons, Mem.bytes, Mem.setBytes, ih _ (Mem.wf_set a b h), Mem.get_setBytes _ _ _ (Mem.wf_set a b h),
      if_neg (by omega), Mem.get_set a a b h, if_pos rfl]

/-- Bytes outside a write read as before. -/
theorem Mem.bytes_setBytes_ne {m : Mem} (a b n : Nat) (bs : List Byte) (h : m.wf = true) (hab : b + n ≤ a ∨ a + bs.length ≤ b) :
    Mem.bytes (Mem.setBytes m a bs) b n = Mem.bytes m b n := by
  induction n generalizing b with
  | zero => rfl
  | succ n ih =>
    rw [Mem.bytes, Mem.bytes, ih _ (by omega), Mem.get_setBytes _ _ _ h, if_neg (by omega)]

/-- Bytes read in two parts. -/
theorem Mem.bytes_add (m : Mem) (a n k : Nat) : Mem.bytes m a (n + k) = Mem.bytes m a n ++ Mem.bytes m (a + n) k := by
  induction n generalizing a with
  | zero => simp [Mem.bytes]
  | succ n ih => rw [Nat.succ_add, Mem.bytes, Mem.bytes, ih, show a + 1 + n = a + (n + 1) by omega]; rfl

@[simp] theorem leBytes_length (n x : Nat) : (leBytes n x).length = n := by
  induction n generalizing x with
  | zero => rfl
  | succ n ih => simp [leBytes, ih]

theorem leNat_leBytes (n x : Nat) : leNat (leBytes n x) = x % 256 ^ n := by
  induction n generalizing x with
  | zero => simp [leBytes, leNat, Nat.mod_one]
  | succ n ih =>
    simp only [leBytes, leNat, ih, BitVec.toNat_ofNat]
    rw [show 256 ^ (n + 1) = 256 * 256 ^ n by ring, Nat.mod_mul]

/-! ### Fields of words -/

/-- A bit after a field was replaced. -/
theorem getLsbD_setFld {n : Nat} (x : BitVec n) (lo len v k : Nat) (h : k < n) :
    (setFld x lo len v).getLsbD k = if lo ≤ k ∧ k < lo + len then v.testBit (k - lo) else x.getLsbD k := by
  simp only [setFld, BitVec.getLsbD_or, BitVec.getLsbD_and, BitVec.getLsbD_not, BitVec.getLsbD_ofNat, Nat.testBit_shiftLeft,
    Nat.testBit_two_pow_sub_one, Nat.testBit_mod_two_pow, h, decide_true, Bool.true_and]
  by_cases h1 : lo ≤ k
  · have e : decide (k - lo < len) = decide (k < lo + len) := by congr 1; apply propext; omega
    rw [e]; by_cases h2 : k < lo + len <;> simp [h1, h2]
  · simp [h1]
/-- A bit after one bit was set. -/
theorem getLsbD_setBit {n : Nat} (x : BitVec n) (i k : Nat) (b : Bool) (h : k < n) :
    (setBit x i b).getLsbD k = if k = i then b else x.getLsbD k := by
  rw [setBit, getLsbD_setFld _ _ _ _ _ h]
  by_cases e : k = i
  · subst e; cases b <;> simp
  · rw [if_neg e, if_neg (by omega)]
/-- A bit after one bit was set, read as the model reads it. -/
theorem bitAt_setBit {n : Nat} (x : BitVec n) (i k : Nat) (b : Bool) (h : k < n) :
    bitAt (setBit x i b) k = if k = i then b else bitAt x k := getLsbD_setBit x i k b h
/-- A field that is already at a value is not changed. -/
theorem setFld_self {n : Nat} (x : BitVec n) (lo len v : Nat) (h : x.toNat / 2 ^ lo % 2 ^ len = v % 2 ^ len) : setFld x lo len v = x := by
  apply BitVec.eq_of_getLsbD_eq
  intro k hk
  rw [getLsbD_setFld _ _ _ _ _ hk]
  split
  · rename_i h1
    have := congrArg (fun y => Nat.testBit y (k - lo)) h
    simp only [Nat.testBit_mod_two_pow, Nat.testBit_div_two_pow, show k - lo < len by omega, decide_true, Bool.true_and] at this
    rw [← this, show k - lo + lo = k by omega]; rfl
  · rfl

end Sys2Proof.Machine
end

