-- ==== Sys2Proof/Laws/Crypto.lean ====
section
/-! SUPPORT. Galois/counter mode opens what it seals (spec/22_confidential_code.md). -/

namespace Sys2Proof.Machine

/-- Every block of a list of blocks has at most n bytes. -/
theorem pieces_le {α : Type} (n f : Nat) (l : List α) : ∀ b ∈ pieces n f l, b.length ≤ n := by
  induction f generalizing l with
  | zero => simp [pieces]
  | succ f ih =>
    simp only [pieces]
    split
    · simp
    · intro b hb
      rcases List.mem_cons.mp hb with rfl | hb
      · simp
      · exact ih _ b hb

/-- The pieces, joined, are the list. -/
theorem pieces_flatten {α : Type} {n : Nat} (_hn : 0 < n) (f : Nat) (l : List α) (h : l.length ≤ n * f) : (pieces n f l).flatten = l := by
  induction f generalizing l with
  | zero => simp_all [pieces]
  | succ f ih =>
    simp only [pieces]
    split
    · simp_all
    · rw [List.flatten_cons, ih _ (by rw [List.length_drop, Nat.mul_succ] at *; omega), List.take_append_drop]

/-- A list that has n elements for each piece: each piece has n. -/
theorem pieces_eq {α : Type} (n f : Nat) (l : List α) (h : l.length = n * f) : ∀ b ∈ pieces n f l, b.length = n := by
  induction f generalizing l with
  | zero => simp [pieces]
  | succ f ih =>
    simp only [pieces]
    rw [Nat.mul_succ] at h
    split
    · simp
    · intro b hb
      rcases List.mem_cons.mp hb with rfl | hb
      · rw [List.length_take]; omega
      · exact ih _ (by rw [List.length_drop]; omega) b hb

/-- The number of such pieces. -/
theorem pieces_count {α : Type} {n : Nat} (hn : 0 < n) (f : Nat) (l : List α) (h : l.length = n * f) : (pieces n f l).length = f := by
  induction f generalizing l with
  | zero => simp [pieces]
  | succ f ih =>
    rw [Nat.mul_succ] at h
    have : l.isEmpty = false := by
      rw [List.isEmpty_eq_false_iff]
      rintro rfl
      rw [List.length_nil] at h
      omega
    simp only [pieces, this]
    simp only [Bool.false_eq_true, if_false, List.length_cons]
    rw [ih _ (by rw [List.length_drop]; omega)]

theorem xorBytes_length (a b : List Byte) (h : a.length ≤ b.length) : (xorBytes a b).length = a.length := by
  simp [xorBytes, Nat.min_eq_left h]

/-- Exclusive or with the same bytes twice. -/
theorem xorBytes_twice (a b : List Byte) (h : a.length ≤ b.length) : xorBytes (xorBytes a b) b = a := by
  induction a generalizing b with
  | nil => rfl
  | cons x a ih =>
    cases b with
    | nil => simp at h
    | cons y b =>
      simp only [xorBytes, List.zipWith_cons_cons, List.cons.injEq]
      exact ⟨by rw [BitVec.xor_assoc, BitVec.xor_self, BitVec.xor_zero], ih b (by simpa using h)⟩

/-! ### The lengths of AES -/

/-- The key schedule makes n words of four bytes more. -/
theorem aesExpand_words (n i : Nat) (rc : Byte) (ws : List (List Byte)) (h8 : 8 ≤ ws.length) (h4 : ∀ w ∈ ws, w.length = 4) :
    (aesExpand n i rc ws).length = n + ws.length ∧ ∀ w ∈ aesExpand n i rc ws, w.length = 4 := by
  induction n generalizing i rc ws with
  | zero => simpa [aesExpand] using h4
  | succ n ih =>
    have get (k : Nat) (hk : k < 8) : (ws.getD k []).length = 4 := by
      rw [List.getD_eq_getElem _ _ (by omega)]; exact h4 _ (List.getElem_mem _)
    have head : (ws.headD []).length = 4 := by
      have := get 0 (by omega)
      cases ws <;> simp_all
    have step (t : List Byte) (rc : Byte) (ht : t.length = 4) :
        (aesExpand n (i + 1) rc (xorBytes (ws.getD 7 []) t :: ws)).length = n + 1 + ws.length ∧
        ∀ w ∈ aesExpand n (i + 1) rc (xorBytes (ws.getD 7 []) t :: ws), w.length = 4 := by
      have := ih (i + 1) rc (xorBytes (ws.getD 7 []) t :: ws) (by simp; omega) (by
        intro w hw
        rcases List.mem_cons.mp hw with rfl | hw
        · rw [xorBytes_length _ _ (by rw [get 7 (by omega), ht]), get 7 (by omega)]
        · exact h4 w hw)
      rw [List.length_cons] at this
      exact ⟨by omega, this.2⟩
    simp only [aesExpand]
    split
    · apply step
      have hu : (((ws.headD []).drop 1 ++ (ws.headD []).take 1).map aesSub).length = 4 := by
        rw [List.length_map, List.length_append, List.length_drop, List.length_take, head]; rfl
      split
      · next he => rw [he] at hu; simpa using hu
      · next he => rw [he] at hu; simp at hu
    · split
      · exact step _ _ (by simpa using head)
      · exact step _ _ head

/-- A 32-byte key gives fifteen round keys of 16 bytes. -/
theorem aesKeys_wf (key : List Byte) (h : key.length = 32) : (aesKeys key).length = 15 ∧ ∀ k ∈ aesKeys key, k.length = 16 := by
  have hw := aesExpand_words 52 8 1 (pieces 4 8 key).reverse (by simp [pieces_count (n := 4) (by omega) 8 key h])
    (by simpa using pieces_eq 4 8 key h)
  have hl : (aesExpand 52 8 1 (pieces 4 8 key).reverse).reverse.length = 4 * 15 := by
    rw [List.length_reverse, hw.1, List.length_reverse, pieces_count (by omega) 8 key h]
  refine ⟨by rw [aesKeys, List.length_map, pieces_count (by omega) 15 _ hl], ?_⟩
  intro k hk
  obtain ⟨p, hp, rfl⟩ := List.mem_map.mp hk
  have h4 := pieces_eq 4 15 _ hl p hp
  have hin : ∀ w ∈ p, w.length = 4 := by
    intro w hwp
    have : w ∈ (pieces 4 15 (aesExpand 52 8 1 (pieces 4 8 key).reverse).reverse).flatten := List.mem_flatten.mpr ⟨p, hp, hwp⟩
    rw [pieces_flatten (by omega) 15 _ (by omega)] at this
    exact hw.2 w (by simpa using this)
  match p, h4 with
  | [a, b, c, d], _ => simp_all

theorem aesMix_length (l : List Byte) : (aesMix l).length = l.length := by
  unfold aesMix; split <;> simp

theorem mixed_length (ls : List (List Byte)) : (ls.flatMap aesMix).length = ls.flatten.length := by
  induction ls with
  | nil => rfl
  | cons a t ih => simp_all [aesMix_length]

/-- AES answers 16 bytes. -/
theorem aesBlock_length (ks : List (List Byte)) (b : List Byte) (hk : ∀ k ∈ ks, k.length = 16) (hb : b.length = 16) :
    (aesBlock ks b).length = 16 := by
  have rounds : ∀ (ks : List (List Byte)) (s : List Byte), (∀ k ∈ ks, k.length = 16) → s.length = 16 → (aesRounds ks s).length = 16 := by
    intro ks
    induction ks with
    | nil => intro s _ hs; exact hs
    | cons k t ih =>
      intro s hk hs
      have sh : (aesShift (s.map aesSub)).length = 16 := by simp [aesShift]
      cases t with
      | nil => rw [aesRounds, xorBytes_length _ _ (by rw [sh, hk k (by simp)]), sh]
      | cons k2 t =>
        rw [aesRounds]
        · have : ((pieces 4 4 (aesShift (s.map aesSub))).flatMap aesMix).length = 16 := by
            rw [mixed_length, pieces_flatten (by omega) 4 _ (by omega), sh]
          exact ih _ (fun x hx => hk x (by simp_all)) (by rw [xorBytes_length _ _ (by rw [this, hk k (by simp)]), this])
        · simp
  cases ks with
  | nil => exact hb
  | cons k t =>
    exact rounds t _ (fun x hx => hk x (by simp_all)) (by rw [xorBytes_length _ _ (by rw [hb, hk k (by simp)]), hb])

theorem beBytes_length (n x : Nat) : (beBytes n x).length = n := by simp [beBytes]

/-! ### Opening what was sealed -/

/-- The keystream over pieces of at most 16 bytes keeps their lengths. -/
theorem ctrXor_length (ks : List (List Byte)) (iv : List Byte) (hk : ∀ k ∈ ks, k.length = 16) (hiv : iv.length = 12) (n : Nat)
    (bs : List (List Byte)) (hb : ∀ b ∈ bs, b.length ≤ 16) : (ctrXor ks iv n bs).length = bs.flatten.length := by
  induction bs generalizing n with
  | nil => rfl
  | cons b t ih =>
    rw [ctrXor, List.length_append, ih _ (fun x hx => hb x (by simp_all)),
      xorBytes_length _ _ (by rw [aesBlock_length ks _ hk (by simp [hiv, beBytes_length])]; exact hb b (by simp))]
    simp

/-- Galois/counter mode opens what it seals. -/
theorem gcmOpen_seal (key iv aad pt : List Byte) (hkey : key.length = 32) (hiv : iv.length = 12) :
    gcmOpen key iv aad (gcmSeal key iv aad pt).1 (gcmSeal key iv aad pt).2 = some pt ∧
    (gcmSeal key iv aad pt).1.length = pt.length ∧ (gcmSeal key iv aad pt).2.length = 16 := by
  have hk := (aesKeys_wf key hkey).2
  have key16 (n : Nat) : (aesBlock (aesKeys key) (iv ++ beBytes 4 n)).length = 16 := aesBlock_length _ _ hk (by simp [hiv, beBytes_length])
  have inv : ∀ (f n : Nat) (l : List Byte), l.length ≤ f →
      ctrXor (aesKeys key) iv n (pieces 16 f (ctrXor (aesKeys key) iv n (pieces 16 f l))) = l := by
    intro f
    induction f with
    | zero => intro n l hl; simp_all [pieces, ctrXor]
    | succ f ih =>
      intro n l hl
      by_cases he : l.isEmpty
      · simp_all [pieces, ctrXor]
      · have hne : l ≠ [] := by simpa using he
        have hpos := List.length_pos_iff.mpr hne
        have h1 : (xorBytes (l.take 16) (aesBlock (aesKeys key) (iv ++ beBytes 4 n))).length = (l.take 16).length :=
          xorBytes_length _ _ (by rw [key16]; simp)
        simp only [pieces, he, Bool.false_eq_true, if_false, ctrXor]
        have hne2 : (xorBytes (l.take 16) (aesBlock (aesKeys key) (iv ++ beBytes 4 n)) ++
            ctrXor (aesKeys key) iv (n + 1) (pieces 16 f (l.drop 16))).isEmpty = false := by
          rw [List.isEmpty_eq_false_iff]
          intro hc
          have := congrArg List.length hc
          rw [List.length_append, h1, List.length_take, List.length_nil] at this
          omega
        simp only [hne2, Bool.false_eq_true, if_false, ctrXor]
        have full : (l.take 16).length = 16 ∨ l.drop 16 = [] := by
          by_cases h16 : 16 ≤ l.length
          · left; simp; omega
          · right; exact List.drop_of_length_le (by omega)
        rcases full with hf | hf
        · have ht := List.take_left' (l₁ := xorBytes (l.take 16) (aesBlock (aesKeys key) (iv ++ beBytes 4 n)))
            (l₂ := ctrXor (aesKeys key) iv (n + 1) (pieces 16 f (l.drop 16))) (i := 16) (by rw [h1, hf])
          have hd := List.drop_left' (l₁ := xorBytes (l.take 16) (aesBlock (aesKeys key) (iv ++ beBytes 4 n)))
            (l₂ := ctrXor (aesKeys key) iv (n + 1) (pieces 16 f (l.drop 16))) (i := 16) (by rw [h1, hf])
          rw [ht, hd, xorBytes_twice _ _ (by rw [key16]; simp), ih _ _ (by rw [List.length_drop]; omega), List.take_append_drop]
        · have nil (m g : Nat) : ctrXor (aesKeys key) iv m (pieces 16 g []) = [] := by cases g <;> simp [pieces, ctrXor]
          have h16 : (l.take 16).length ≤ 16 := by simp
          rw [hf, nil, List.append_nil, List.take_of_length_le (by rw [h1]; exact h16), List.drop_of_length_le (by rw [h1]; exact h16), nil,
            List.append_nil, xorBytes_twice _ _ (by rw [key16]; exact h16)]
          have := List.take_append_drop 16 l
          rw [hf, List.append_nil] at this
          exact this
  have hlen : (gcmSeal key iv aad pt).1.length = pt.length := by
    have := ctrXor_length (aesKeys key) iv hk hiv 2 (pieces 16 pt.length pt) (pieces_le 16 _ pt)
    rwa [pieces_flatten (by omega) _ _ (by omega)] at this
  refine ⟨?_, hlen, ?_⟩
  · have : gcmOpen key iv aad (gcmSeal key iv aad pt).1 (gcmSeal key iv aad pt).2 =
        some (ctrXor (aesKeys key) iv 2 (pieces 16 (gcmSeal key iv aad pt).1.length (gcmSeal key iv aad pt).1)) := by
      exact if_pos rfl
    rw [this, hlen]
    exact congrArg some (inv pt.length 2 pt (Nat.le_refl _))
  · change (gcmTag (aesKeys key) iv aad _).length = 16
    rw [gcmTag, xorBytes_length _ _ (by rw [key16, beBytes_length]), beBytes_length]

theorem fit_length (n : Nat) (bs : List Byte) : (fit n bs).length = n := by
  simp [fit]; omega

/-- A sealed part of a checkpoint, read back where its expander is up and opened (R375). -/
theorem openPart_sealPart (s : State) (a ctr part : Nat) (head body : List Byte) (hh : head.length = 64)
    (hu : s.rangeDown a (80 + body.length) = false)
    (hm : s.mem.bytes a (80 + body.length) = sealPart ctr part head body) : s.openPart a (80 + body.length) ctr part = some body := by
  obtain ⟨ho, hc, ht⟩ := gcmOpen_seal Config.checkpointKey (partIv ctr part) head body (by simp [Config.checkpointKey])
    (by simp [partIv])
  simp only [State.openPart, hm, hu, Bool.false_eq_true, if_false, sealPart]
  have h1 : (head ++ (gcmSeal Config.checkpointKey (partIv ctr part) head body).1
      ++ (gcmSeal Config.checkpointKey (partIv ctr part) head body).2).take 64 = head := by
    rw [List.append_assoc, List.take_left' hh]
  have h2 : slice (head ++ (gcmSeal Config.checkpointKey (partIv ctr part) head body).1
      ++ (gcmSeal Config.checkpointKey (partIv ctr part) head body).2) 64 (80 + body.length - 80)
      = (gcmSeal Config.checkpointKey (partIv ctr part) head body).1 := by
    rw [slice, List.append_assoc, List.drop_left' hh, List.take_left' (by rw [hc]; omega)]
  have h3 : (head ++ (gcmSeal Config.checkpointKey (partIv ctr part) head body).1
      ++ (gcmSeal Config.checkpointKey (partIv ctr part) head body).2).drop (80 + body.length - 16)
      = (gcmSeal Config.checkpointKey (partIv ctr part) head body).2 := by
    rw [List.drop_left' (by rw [List.length_append, hh, hc]; omega)]
  rw [h1, h2, h3]
  exact ho

/-- The length of a sealed part. -/
theorem sealPart_length (ctr part : Nat) (head body : List Byte) (hh : head.length = 64) :
    (sealPart ctr part head body).length = 80 + body.length := by
  obtain ⟨-, hc, ht⟩ := gcmOpen_seal Config.checkpointKey (partIv ctr part) head body (by simp [Config.checkpointKey])
    (by simp [partIv])
  simp only [sealPart, List.length_append, hh, hc, ht]
  omega

/-- The clear bytes of a sealed part. -/
theorem sealPart_take (ctr part k : Nat) (head body : List Byte) (hk : k ≤ head.length) :
    (sealPart ctr part head body).take k = head.take k := by
  change (head ++ (gcmSeal Config.checkpointKey (partIv ctr part) head body).1
      ++ (gcmSeal Config.checkpointKey (partIv ctr part) head body).2).take k = head.take k
  rw [List.append_assoc, List.take_append_of_le_length hk]

end Sys2Proof.Machine
end

