-- ==== Sys2Proof/Laws/Encoding.lean ====
section
/-! SUPPORT. The fields of the words that the encoder builds, and what the decoder makes of each layout. -/

namespace Sys2Proof

theorem fld_append_low {n m : Nat} (x : BitVec n) (y : BitVec m) (lo len : Nat) (h : lo + len ≤ m) :
    fld (x ++ y) lo len = fld y lo len := BitVec.extractLsb'_append_eq_of_add_le h

theorem fld_append_high {n m : Nat} (x : BitVec n) (y : BitVec m) (lo len : Nat) (h : m ≤ lo) :
    fld (x ++ y) lo len = fld x (lo - m) len := BitVec.extractLsb'_append_eq_of_le h

theorem fld_self {n : Nat} (x : BitVec n) : fld x 0 n = x := BitVec.extractLsb'_eq_self

/-- The field of the low part of a concatenation. -/
theorem fld_last {n m : Nat} (x : BitVec n) (y : BitVec m) : fld (x ++ y) 0 m = y :=
  (fld_append_low x y 0 m (by omega)).trans (fld_self y)

/-! ### wordR -/

theorem fld_wordR_cls (l : BitVec 1) (cls : BitVec 3) (op : BitVec 6) (d a b : BitVec 5) (lo : BitVec 7) :
    fld (wordR l cls op d a b lo) 28 3 = cls :=
  (fld_append_high (l ++ cls ++ op ++ d ++ a ++ b) lo 28 3 (by decide)).trans ((fld_append_high (l ++ cls ++ op ++ d ++ a) b 21 3 (by decide)).trans ((fld_append_high (l ++ cls ++ op ++ d) a 16 3 (by decide)).trans ((fld_append_high (l ++ cls ++ op) d 11 3 (by decide)).trans ((fld_append_high (l ++ cls) op 6 3 (by decide)).trans ((fld_last (l) cls))))))
theorem fld_wordR_op (l : BitVec 1) (cls : BitVec 3) (op : BitVec 6) (d a b : BitVec 5) (lo : BitVec 7) :
    fld (wordR l cls op d a b lo) 22 6 = op :=
  (fld_append_high (l ++ cls ++ op ++ d ++ a ++ b) lo 22 6 (by decide)).trans ((fld_append_high (l ++ cls ++ op ++ d ++ a) b 15 6 (by decide)).trans ((fld_append_high (l ++ cls ++ op ++ d) a 10 6 (by decide)).trans ((fld_append_high (l ++ cls ++ op) d 5 6 (by decide)).trans ((fld_last (l ++ cls) op)))))
theorem fld_wordR_d (l : BitVec 1) (cls : BitVec 3) (op : BitVec 6) (d a b : BitVec 5) (lo : BitVec 7) :
    fld (wordR l cls op d a b lo) 17 5 = d :=
  (fld_append_high (l ++ cls ++ op ++ d ++ a ++ b) lo 17 5 (by decide)).trans ((fld_append_high (l ++ cls ++ op ++ d ++ a) b 10 5 (by decide)).trans ((fld_append_high (l ++ cls ++ op ++ d) a 5 5 (by decide)).trans ((fld_last (l ++ cls ++ op) d))))
theorem fld_wordR_a (l : BitVec 1) (cls : BitVec 3) (op : BitVec 6) (d a b : BitVec 5) (lo : BitVec 7) :
    fld (wordR l cls op d a b lo) 12 5 = a :=
  (fld_append_high (l ++ cls ++ op ++ d ++ a ++ b) lo 12 5 (by decide)).trans ((fld_append_high (l ++ cls ++ op ++ d ++ a) b 5 5 (by decide)).trans ((fld_last (l ++ cls ++ op ++ d) a)))
theorem fld_wordR_b (l : BitVec 1) (cls : BitVec 3) (op : BitVec 6) (d a b : BitVec 5) (lo : BitVec 7) :
    fld (wordR l cls op d a b lo) 7 5 = b :=
  (fld_append_high (l ++ cls ++ op ++ d ++ a ++ b) lo 7 5 (by decide)).trans ((fld_last (l ++ cls ++ op ++ d ++ a) b))
theorem fld_wordR_lo (l : BitVec 1) (cls : BitVec 3) (op : BitVec 6) (d a b : BitVec 5) (lo : BitVec 7) :
    fld (wordR l cls op d a b lo) 0 7 = lo :=
  (fld_last (l ++ cls ++ op ++ d ++ a ++ b) lo)

/-! ### wordI -/

theorem fld_wordI_cls (l : BitVec 1) (cls : BitVec 3) (op : BitVec 6) (d a : BitVec 5) (imm : BitVec 12) :
    fld (wordI l cls op d a imm) 28 3 = cls :=
  (fld_append_high (l ++ cls ++ op ++ d ++ a) imm 28 3 (by decide)).trans ((fld_append_high (l ++ cls ++ op ++ d) a 16 3 (by decide)).trans ((fld_append_high (l ++ cls ++ op) d 11 3 (by decide)).trans ((fld_append_high (l ++ cls) op 6 3 (by decide)).trans ((fld_last (l) cls)))))
theorem fld_wordI_op (l : BitVec 1) (cls : BitVec 3) (op : BitVec 6) (d a : BitVec 5) (imm : BitVec 12) :
    fld (wordI l cls op d a imm) 22 6 = op :=
  (fld_append_high (l ++ cls ++ op ++ d ++ a) imm 22 6 (by decide)).trans ((fld_append_high (l ++ cls ++ op ++ d) a 10 6 (by decide)).trans ((fld_append_high (l ++ cls ++ op) d 5 6 (by decide)).trans ((fld_last (l ++ cls) op))))
theorem fld_wordI_d (l : BitVec 1) (cls : BitVec 3) (op : BitVec 6) (d a : BitVec 5) (imm : BitVec 12) :
    fld (wordI l cls op d a imm) 17 5 = d :=
  (fld_append_high (l ++ cls ++ op ++ d ++ a) imm 17 5 (by decide)).trans ((fld_append_high (l ++ cls ++ op ++ d) a 5 5 (by decide)).trans ((fld_last (l ++ cls ++ op) d)))
theorem fld_wordI_a (l : BitVec 1) (cls : BitVec 3) (op : BitVec 6) (d a : BitVec 5) (imm : BitVec 12) :
    fld (wordI l cls op d a imm) 12 5 = a :=
  (fld_append_high (l ++ cls ++ op ++ d ++ a) imm 12 5 (by decide)).trans ((fld_last (l ++ cls ++ op ++ d) a))
theorem fld_wordI_imm (l : BitVec 1) (cls : BitVec 3) (op : BitVec 6) (d a : BitVec 5) (imm : BitVec 12) :
    fld (wordI l cls op d a imm) 0 12 = imm :=
  (fld_last (l ++ cls ++ op ++ d ++ a) imm)

/-! ### wordU -/

theorem fld_wordU_cls (l : BitVec 1) (cls : BitVec 3) (op : BitVec 6) (d : BitVec 5) (imm : BitVec 17) :
    fld (wordU l cls op d imm) 28 3 = cls :=
  (fld_append_high (l ++ cls ++ op ++ d) imm 28 3 (by decide)).trans ((fld_append_high (l ++ cls ++ op) d 11 3 (by decide)).trans ((fld_append_high (l ++ cls) op 6 3 (by decide)).trans ((fld_last (l) cls))))
theorem fld_wordU_op (l : BitVec 1) (cls : BitVec 3) (op : BitVec 6) (d : BitVec 5) (imm : BitVec 17) :
    fld (wordU l cls op d imm) 22 6 = op :=
  (fld_append_high (l ++ cls ++ op ++ d) imm 22 6 (by decide)).trans ((fld_append_high (l ++ cls ++ op) d 5 6 (by decide)).trans ((fld_last (l ++ cls) op)))
theorem fld_wordU_d (l : BitVec 1) (cls : BitVec 3) (op : BitVec 6) (d : BitVec 5) (imm : BitVec 17) :
    fld (wordU l cls op d imm) 17 5 = d :=
  (fld_append_high (l ++ cls ++ op ++ d) imm 17 5 (by decide)).trans ((fld_last (l ++ cls ++ op) d))
theorem fld_wordU_imm (l : BitVec 1) (cls : BitVec 3) (op : BitVec 6) (d : BitVec 5) (imm : BitVec 17) :
    fld (wordU l cls op d imm) 0 17 = imm :=
  (fld_last (l ++ cls ++ op ++ d) imm)

/-! ### wordQ -/

theorem fld_wordQ_cls (l : BitVec 1) (sel : BitVec 2) (d a b c : BitVec 5) (rm : BitVec 3) (w : BitVec 1) :
    fld (wordQ l sel d a b c rm w) 28 3 = 2#3 :=
  (fld_append_high (l ++ 2#3 ++ 3#2 ++ sel ++ d ++ a ++ b ++ c ++ rm) w 28 3 (by decide)).trans ((fld_append_high (l ++ 2#3 ++ 3#2 ++ sel ++ d ++ a ++ b ++ c) rm 27 3 (by decide)).trans ((fld_append_high (l ++ 2#3 ++ 3#2 ++ sel ++ d ++ a ++ b) c 24 3 (by decide)).trans ((fld_append_high (l ++ 2#3 ++ 3#2 ++ sel ++ d ++ a) b 19 3 (by decide)).trans ((fld_append_high (l ++ 2#3 ++ 3#2 ++ sel ++ d) a 14 3 (by decide)).trans ((fld_append_high (l ++ 2#3 ++ 3#2 ++ sel) d 9 3 (by decide)).trans ((fld_append_high (l ++ 2#3 ++ 3#2) sel 4 3 (by decide)).trans ((fld_append_high (l ++ 2#3) 3#2 2 3 (by decide)).trans ((fld_last (l) 2#3)))))))))
theorem fld_wordQ_top (l : BitVec 1) (sel : BitVec 2) (d a b c : BitVec 5) (rm : BitVec 3) (w : BitVec 1) :
    fld (wordQ l sel d a b c rm w) 26 2 = 3#2 :=
  (fld_append_high (l ++ 2#3 ++ 3#2 ++ sel ++ d ++ a ++ b ++ c ++ rm) w 26 2 (by decide)).trans ((fld_append_high (l ++ 2#3 ++ 3#2 ++ sel ++ d ++ a ++ b ++ c) rm 25 2 (by decide)).trans ((fld_append_high (l ++ 2#3 ++ 3#2 ++ sel ++ d ++ a ++ b) c 22 2 (by decide)).trans ((fld_append_high (l ++ 2#3 ++ 3#2 ++ sel ++ d ++ a) b 17 2 (by decide)).trans ((fld_append_high (l ++ 2#3 ++ 3#2 ++ sel ++ d) a 12 2 (by decide)).trans ((fld_append_high (l ++ 2#3 ++ 3#2 ++ sel) d 7 2 (by decide)).trans ((fld_append_high (l ++ 2#3 ++ 3#2) sel 2 2 (by decide)).trans ((fld_last (l ++ 2#3) 3#2))))))))
theorem fld_wordQ_sel (l : BitVec 1) (sel : BitVec 2) (d a b c : BitVec 5) (rm : BitVec 3) (w : BitVec 1) :
    fld (wordQ l sel d a b c rm w) 24 2 = sel :=
  (fld_append_high (l ++ 2#3 ++ 3#2 ++ sel ++ d ++ a ++ b ++ c ++ rm) w 24 2 (by decide)).trans ((fld_append_high (l ++ 2#3 ++ 3#2 ++ sel ++ d ++ a ++ b ++ c) rm 23 2 (by decide)).trans ((fld_append_high (l ++ 2#3 ++ 3#2 ++ sel ++ d ++ a ++ b) c 20 2 (by decide)).trans ((fld_append_high (l ++ 2#3 ++ 3#2 ++ sel ++ d ++ a) b 15 2 (by decide)).trans ((fld_append_high (l ++ 2#3 ++ 3#2 ++ sel ++ d) a 10 2 (by decide)).trans ((fld_append_high (l ++ 2#3 ++ 3#2 ++ sel) d 5 2 (by decide)).trans ((fld_last (l ++ 2#3 ++ 3#2) sel)))))))
theorem fld_wordQ_d (l : BitVec 1) (sel : BitVec 2) (d a b c : BitVec 5) (rm : BitVec 3) (w : BitVec 1) :
    fld (wordQ l sel d a b c rm w) 19 5 = d :=
  (fld_append_high (l ++ 2#3 ++ 3#2 ++ sel ++ d ++ a ++ b ++ c ++ rm) w 19 5 (by decide)).trans ((fld_append_high (l ++ 2#3 ++ 3#2 ++ sel ++ d ++ a ++ b ++ c) rm 18 5 (by decide)).trans ((fld_append_high (l ++ 2#3 ++ 3#2 ++ sel ++ d ++ a ++ b) c 15 5 (by decide)).trans ((fld_append_high (l ++ 2#3 ++ 3#2 ++ sel ++ d ++ a) b 10 5 (by decide)).trans ((fld_append_high (l ++ 2#3 ++ 3#2 ++ sel ++ d) a 5 5 (by decide)).trans ((fld_last (l ++ 2#3 ++ 3#2 ++ sel) d))))))
theorem fld_wordQ_a (l : BitVec 1) (sel : BitVec 2) (d a b c : BitVec 5) (rm : BitVec 3) (w : BitVec 1) :
    fld (wordQ l sel d a b c rm w) 14 5 = a :=
  (fld_append_high (l ++ 2#3 ++ 3#2 ++ sel ++ d ++ a ++ b ++ c ++ rm) w 14 5 (by decide)).trans ((fld_append_high (l ++ 2#3 ++ 3#2 ++ sel ++ d ++ a ++ b ++ c) rm 13 5 (by decide)).trans ((fld_append_high (l ++ 2#3 ++ 3#2 ++ sel ++ d ++ a ++ b) c 10 5 (by decide)).trans ((fld_append_high (l ++ 2#3 ++ 3#2 ++ sel ++ d ++ a) b 5 5 (by decide)).trans ((fld_last (l ++ 2#3 ++ 3#2 ++ sel ++ d) a)))))
theorem fld_wordQ_b (l : BitVec 1) (sel : BitVec 2) (d a b c : BitVec 5) (rm : BitVec 3) (w : BitVec 1) :
    fld (wordQ l sel d a b c rm w) 9 5 = b :=
  (fld_append_high (l ++ 2#3 ++ 3#2 ++ sel ++ d ++ a ++ b ++ c ++ rm) w 9 5 (by decide)).trans ((fld_append_high (l ++ 2#3 ++ 3#2 ++ sel ++ d ++ a ++ b ++ c) rm 8 5 (by decide)).trans ((fld_append_high (l ++ 2#3 ++ 3#2 ++ sel ++ d ++ a ++ b) c 5 5 (by decide)).trans ((fld_last (l ++ 2#3 ++ 3#2 ++ sel ++ d ++ a) b))))
theorem fld_wordQ_c (l : BitVec 1) (sel : BitVec 2) (d a b c : BitVec 5) (rm : BitVec 3) (w : BitVec 1) :
    fld (wordQ l sel d a b c rm w) 4 5 = c :=
  (fld_append_high (l ++ 2#3 ++ 3#2 ++ sel ++ d ++ a ++ b ++ c ++ rm) w 4 5 (by decide)).trans ((fld_append_high (l ++ 2#3 ++ 3#2 ++ sel ++ d ++ a ++ b ++ c) rm 3 5 (by decide)).trans ((fld_last (l ++ 2#3 ++ 3#2 ++ sel ++ d ++ a ++ b) c)))
theorem fld_wordQ_rm (l : BitVec 1) (sel : BitVec 2) (d a b c : BitVec 5) (rm : BitVec 3) (w : BitVec 1) :
    fld (wordQ l sel d a b c rm w) 1 3 = rm :=
  (fld_append_high (l ++ 2#3 ++ 3#2 ++ sel ++ d ++ a ++ b ++ c ++ rm) w 1 3 (by decide)).trans ((fld_last (l ++ 2#3 ++ 3#2 ++ sel ++ d ++ a ++ b ++ c) rm))
theorem fld_wordQ_w (l : BitVec 1) (sel : BitVec 2) (d a b c : BitVec 5) (rm : BitVec 3) (w : BitVec 1) :
    fld (wordQ l sel d a b c rm w) 0 1 = w :=
  (fld_last (l ++ 2#3 ++ 3#2 ++ sel ++ d ++ a ++ b ++ c ++ rm) w)

/-! ### wordV -/

theorem fld_wordV_cls (l : BitVec 1) (op : BitVec 6) (d a b : BitVec 6) (rm : BitVec 3) (w : BitVec 1) :
    fld (wordV l op d a b rm w) 28 3 = 3#3 :=
  (fld_append_high (l ++ 3#3 ++ op ++ d ++ a ++ b ++ rm) w 28 3 (by decide)).trans ((fld_append_high (l ++ 3#3 ++ op ++ d ++ a ++ b) rm 27 3 (by decide)).trans ((fld_append_high (l ++ 3#3 ++ op ++ d ++ a) b 24 3 (by decide)).trans ((fld_append_high (l ++ 3#3 ++ op ++ d) a 18 3 (by decide)).trans ((fld_append_high (l ++ 3#3 ++ op) d 12 3 (by decide)).trans ((fld_append_high (l ++ 3#3) op 6 3 (by decide)).trans ((fld_last (l) 3#3)))))))
theorem fld_wordV_op (l : BitVec 1) (op : BitVec 6) (d a b : BitVec 6) (rm : BitVec 3) (w : BitVec 1) :
    fld (wordV l op d a b rm w) 22 6 = op :=
  (fld_append_high (l ++ 3#3 ++ op ++ d ++ a ++ b ++ rm) w 22 6 (by decide)).trans ((fld_append_high (l ++ 3#3 ++ op ++ d ++ a ++ b) rm 21 6 (by decide)).trans ((fld_append_high (l ++ 3#3 ++ op ++ d ++ a) b 18 6 (by decide)).trans ((fld_append_high (l ++ 3#3 ++ op ++ d) a 12 6 (by decide)).trans ((fld_append_high (l ++ 3#3 ++ op) d 6 6 (by decide)).trans ((fld_last (l ++ 3#3) op))))))
theorem fld_wordV_d (l : BitVec 1) (op : BitVec 6) (d a b : BitVec 6) (rm : BitVec 3) (w : BitVec 1) :
    fld (wordV l op d a b rm w) 16 6 = d :=
  (fld_append_high (l ++ 3#3 ++ op ++ d ++ a ++ b ++ rm) w 16 6 (by decide)).trans ((fld_append_high (l ++ 3#3 ++ op ++ d ++ a ++ b) rm 15 6 (by decide)).trans ((fld_append_high (l ++ 3#3 ++ op ++ d ++ a) b 12 6 (by decide)).trans ((fld_append_high (l ++ 3#3 ++ op ++ d) a 6 6 (by decide)).trans ((fld_last (l ++ 3#3 ++ op) d)))))
theorem fld_wordV_a (l : BitVec 1) (op : BitVec 6) (d a b : BitVec 6) (rm : BitVec 3) (w : BitVec 1) :
    fld (wordV l op d a b rm w) 10 6 = a :=
  (fld_append_high (l ++ 3#3 ++ op ++ d ++ a ++ b ++ rm) w 10 6 (by decide)).trans ((fld_append_high (l ++ 3#3 ++ op ++ d ++ a ++ b) rm 9 6 (by decide)).trans ((fld_append_high (l ++ 3#3 ++ op ++ d ++ a) b 6 6 (by decide)).trans ((fld_last (l ++ 3#3 ++ op ++ d) a))))
theorem fld_wordV_b (l : BitVec 1) (op : BitVec 6) (d a b : BitVec 6) (rm : BitVec 3) (w : BitVec 1) :
    fld (wordV l op d a b rm w) 4 6 = b :=
  (fld_append_high (l ++ 3#3 ++ op ++ d ++ a ++ b ++ rm) w 4 6 (by decide)).trans ((fld_append_high (l ++ 3#3 ++ op ++ d ++ a ++ b) rm 3 6 (by decide)).trans ((fld_last (l ++ 3#3 ++ op ++ d ++ a) b)))
theorem fld_wordV_rm (l : BitVec 1) (op : BitVec 6) (d a b : BitVec 6) (rm : BitVec 3) (w : BitVec 1) :
    fld (wordV l op d a b rm w) 1 3 = rm :=
  (fld_append_high (l ++ 3#3 ++ op ++ d ++ a ++ b ++ rm) w 1 3 (by decide)).trans ((fld_last (l ++ 3#3 ++ op ++ d ++ a ++ b) rm))
theorem fld_wordV_w (l : BitVec 1) (op : BitVec 6) (d a b : BitVec 6) (rm : BitVec 3) (w : BitVec 1) :
    fld (wordV l op d a b rm w) 0 1 = w :=
  (fld_last (l ++ 3#3 ++ op ++ d ++ a ++ b ++ rm) w)

/-! ### wordMO -/

theorem fld_wordMO_cls (l : BitVec 1) (op : BitVec 6) (t a : BitVec 5) (o s : BitVec 3) (b : BitVec 5) (w : BitVec 1) :
    fld (wordMO l op t a o s b w) 28 3 = 4#3 :=
  (fld_append_high (l ++ 4#3 ++ op ++ t ++ a ++ o ++ s ++ b) w 28 3 (by decide)).trans ((fld_append_high (l ++ 4#3 ++ op ++ t ++ a ++ o ++ s) b 27 3 (by decide)).trans ((fld_append_high (l ++ 4#3 ++ op ++ t ++ a ++ o) s 22 3 (by decide)).trans ((fld_append_high (l ++ 4#3 ++ op ++ t ++ a) o 19 3 (by decide)).trans ((fld_append_high (l ++ 4#3 ++ op ++ t) a 16 3 (by decide)).trans ((fld_append_high (l ++ 4#3 ++ op) t 11 3 (by decide)).trans ((fld_append_high (l ++ 4#3) op 6 3 (by decide)).trans ((fld_last (l) 4#3))))))))
theorem fld_wordMO_op (l : BitVec 1) (op : BitVec 6) (t a : BitVec 5) (o s : BitVec 3) (b : BitVec 5) (w : BitVec 1) :
    fld (wordMO l op t a o s b w) 22 6 = op :=
  (fld_append_high (l ++ 4#3 ++ op ++ t ++ a ++ o ++ s ++ b) w 22 6 (by decide)).trans ((fld_append_high (l ++ 4#3 ++ op ++ t ++ a ++ o ++ s) b 21 6 (by decide)).trans ((fld_append_high (l ++ 4#3 ++ op ++ t ++ a ++ o) s 16 6 (by decide)).trans ((fld_append_high (l ++ 4#3 ++ op ++ t ++ a) o 13 6 (by decide)).trans ((fld_append_high (l ++ 4#3 ++ op ++ t) a 10 6 (by decide)).trans ((fld_append_high (l ++ 4#3 ++ op) t 5 6 (by decide)).trans ((fld_last (l ++ 4#3) op)))))))
theorem fld_wordMO_t (l : BitVec 1) (op : BitVec 6) (t a : BitVec 5) (o s : BitVec 3) (b : BitVec 5) (w : BitVec 1) :
    fld (wordMO l op t a o s b w) 17 5 = t :=
  (fld_append_high (l ++ 4#3 ++ op ++ t ++ a ++ o ++ s ++ b) w 17 5 (by decide)).trans ((fld_append_high (l ++ 4#3 ++ op ++ t ++ a ++ o ++ s) b 16 5 (by decide)).trans ((fld_append_high (l ++ 4#3 ++ op ++ t ++ a ++ o) s 11 5 (by decide)).trans ((fld_append_high (l ++ 4#3 ++ op ++ t ++ a) o 8 5 (by decide)).trans ((fld_append_high (l ++ 4#3 ++ op ++ t) a 5 5 (by decide)).trans ((fld_last (l ++ 4#3 ++ op) t))))))
theorem fld_wordMO_a (l : BitVec 1) (op : BitVec 6) (t a : BitVec 5) (o s : BitVec 3) (b : BitVec 5) (w : BitVec 1) :
    fld (wordMO l op t a o s b w) 12 5 = a :=
  (fld_append_high (l ++ 4#3 ++ op ++ t ++ a ++ o ++ s ++ b) w 12 5 (by decide)).trans ((fld_append_high (l ++ 4#3 ++ op ++ t ++ a ++ o ++ s) b 11 5 (by decide)).trans ((fld_append_high (l ++ 4#3 ++ op ++ t ++ a ++ o) s 6 5 (by decide)).trans ((fld_append_high (l ++ 4#3 ++ op ++ t ++ a) o 3 5 (by decide)).trans ((fld_last (l ++ 4#3 ++ op ++ t) a)))))
theorem fld_wordMO_o (l : BitVec 1) (op : BitVec 6) (t a : BitVec 5) (o s : BitVec 3) (b : BitVec 5) (w : BitVec 1) :
    fld (wordMO l op t a o s b w) 9 3 = o :=
  (fld_append_high (l ++ 4#3 ++ op ++ t ++ a ++ o ++ s ++ b) w 9 3 (by decide)).trans ((fld_append_high (l ++ 4#3 ++ op ++ t ++ a ++ o ++ s) b 8 3 (by decide)).trans ((fld_append_high (l ++ 4#3 ++ op ++ t ++ a ++ o) s 3 3 (by decide)).trans ((fld_last (l ++ 4#3 ++ op ++ t ++ a) o))))
theorem fld_wordMO_s (l : BitVec 1) (op : BitVec 6) (t a : BitVec 5) (o s : BitVec 3) (b : BitVec 5) (w : BitVec 1) :
    fld (wordMO l op t a o s b w) 6 3 = s :=
  (fld_append_high (l ++ 4#3 ++ op ++ t ++ a ++ o ++ s ++ b) w 6 3 (by decide)).trans ((fld_append_high (l ++ 4#3 ++ op ++ t ++ a ++ o ++ s) b 5 3 (by decide)).trans ((fld_last (l ++ 4#3 ++ op ++ t ++ a ++ o) s)))
theorem fld_wordMO_b (l : BitVec 1) (op : BitVec 6) (t a : BitVec 5) (o s : BitVec 3) (b : BitVec 5) (w : BitVec 1) :
    fld (wordMO l op t a o s b w) 1 5 = b :=
  (fld_append_high (l ++ 4#3 ++ op ++ t ++ a ++ o ++ s ++ b) w 1 5 (by decide)).trans ((fld_last (l ++ 4#3 ++ op ++ t ++ a ++ o ++ s) b))
theorem fld_wordMO_w (l : BitVec 1) (op : BitVec 6) (t a : BitVec 5) (o s : BitVec 3) (b : BitVec 5) (w : BitVec 1) :
    fld (wordMO l op t a o s b w) 0 1 = w :=
  (fld_last (l ++ 4#3 ++ op ++ t ++ a ++ o ++ s ++ b) w)

/-! ### wordMV -/

theorem fld_wordMV_cls (l : BitVec 1) (op : BitVec 6) (v : BitVec 6) (b x : BitVec 5) (e : BitVec 6) :
    fld (wordMV l op v b x e) 28 3 = 4#3 :=
  (fld_append_high (l ++ 4#3 ++ op ++ v ++ b ++ x) e 28 3 (by decide)).trans ((fld_append_high (l ++ 4#3 ++ op ++ v ++ b) x 22 3 (by decide)).trans ((fld_append_high (l ++ 4#3 ++ op ++ v) b 17 3 (by decide)).trans ((fld_append_high (l ++ 4#3 ++ op) v 12 3 (by decide)).trans ((fld_append_high (l ++ 4#3) op 6 3 (by decide)).trans ((fld_last (l) 4#3))))))
theorem fld_wordMV_op (l : BitVec 1) (op : BitVec 6) (v : BitVec 6) (b x : BitVec 5) (e : BitVec 6) :
    fld (wordMV l op v b x e) 22 6 = op :=
  (fld_append_high (l ++ 4#3 ++ op ++ v ++ b ++ x) e 22 6 (by decide)).trans ((fld_append_high (l ++ 4#3 ++ op ++ v ++ b) x 16 6 (by decide)).trans ((fld_append_high (l ++ 4#3 ++ op ++ v) b 11 6 (by decide)).trans ((fld_append_high (l ++ 4#3 ++ op) v 6 6 (by decide)).trans ((fld_last (l ++ 4#3) op)))))
theorem fld_wordMV_v (l : BitVec 1) (op : BitVec 6) (v : BitVec 6) (b x : BitVec 5) (e : BitVec 6) :
    fld (wordMV l op v b x e) 16 6 = v :=
  (fld_append_high (l ++ 4#3 ++ op ++ v ++ b ++ x) e 16 6 (by decide)).trans ((fld_append_high (l ++ 4#3 ++ op ++ v ++ b) x 10 6 (by decide)).trans ((fld_append_high (l ++ 4#3 ++ op ++ v) b 5 6 (by decide)).trans ((fld_last (l ++ 4#3 ++ op) v))))
theorem fld_wordMV_b (l : BitVec 1) (op : BitVec 6) (v : BitVec 6) (b x : BitVec 5) (e : BitVec 6) :
    fld (wordMV l op v b x e) 11 5 = b :=
  (fld_append_high (l ++ 4#3 ++ op ++ v ++ b ++ x) e 11 5 (by decide)).trans ((fld_append_high (l ++ 4#3 ++ op ++ v ++ b) x 5 5 (by decide)).trans ((fld_last (l ++ 4#3 ++ op ++ v) b)))
theorem fld_wordMV_x (l : BitVec 1) (op : BitVec 6) (v : BitVec 6) (b x : BitVec 5) (e : BitVec 6) :
    fld (wordMV l op v b x e) 6 5 = x :=
  (fld_append_high (l ++ 4#3 ++ op ++ v ++ b ++ x) e 6 5 (by decide)).trans ((fld_last (l ++ 4#3 ++ op ++ v ++ b) x))
theorem fld_wordMV_e (l : BitVec 1) (op : BitVec 6) (v : BitVec 6) (b x : BitVec 5) (e : BitVec 6) :
    fld (wordMV l op v b x e) 0 6 = e :=
  (fld_last (l ++ 4#3 ++ op ++ v ++ b ++ x) e)

/-! ### wordB -/

theorem fld_wordB_cls (l : BitVec 1) (op : BitVec 5) (a b : BitVec 5) (disp : BitVec 13) :
    fld (wordB l op a b disp) 28 3 = 5#3 :=
  (fld_append_high (l ++ 5#3 ++ op ++ a ++ b) disp 28 3 (by decide)).trans ((fld_append_high (l ++ 5#3 ++ op ++ a) b 15 3 (by decide)).trans ((fld_append_high (l ++ 5#3 ++ op) a 10 3 (by decide)).trans ((fld_append_high (l ++ 5#3) op 5 3 (by decide)).trans ((fld_last (l) 5#3)))))
theorem fld_wordB_op (l : BitVec 1) (op : BitVec 5) (a b : BitVec 5) (disp : BitVec 13) :
    fld (wordB l op a b disp) 23 5 = op :=
  (fld_append_high (l ++ 5#3 ++ op ++ a ++ b) disp 23 5 (by decide)).trans ((fld_append_high (l ++ 5#3 ++ op ++ a) b 10 5 (by decide)).trans ((fld_append_high (l ++ 5#3 ++ op) a 5 5 (by decide)).trans ((fld_last (l ++ 5#3) op))))
theorem fld_wordB_a (l : BitVec 1) (op : BitVec 5) (a b : BitVec 5) (disp : BitVec 13) :
    fld (wordB l op a b disp) 18 5 = a :=
  (fld_append_high (l ++ 5#3 ++ op ++ a ++ b) disp 18 5 (by decide)).trans ((fld_append_high (l ++ 5#3 ++ op ++ a) b 5 5 (by decide)).trans ((fld_last (l ++ 5#3 ++ op) a)))
theorem fld_wordB_b (l : BitVec 1) (op : BitVec 5) (a b : BitVec 5) (disp : BitVec 13) :
    fld (wordB l op a b disp) 13 5 = b :=
  (fld_append_high (l ++ 5#3 ++ op ++ a ++ b) disp 13 5 (by decide)).trans ((fld_last (l ++ 5#3 ++ op ++ a) b))
theorem fld_wordB_disp (l : BitVec 1) (op : BitVec 5) (a b : BitVec 5) (disp : BitVec 13) :
    fld (wordB l op a b disp) 0 13 = disp :=
  (fld_last (l ++ 5#3 ++ op ++ a ++ b) disp)

/-! ### wordJ -/

theorem fld_wordJ_cls (l : BitVec 1) (op : BitVec 5) (x : BitVec 23) :
    fld (wordJ l op x) 28 3 = 5#3 :=
  (fld_append_high (l ++ 5#3 ++ op) x 28 3 (by decide)).trans ((fld_append_high (l ++ 5#3) op 5 3 (by decide)).trans ((fld_last (l) 5#3)))
theorem fld_wordJ_op (l : BitVec 1) (op : BitVec 5) (x : BitVec 23) :
    fld (wordJ l op x) 23 5 = op :=
  (fld_append_high (l ++ 5#3 ++ op) x 23 5 (by decide)).trans ((fld_last (l ++ 5#3) op))
theorem fld_wordJ_x (l : BitVec 1) (op : BitVec 5) (x : BitVec 23) :
    fld (wordJ l op x) 0 23 = x :=
  (fld_last (l ++ 5#3 ++ op) x)

theorem fld_wordR_top (l : BitVec 1) (cls : BitVec 3) (op : BitVec 6) (d a b : BitVec 5) (lo : BitVec 7) : fld (wordR l cls op d a b lo) 26 2 = fld op 4 2 :=
  (fld_append_high (l ++ cls ++ op ++ d ++ a ++ b) lo 26 2 (by decide)).trans ((fld_append_high (l ++ cls ++ op ++ d ++ a) b 19 2 (by decide)).trans ((fld_append_high (l ++ cls ++ op ++ d) a 14 2 (by decide)).trans ((fld_append_high (l ++ cls ++ op) d 9 2 (by decide)).trans ((fld_append_low (l ++ cls) op 4 2 (by decide))))))

/-! ### The layouts -/

theorem decode_intR (l : BitVec 1) (op : BitVec 6) (d a b : BitVec 5) (lo : BitVec 7) :
    decode (wordR l 0 op d a b lo) = decodeIntR op.toNat d a b lo := by
  simp only [decode, fldN, fld_wordR_cls, fld_wordR_op, fld_wordR_d, fld_wordR_a, fld_wordR_b, fld_wordR_lo, fld_wordR_top]
  rfl

theorem decode_fp (l : BitVec 1) (op : BitVec 6) (d a b : BitVec 5) (lo : BitVec 7) (h : fld op 4 2 ≠ 3) :
    decode (wordR l 2 op d a b lo) = decodeFp op.toNat d a b lo := by
  simp only [decode, fldN, fld_wordR_cls, fld_wordR_op, fld_wordR_d, fld_wordR_a, fld_wordR_b, fld_wordR_lo, fld_wordR_top]
  have h' : ((fld op 4 2).toNat == 3) = false := by
    simp only [beq_eq_false_iff_ne, ne_eq]
    intro e
    exact h (BitVec.eq_of_toNat_eq e)
  rw [h']
  rfl

theorem decode_eng (l : BitVec 1) (op : BitVec 6) (d a b : BitVec 5) (lo : BitVec 7) :
    decode (wordR l 6 op d a b lo) = decodeEng op.toNat d a b lo := by
  simp only [decode, fldN, fld_wordR_cls, fld_wordR_op, fld_wordR_d, fld_wordR_a, fld_wordR_b, fld_wordR_lo, fld_wordR_top]
  rfl

theorem decode_sysE (l : BitVec 1) (op : BitVec 6) (d a b : BitVec 5) (lo : BitVec 7) (h : 12 ≤ op.toNat) :
    decode (wordR l 7 op d a b lo) = decodeSysE op.toNat d a b lo := by
  simp only [decode, fldN, fld_wordR_cls, fld_wordR_op, fld_wordR_d, fld_wordR_a, fld_wordR_b, fld_wordR_lo, fld_wordR_top]
  show (if op.toNat < 12 then _ else _) = _
  rw [if_neg (by omega)]

theorem decode_intI (l : BitVec 1) (op : BitVec 6) (d a : BitVec 5) (imm : BitVec 12) (h : op.toNat < 13) :
    decode (wordI l 1 op d a imm) = decodeIntI op.toNat d a imm := by
  simp only [decode, fldN, fld_wordI_cls, fld_wordI_op, fld_wordI_d, fld_wordI_a, fld_wordI_imm]
  show (if (op.toNat == 13 || op.toNat == 14) = true then _ else _) = _
  rw [if_neg (by simp; omega)]

theorem decode_memM (l : BitVec 1) (op : BitVec 6) (d a : BitVec 5) (imm : BitVec 12) (h : op.toNat < 16) :
    decode (wordI l 4 op d a imm) = decodeMemM op.toNat d a imm := by
  simp only [decode, fldN, fld_wordI_cls, fld_wordI_op, fld_wordI_d, fld_wordI_a, fld_wordI_imm]
  show (if op.toNat < 16 then _ else _) = _
  rw [if_pos h]

theorem decode_sysS (l : BitVec 1) (op : BitVec 6) (d a : BitVec 5) (imm : BitVec 12) (h : op.toNat < 12) :
    decode (wordI l 7 op d a imm) = decodeSysS op.toNat d a imm := by
  simp only [decode, fldN, fld_wordI_cls, fld_wordI_op, fld_wordI_d, fld_wordI_a, fld_wordI_imm]
  show (if op.toNat < 12 then _ else _) = _
  rw [if_pos h]

theorem decode_intU (l : BitVec 1) (op : BitVec 6) (d : BitVec 5) (imm : BitVec 17) (h : op.toNat = 13 ∨ op.toNat = 14) :
    decode (wordU l 1 op d imm) = decodeIntU op.toNat d imm := by
  simp only [decode, fldN, fld_wordU_cls, fld_wordU_op, fld_wordU_d, fld_wordU_imm]
  show (if (op.toNat == 13 || op.toNat == 14) = true then _ else _) = _
  rw [if_pos (by simpa using h)]

theorem decode_fq (l : BitVec 1) (sel : BitVec 2) (d a b c : BitVec 5) (rm : BitVec 3) (w : BitVec 1) :
    decode (wordQ l sel d a b c rm w) = decodeFq sel.toNat d a b c rm w := by
  simp only [decode, fldN, fld_wordQ_cls, fld_wordQ_top, fld_wordQ_sel, fld_wordQ_d, fld_wordQ_a, fld_wordQ_b, fld_wordQ_c, fld_wordQ_rm, fld_wordQ_w]
  rfl

theorem decode_vec (l : BitVec 1) (op : BitVec 6) (d a b : BitVec 6) (rm : BitVec 3) (w : BitVec 1) :
    decode (wordV l op d a b rm w) = decodeVec op.toNat d a b rm w := by
  simp only [decode, fldN, fld_wordV_cls, fld_wordV_op, fld_wordV_d, fld_wordV_a, fld_wordV_b, fld_wordV_rm, fld_wordV_w]
  rfl

theorem decode_memO (l : BitVec 1) (op : BitVec 6) (t a : BitVec 5) (o s : BitVec 3) (b : BitVec 5) (w : BitVec 1) (h : 16 ≤ op.toNat ∧ op.toNat < 32) :
    decode (wordMO l op t a o s b w) = decodeMemO op.toNat t a o s b w := by
  simp only [decode, fldN, fld_wordMO_cls, fld_wordMO_op, fld_wordMO_t, fld_wordMO_a, fld_wordMO_o, fld_wordMO_s, fld_wordMO_b, fld_wordMO_w]
  show (if op.toNat < 16 then _ else if op.toNat < 32 then _ else _) = _
  rw [if_neg (by omega), if_pos h.2]

theorem decode_memV (l : BitVec 1) (op : BitVec 6) (v : BitVec 6) (b x : BitVec 5) (e : BitVec 6) (h : 32 ≤ op.toNat) :
    decode (wordMV l op v b x e) = decodeMemV op.toNat v b x e := by
  simp only [decode, fldN, fld_wordMV_cls, fld_wordMV_op, fld_wordMV_v, fld_wordMV_b, fld_wordMV_x, fld_wordMV_e]
  show (if op.toNat < 16 then _ else if op.toNat < 32 then _ else _) = _
  rw [if_neg (by omega), if_neg (by omega)]

theorem decode_ctlB (l : BitVec 1) (op : BitVec 5) (a b : BitVec 5) (disp : BitVec 13) (h : op.toNat < 6 ∨ op.toNat = 9) :
    decode (wordB l op a b disp) = decodeCtlB op.toNat a b disp := by
  simp only [decode, fldN, fld_wordB_cls, fld_wordB_op, fld_wordB_a, fld_wordB_b, fld_wordB_disp]
  show (if (decide (op.toNat < 6) || op.toNat == 9) = true then _ else _) = _
  rw [if_pos (by simpa using h)]

theorem decode_ctlJ (l : BitVec 1) (op : BitVec 5) (x : BitVec 23) (h : 6 ≤ op.toNat ∧ op.toNat ≠ 9) :
    decode (wordJ l op x) = decodeCtlJ op.toNat x := by
  simp only [decode, fldN, fld_wordJ_cls, fld_wordJ_op, fld_wordJ_x]
  show (if (decide (op.toNat < 6) || op.toNat == 9) = true then _ else _) = _
  rw [if_neg (by simp; omega)]

/-! ### Codes -/

@[simp] theorem RM.ofCode_code (x : RM) : RM.ofCode x.code = .ok x := by cases x <;> rfl
@[simp] theorem Width.ofCode_code (x : Width) : Width.ofCode x.code = x := by cases x <;> rfl
@[simp] theorem Ord.ofCode_code (x : Ord) : Ord.ofCode x.code = .ok x := by cases x <;> rfl
@[simp] theorem Scope.ofCode_code (x : Scope) : Scope.ofCode x.code = .ok x := by cases x <;> rfl
@[simp] theorem ESz.ofCode_code (x : ESz) : ESz.ofCode x.code = x := by cases x <;> rfl
@[simp] theorem Fmt.ofCode_code (x : Fmt) : Fmt.ofCode x.code = x := by cases x <;> rfl
@[simp] theorem TFn.ofCode_code (x : TFn) : TFn.ofCode x.code = .ok x := by cases x <;> rfl
@[simp] theorem LoopNo.ofCode_code (x : LoopNo) : LoopNo.ofCode x.code = x := by cases x <;> rfl
@[simp] theorem Hint.ofCode_code (x : Hint) : Hint.ofCode x.code = .ok x := by cases x <;> rfl
@[simp] theorem BarMode.ofCode_code (x : BarMode) : BarMode.ofCode x.code = x := by cases x <;> rfl
@[simp] theorem Tier.ofCode_code (x : Tier) : Tier.ofCode x.code = .ok x := by cases x <;> rfl
@[simp] theorem SReg.ofCode_code (x : SReg) : SReg.ofCode x.code = x := by
  cases x with
  | g r =>
    have h1 : fld (0#1 ++ r) 5 1 = 0#1 := (fld_append_high 0#1 r 5 1 (by decide)).trans (fld_self _)
    have h2 : fld (0#1 ++ r) 0 5 = r := fld_last 0#1 r
    show (if (fld (0#1 ++ r) 5 1 == 0) = true then SReg.g (fld (0#1 ++ r) 0 5) else .f (fld (0#1 ++ r) 0 5)) = .g r
    rw [h1, h2]; rfl
  | f r =>
    have h1 : fld (1#1 ++ r) 5 1 = 1#1 := (fld_append_high 1#1 r 5 1 (by decide)).trans (fld_self _)
    have h2 : fld (1#1 ++ r) 0 5 = r := fld_last 1#1 r
    show (if (fld (1#1 ++ r) 5 1 == 0) = true then SReg.g (fld (1#1 ++ r) 0 5) else .f (fld (1#1 ++ r) 0 5)) = .f r
    rw [h1, h2]; rfl

/-- A check that holds lets the rest of the decoding go on. -/
theorem chk_true (k : Unit → Except DecodeError Instr) : (chk true >>= k) = k () := rfl

theorem guardWf_of {i : Instr} (h : i.wf = true) : guardWf i = .ok i := by simp [guardWf, h]

end Sys2Proof
end

