-- ==== Sys2Proof/Laws/State.lean ====
section
/-! SUPPORT. What the updates of the state leave alone and what reading after them gives: one lemma for each field of each
update, so that no proof unfolds a record update. -/

namespace Sys2Proof.Machine

/-! ### Updates of the device -/

@[simp] theorem State.setCore_clusters (s : State) (c : Nat) (k : Core) : (s.setCore c k).clusters = s.clusters := rfl
@[simp] theorem State.setCore_ctxs (s : State) (c : Nat) (k : Core) : (s.setCore c k).ctxs = s.ctxs := rfl
@[simp] theorem State.setCore_launches (s : State) (c : Nat) (k : Core) : (s.setCore c k).launches = s.launches := rfl
@[simp] theorem State.setCore_walks (s : State) (c : Nat) (k : Core) : (s.setCore c k).walks = s.walks := rfl
@[simp] theorem State.setCore_fns (s : State) (c : Nat) (k : Core) : (s.setCore c k).fns = s.fns := rfl
@[simp] theorem State.setCore_mem (s : State) (c : Nat) (k : Core) : (s.setCore c k).mem = s.mem := rfl
@[simp] theorem State.setCore_poison (s : State) (c : Nat) (k : Core) : (s.setCore c k).poison = s.poison := rfl
@[simp] theorem State.setCore_dev (s : State) (c : Nat) (k : Core) : (s.setCore c k).dev = s.dev := rfl
@[simp] theorem State.setCore_hub (s : State) (c : Nat) (k : Core) : (s.setCore c k).hub = s.hub := rfl
@[simp] theorem State.setCore_cur (s : State) (c : Nat) (k : Core) : (s.setCore c k).cur = s.cur := rfl
@[simp] theorem State.setCore_iss (s : State) (c : Nat) (k : Core) : (s.setCore c k).iss = s.iss := rfl
@[simp] theorem State.setCore_ev (s : State) (c : Nat) (k : Core) : (s.setCore c k).ev = s.ev := rfl
@[simp] theorem State.setCore_turns (s : State) (c : Nat) (k : Core) : (s.setCore c k).turns = s.turns := rfl
@[simp] theorem State.setCore_free (s : State) (c : Nat) (k : Core) : (s.setCore c k).free = s.free := rfl
@[simp] theorem State.setCore_now (s : State) (c : Nat) (k : Core) : (s.setCore c k).now = s.now := rfl
@[simp] theorem State.setCore_dies (s : State) (c : Nat) (k : Core) : (s.setCore c k).dies = s.dies := rfl
@[simp] theorem State.setCore_stored (s : State) (c : Nat) (k : Core) : (s.setCore c k).stored = s.stored := rfl
@[simp] theorem State.setCore_lineMacs (s : State) (c : Nat) (k : Core) : (s.setCore c k).lineMacs = s.lineMacs := rfl
@[simp] theorem State.setThread_clusters (s : State) (c sl : Nat) (t : Thread) : (s.setThread c sl t).clusters = s.clusters := rfl
@[simp] theorem State.setThread_ctxs (s : State) (c sl : Nat) (t : Thread) : (s.setThread c sl t).ctxs = s.ctxs := rfl
@[simp] theorem State.setThread_launches (s : State) (c sl : Nat) (t : Thread) : (s.setThread c sl t).launches = s.launches := rfl
@[simp] theorem State.setThread_walks (s : State) (c sl : Nat) (t : Thread) : (s.setThread c sl t).walks = s.walks := rfl
@[simp] theorem State.setThread_fns (s : State) (c sl : Nat) (t : Thread) : (s.setThread c sl t).fns = s.fns := rfl
@[simp] theorem State.setThread_mem (s : State) (c sl : Nat) (t : Thread) : (s.setThread c sl t).mem = s.mem := rfl
@[simp] theorem State.setThread_poison (s : State) (c sl : Nat) (t : Thread) : (s.setThread c sl t).poison = s.poison := rfl
@[simp] theorem State.setThread_dev (s : State) (c sl : Nat) (t : Thread) : (s.setThread c sl t).dev = s.dev := rfl
@[simp] theorem State.setThread_hub (s : State) (c sl : Nat) (t : Thread) : (s.setThread c sl t).hub = s.hub := rfl
@[simp] theorem State.setThread_cur (s : State) (c sl : Nat) (t : Thread) : (s.setThread c sl t).cur = s.cur := rfl
@[simp] theorem State.setThread_iss (s : State) (c sl : Nat) (t : Thread) : (s.setThread c sl t).iss = s.iss := rfl
@[simp] theorem State.setThread_ev (s : State) (c sl : Nat) (t : Thread) : (s.setThread c sl t).ev = s.ev := rfl
@[simp] theorem State.setThread_turns (s : State) (c sl : Nat) (t : Thread) : (s.setThread c sl t).turns = s.turns := rfl
@[simp] theorem State.setThread_free (s : State) (c sl : Nat) (t : Thread) : (s.setThread c sl t).free = s.free := rfl
@[simp] theorem State.setThread_now (s : State) (c sl : Nat) (t : Thread) : (s.setThread c sl t).now = s.now := rfl
@[simp] theorem State.setThread_dies (s : State) (c sl : Nat) (t : Thread) : (s.setThread c sl t).dies = s.dies := rfl
@[simp] theorem State.setThread_stored (s : State) (c sl : Nat) (t : Thread) : (s.setThread c sl t).stored = s.stored := rfl
@[simp] theorem State.setThread_lineMacs (s : State) (c sl : Nat) (t : Thread) : (s.setThread c sl t).lineMacs = s.lineMacs := rfl
@[simp] theorem State.setTh_clusters (s : State) (t : Thread) : (s.setTh t).clusters = s.clusters := rfl
@[simp] theorem State.setTh_ctxs (s : State) (t : Thread) : (s.setTh t).ctxs = s.ctxs := rfl
@[simp] theorem State.setTh_launches (s : State) (t : Thread) : (s.setTh t).launches = s.launches := rfl
@[simp] theorem State.setTh_walks (s : State) (t : Thread) : (s.setTh t).walks = s.walks := rfl
@[simp] theorem State.setTh_fns (s : State) (t : Thread) : (s.setTh t).fns = s.fns := rfl
@[simp] theorem State.setTh_mem (s : State) (t : Thread) : (s.setTh t).mem = s.mem := rfl
@[simp] theorem State.setTh_poison (s : State) (t : Thread) : (s.setTh t).poison = s.poison := rfl
@[simp] theorem State.setTh_dev (s : State) (t : Thread) : (s.setTh t).dev = s.dev := rfl
@[simp] theorem State.setTh_hub (s : State) (t : Thread) : (s.setTh t).hub = s.hub := rfl
@[simp] theorem State.setTh_cur (s : State) (t : Thread) : (s.setTh t).cur = s.cur := rfl
@[simp] theorem State.setTh_iss (s : State) (t : Thread) : (s.setTh t).iss = s.iss := rfl
@[simp] theorem State.setTh_ev (s : State) (t : Thread) : (s.setTh t).ev = s.ev := rfl
@[simp] theorem State.setTh_turns (s : State) (t : Thread) : (s.setTh t).turns = s.turns := rfl
@[simp] theorem State.setTh_free (s : State) (t : Thread) : (s.setTh t).free = s.free := rfl
@[simp] theorem State.setTh_now (s : State) (t : Thread) : (s.setTh t).now = s.now := rfl
@[simp] theorem State.setTh_dies (s : State) (t : Thread) : (s.setTh t).dies = s.dies := rfl
@[simp] theorem State.setTh_stored (s : State) (t : Thread) : (s.setTh t).stored = s.stored := rfl
@[simp] theorem State.setTh_lineMacs (s : State) (t : Thread) : (s.setTh t).lineMacs = s.lineMacs := rfl
@[simp] theorem State.setCpu_clusters (s : State) (k : Core) : (s.setCpu k).clusters = s.clusters := rfl
@[simp] theorem State.setCpu_ctxs (s : State) (k : Core) : (s.setCpu k).ctxs = s.ctxs := rfl
@[simp] theorem State.setCpu_launches (s : State) (k : Core) : (s.setCpu k).launches = s.launches := rfl
@[simp] theorem State.setCpu_walks (s : State) (k : Core) : (s.setCpu k).walks = s.walks := rfl
@[simp] theorem State.setCpu_fns (s : State) (k : Core) : (s.setCpu k).fns = s.fns := rfl
@[simp] theorem State.setCpu_mem (s : State) (k : Core) : (s.setCpu k).mem = s.mem := rfl
@[simp] theorem State.setCpu_poison (s : State) (k : Core) : (s.setCpu k).poison = s.poison := rfl
@[simp] theorem State.setCpu_dev (s : State) (k : Core) : (s.setCpu k).dev = s.dev := rfl
@[simp] theorem State.setCpu_hub (s : State) (k : Core) : (s.setCpu k).hub = s.hub := rfl
@[simp] theorem State.setCpu_cur (s : State) (k : Core) : (s.setCpu k).cur = s.cur := rfl
@[simp] theorem State.setCpu_iss (s : State) (k : Core) : (s.setCpu k).iss = s.iss := rfl
@[simp] theorem State.setCpu_ev (s : State) (k : Core) : (s.setCpu k).ev = s.ev := rfl
@[simp] theorem State.setCpu_turns (s : State) (k : Core) : (s.setCpu k).turns = s.turns := rfl
@[simp] theorem State.setCpu_free (s : State) (k : Core) : (s.setCpu k).free = s.free := rfl
@[simp] theorem State.setCpu_now (s : State) (k : Core) : (s.setCpu k).now = s.now := rfl
@[simp] theorem State.setCpu_dies (s : State) (k : Core) : (s.setCpu k).dies = s.dies := rfl
@[simp] theorem State.setCpu_stored (s : State) (k : Core) : (s.setCpu k).stored = s.stored := rfl
@[simp] theorem State.setCpu_lineMacs (s : State) (k : Core) : (s.setCpu k).lineMacs = s.lineMacs := rfl
@[simp] theorem State.setCluster_cores (s : State) (i : Nat) (k : Cluster) : (s.setCluster i k).cores = s.cores := rfl
@[simp] theorem State.setCluster_ctxs (s : State) (i : Nat) (k : Cluster) : (s.setCluster i k).ctxs = s.ctxs := rfl
@[simp] theorem State.setCluster_launches (s : State) (i : Nat) (k : Cluster) : (s.setCluster i k).launches = s.launches := rfl
@[simp] theorem State.setCluster_walks (s : State) (i : Nat) (k : Cluster) : (s.setCluster i k).walks = s.walks := rfl
@[simp] theorem State.setCluster_fns (s : State) (i : Nat) (k : Cluster) : (s.setCluster i k).fns = s.fns := rfl
@[simp] theorem State.setCluster_mem (s : State) (i : Nat) (k : Cluster) : (s.setCluster i k).mem = s.mem := rfl
@[simp] theorem State.setCluster_poison (s : State) (i : Nat) (k : Cluster) : (s.setCluster i k).poison = s.poison := rfl
@[simp] theorem State.setCluster_dev (s : State) (i : Nat) (k : Cluster) : (s.setCluster i k).dev = s.dev := rfl
@[simp] theorem State.setCluster_hub (s : State) (i : Nat) (k : Cluster) : (s.setCluster i k).hub = s.hub := rfl
@[simp] theorem State.setCluster_cur (s : State) (i : Nat) (k : Cluster) : (s.setCluster i k).cur = s.cur := rfl
@[simp] theorem State.setCluster_iss (s : State) (i : Nat) (k : Cluster) : (s.setCluster i k).iss = s.iss := rfl
@[simp] theorem State.setCluster_ev (s : State) (i : Nat) (k : Cluster) : (s.setCluster i k).ev = s.ev := rfl
@[simp] theorem State.setCluster_turns (s : State) (i : Nat) (k : Cluster) : (s.setCluster i k).turns = s.turns := rfl
@[simp] theorem State.setCluster_free (s : State) (i : Nat) (k : Cluster) : (s.setCluster i k).free = s.free := rfl
@[simp] theorem State.setCluster_now (s : State) (i : Nat) (k : Cluster) : (s.setCluster i k).now = s.now := rfl
@[simp] theorem State.setCluster_dies (s : State) (i : Nat) (k : Cluster) : (s.setCluster i k).dies = s.dies := rfl
@[simp] theorem State.setCluster_stored (s : State) (i : Nat) (k : Cluster) : (s.setCluster i k).stored = s.stored := rfl
@[simp] theorem State.setCluster_lineMacs (s : State) (i : Nat) (k : Cluster) : (s.setCluster i k).lineMacs = s.lineMacs := rfl
@[simp] theorem State.setCtx_cores (s : State) (o : Nat) (k : Ctx) : (s.setCtx o k).cores = s.cores := rfl
@[simp] theorem State.setCtx_clusters (s : State) (o : Nat) (k : Ctx) : (s.setCtx o k).clusters = s.clusters := rfl
@[simp] theorem State.setCtx_launches (s : State) (o : Nat) (k : Ctx) : (s.setCtx o k).launches = s.launches := rfl
@[simp] theorem State.setCtx_walks (s : State) (o : Nat) (k : Ctx) : (s.setCtx o k).walks = s.walks := rfl
@[simp] theorem State.setCtx_fns (s : State) (o : Nat) (k : Ctx) : (s.setCtx o k).fns = s.fns := rfl
@[simp] theorem State.setCtx_mem (s : State) (o : Nat) (k : Ctx) : (s.setCtx o k).mem = s.mem := rfl
@[simp] theorem State.setCtx_poison (s : State) (o : Nat) (k : Ctx) : (s.setCtx o k).poison = s.poison := rfl
@[simp] theorem State.setCtx_dev (s : State) (o : Nat) (k : Ctx) : (s.setCtx o k).dev = s.dev := rfl
@[simp] theorem State.setCtx_hub (s : State) (o : Nat) (k : Ctx) : (s.setCtx o k).hub = s.hub := rfl
@[simp] theorem State.setCtx_cur (s : State) (o : Nat) (k : Ctx) : (s.setCtx o k).cur = s.cur := rfl
@[simp] theorem State.setCtx_iss (s : State) (o : Nat) (k : Ctx) : (s.setCtx o k).iss = s.iss := rfl
@[simp] theorem State.setCtx_ev (s : State) (o : Nat) (k : Ctx) : (s.setCtx o k).ev = s.ev := rfl
@[simp] theorem State.setCtx_turns (s : State) (o : Nat) (k : Ctx) : (s.setCtx o k).turns = s.turns := rfl
@[simp] theorem State.setCtx_free (s : State) (o : Nat) (k : Ctx) : (s.setCtx o k).free = s.free := rfl
@[simp] theorem State.setCtx_now (s : State) (o : Nat) (k : Ctx) : (s.setCtx o k).now = s.now := rfl
@[simp] theorem State.setCtx_dies (s : State) (o : Nat) (k : Ctx) : (s.setCtx o k).dies = s.dies := rfl
@[simp] theorem State.setCtx_stored (s : State) (o : Nat) (k : Ctx) : (s.setCtx o k).stored = s.stored := rfl
@[simp] theorem State.setCtx_lineMacs (s : State) (o : Nat) (k : Ctx) : (s.setCtx o k).lineMacs = s.lineMacs := rfl
@[simp] theorem State.setFn_cores (s : State) (i : Nat) (k : Func) : (s.setFn i k).cores = s.cores := rfl
@[simp] theorem State.setFn_clusters (s : State) (i : Nat) (k : Func) : (s.setFn i k).clusters = s.clusters := rfl
@[simp] theorem State.setFn_ctxs (s : State) (i : Nat) (k : Func) : (s.setFn i k).ctxs = s.ctxs := rfl
@[simp] theorem State.setFn_launches (s : State) (i : Nat) (k : Func) : (s.setFn i k).launches = s.launches := rfl
@[simp] theorem State.setFn_walks (s : State) (i : Nat) (k : Func) : (s.setFn i k).walks = s.walks := rfl
@[simp] theorem State.setFn_mem (s : State) (i : Nat) (k : Func) : (s.setFn i k).mem = s.mem := rfl
@[simp] theorem State.setFn_poison (s : State) (i : Nat) (k : Func) : (s.setFn i k).poison = s.poison := rfl
@[simp] theorem State.setFn_dev (s : State) (i : Nat) (k : Func) : (s.setFn i k).dev = s.dev := rfl
@[simp] theorem State.setFn_hub (s : State) (i : Nat) (k : Func) : (s.setFn i k).hub = s.hub := rfl
@[simp] theorem State.setFn_cur (s : State) (i : Nat) (k : Func) : (s.setFn i k).cur = s.cur := rfl
@[simp] theorem State.setFn_iss (s : State) (i : Nat) (k : Func) : (s.setFn i k).iss = s.iss := rfl
@[simp] theorem State.setFn_ev (s : State) (i : Nat) (k : Func) : (s.setFn i k).ev = s.ev := rfl
@[simp] theorem State.setFn_turns (s : State) (i : Nat) (k : Func) : (s.setFn i k).turns = s.turns := rfl
@[simp] theorem State.setFn_free (s : State) (i : Nat) (k : Func) : (s.setFn i k).free = s.free := rfl
@[simp] theorem State.setFn_now (s : State) (i : Nat) (k : Func) : (s.setFn i k).now = s.now := rfl
@[simp] theorem State.setFn_dies (s : State) (i : Nat) (k : Func) : (s.setFn i k).dies = s.dies := rfl
@[simp] theorem State.setFn_stored (s : State) (i : Nat) (k : Func) : (s.setFn i k).stored = s.stored := rfl
@[simp] theorem State.setFn_lineMacs (s : State) (i : Nat) (k : Func) : (s.setFn i k).lineMacs = s.lineMacs := rfl
@[simp] theorem State.setLaunch_cores (s : State) (n : Nat) (l : Launch) : (s.setLaunch n l).cores = s.cores := rfl
@[simp] theorem State.setLaunch_clusters (s : State) (n : Nat) (l : Launch) : (s.setLaunch n l).clusters = s.clusters := rfl
@[simp] theorem State.setLaunch_ctxs (s : State) (n : Nat) (l : Launch) : (s.setLaunch n l).ctxs = s.ctxs := rfl
@[simp] theorem State.setLaunch_walks (s : State) (n : Nat) (l : Launch) : (s.setLaunch n l).walks = s.walks := rfl
@[simp] theorem State.setLaunch_fns (s : State) (n : Nat) (l : Launch) : (s.setLaunch n l).fns = s.fns := rfl
@[simp] theorem State.setLaunch_mem (s : State) (n : Nat) (l : Launch) : (s.setLaunch n l).mem = s.mem := rfl
@[simp] theorem State.setLaunch_poison (s : State) (n : Nat) (l : Launch) : (s.setLaunch n l).poison = s.poison := rfl
@[simp] theorem State.setLaunch_dev (s : State) (n : Nat) (l : Launch) : (s.setLaunch n l).dev = s.dev := rfl
@[simp] theorem State.setLaunch_hub (s : State) (n : Nat) (l : Launch) : (s.setLaunch n l).hub = s.hub := rfl
@[simp] theorem State.setLaunch_cur (s : State) (n : Nat) (l : Launch) : (s.setLaunch n l).cur = s.cur := rfl
@[simp] theorem State.setLaunch_iss (s : State) (n : Nat) (l : Launch) : (s.setLaunch n l).iss = s.iss := rfl
@[simp] theorem State.setLaunch_ev (s : State) (n : Nat) (l : Launch) : (s.setLaunch n l).ev = s.ev := rfl
@[simp] theorem State.setLaunch_turns (s : State) (n : Nat) (l : Launch) : (s.setLaunch n l).turns = s.turns := rfl
@[simp] theorem State.setLaunch_free (s : State) (n : Nat) (l : Launch) : (s.setLaunch n l).free = s.free := rfl
@[simp] theorem State.setLaunch_now (s : State) (n : Nat) (l : Launch) : (s.setLaunch n l).now = s.now := rfl
@[simp] theorem State.setLaunch_dies (s : State) (n : Nat) (l : Launch) : (s.setLaunch n l).dies = s.dies := rfl
@[simp] theorem State.setLaunch_stored (s : State) (n : Nat) (l : Launch) : (s.setLaunch n l).stored = s.stored := rfl
@[simp] theorem State.setLaunch_lineMacs (s : State) (n : Nat) (l : Launch) : (s.setLaunch n l).lineMacs = s.lineMacs := rfl
@[simp] theorem State.setDisp_cores (s : State) (d : Disp) : (s.setDisp d).cores = s.cores := rfl
@[simp] theorem State.setDisp_clusters (s : State) (d : Disp) : (s.setDisp d).clusters = s.clusters := rfl
@[simp] theorem State.setDisp_ctxs (s : State) (d : Disp) : (s.setDisp d).ctxs = s.ctxs := rfl
@[simp] theorem State.setDisp_launches (s : State) (d : Disp) : (s.setDisp d).launches = s.launches := rfl
@[simp] theorem State.setDisp_walks (s : State) (d : Disp) : (s.setDisp d).walks = s.walks := rfl
@[simp] theorem State.setDisp_fns (s : State) (d : Disp) : (s.setDisp d).fns = s.fns := rfl
@[simp] theorem State.setDisp_mem (s : State) (d : Disp) : (s.setDisp d).mem = s.mem := rfl
@[simp] theorem State.setDisp_poison (s : State) (d : Disp) : (s.setDisp d).poison = s.poison := rfl
@[simp] theorem State.setDisp_dev (s : State) (d : Disp) : (s.setDisp d).dev = s.dev := rfl
@[simp] theorem State.setDisp_hub (s : State) (d : Disp) : (s.setDisp d).hub = s.hub := rfl
@[simp] theorem State.setDisp_cur (s : State) (d : Disp) : (s.setDisp d).cur = s.cur := rfl
@[simp] theorem State.setDisp_ev (s : State) (d : Disp) : (s.setDisp d).ev = s.ev := rfl
@[simp] theorem State.setDisp_turns (s : State) (d : Disp) : (s.setDisp d).turns = s.turns := rfl
@[simp] theorem State.setDisp_free (s : State) (d : Disp) : (s.setDisp d).free = s.free := rfl
@[simp] theorem State.setDisp_now (s : State) (d : Disp) : (s.setDisp d).now = s.now := rfl
@[simp] theorem State.setDisp_dies (s : State) (d : Disp) : (s.setDisp d).dies = s.dies := rfl
@[simp] theorem State.setDisp_stored (s : State) (d : Disp) : (s.setDisp d).stored = s.stored := rfl
@[simp] theorem State.setDisp_lineMacs (s : State) (d : Disp) : (s.setDisp d).lineMacs = s.lineMacs := rfl

/-! ### Updates of a core -/

@[simp] theorem Core.setThread_owner (k : Core) (sl : Nat) (t : Thread) : (k.setThread sl t).owner = k.owner := rfl
@[simp] theorem Core.setThread_tiles (k : Core) (sl : Nat) (t : Thread) : (k.setThread sl t).tiles = k.tiles := rfl
@[simp] theorem Core.setThread_accs (k : Core) (sl : Nat) (t : Thread) : (k.setThread sl t).accs = k.accs := rfl
@[simp] theorem Core.setThread_qs (k : Core) (sl : Nat) (t : Thread) : (k.setThread sl t).qs = k.qs := rfl
@[simp] theorem Core.setThread_cnts (k : Core) (sl : Nat) (t : Thread) : (k.setThread sl t).cnts = k.cnts := rfl
@[simp] theorem Core.setThread_inbox (k : Core) (sl : Nat) (t : Thread) : (k.setThread sl t).inbox = k.inbox := rfl
@[simp] theorem Core.setThread_resv (k : Core) (sl : Nat) (t : Thread) : (k.setThread sl t).resv = k.resv := rfl
@[simp] theorem Core.setThread_spad (k : Core) (sl : Nat) (t : Thread) : (k.setThread sl t).spad = k.spad := rfl
@[simp] theorem Core.setThread_spadPoison (k : Core) (sl : Nat) (t : Thread) : (k.setThread sl t).spadPoison = k.spadPoison := rfl
@[simp] theorem Core.setThread_icache (k : Core) (sl : Nat) (t : Thread) : (k.setThread sl t).icache = k.icache := rfl
@[simp] theorem Core.setThread_l1 (k : Core) (sl : Nat) (t : Thread) : (k.setThread sl t).l1 = k.l1 := rfl
@[simp] theorem Core.setThread_tlb (k : Core) (sl : Nat) (t : Thread) : (k.setThread sl t).tlb = k.tlb := rfl
@[simp] theorem Core.setThread_plb (k : Core) (sl : Nat) (t : Thread) : (k.setThread sl t).plb = k.plb := rfl
@[simp] theorem Core.setThread_born (k : Core) (sl : Nat) (t : Thread) : (k.setThread sl t).born = k.born := rfl
@[simp] theorem Core.setThread_mx (k : Core) (sl : Nat) (t : Thread) : (k.setThread sl t).mx = k.mx := rfl
@[simp] theorem Core.setThread_vx (k : Core) (sl : Nat) (t : Thread) : (k.setThread sl t).vx = k.vx := rfl
@[simp] theorem Core.setThread_cps (k : Core) (sl : Nat) (t : Thread) : (k.setThread sl t).cps = k.cps := rfl
@[simp] theorem Core.setThread_hist (k : Core) (sl : Nat) (t : Thread) : (k.setThread sl t).hist = k.hist := rfl
@[simp] theorem Core.setThread_copies (k : Core) (sl : Nat) (t : Thread) : (k.setThread sl t).copies = k.copies := rfl
@[simp] theorem Core.setThread_leader (k : Core) (sl : Nat) (t : Thread) : (k.setThread sl t).leader = k.leader := rfl
@[simp] theorem Core.setThread_leadCount (k : Core) (sl : Nat) (t : Thread) : (k.setThread sl t).leadCount = k.leadCount := rfl
@[simp] theorem Core.setThread_deficit (k : Core) (sl : Nat) (t : Thread) : (k.setThread sl t).deficit = k.deficit := rfl
@[simp] theorem Core.setThread_last (k : Core) (sl : Nat) (t : Thread) : (k.setThread sl t).last = k.last := rfl
@[simp] theorem Core.setThread_rate (k : Core) (sl : Nat) (t : Thread) : (k.setThread sl t).rate = k.rate := rfl
@[simp] theorem Core.setThread_textSwitch (k : Core) (sl : Nat) (t : Thread) : (k.setThread sl t).textSwitch = k.textSwitch := rfl
@[simp] theorem Core.setThread_unfenced (k : Core) (sl : Nat) (t : Thread) : (k.setThread sl t).unfenced = k.unfenced := rfl
@[simp] theorem Core.setThread_endedOr (k : Core) (sl : Nat) (t : Thread) : (k.setThread sl t).endedOr = k.endedOr := rfl
@[simp] theorem Core.setThread_endedSum (k : Core) (sl : Nat) (t : Thread) : (k.setThread sl t).endedSum = k.endedSum := rfl
@[simp] theorem Core.setThread_ops (k : Core) (sl : Nat) (t : Thread) : (k.setThread sl t).ops = k.ops := rfl
@[simp] theorem Core.setThread_lastLead (k : Core) (sl : Nat) (t : Thread) : (k.setThread sl t).lastLead = k.lastLead := rfl
@[simp] theorem Core.setThread_passes (k : Core) (sl : Nat) (t : Thread) : (k.setThread sl t).passes = k.passes := rfl
@[simp] theorem Core.setThread_group (k : Core) (sl : Nat) (t : Thread) : (k.setThread sl t).group = k.group := rfl
@[simp] theorem Core.setThread_switchBegun (k : Core) (sl : Nat) (t : Thread) : (k.setThread sl t).switchBegun = k.switchBegun := rfl
@[simp] theorem Core.setTile_owner (k : Core) (i : Tile) (t : TileReg) : (k.setTile i t).owner = k.owner := rfl
@[simp] theorem Core.setTile_threads (k : Core) (i : Tile) (t : TileReg) : (k.setTile i t).threads = k.threads := rfl
@[simp] theorem Core.setTile_accs (k : Core) (i : Tile) (t : TileReg) : (k.setTile i t).accs = k.accs := rfl
@[simp] theorem Core.setTile_qs (k : Core) (i : Tile) (t : TileReg) : (k.setTile i t).qs = k.qs := rfl
@[simp] theorem Core.setTile_cnts (k : Core) (i : Tile) (t : TileReg) : (k.setTile i t).cnts = k.cnts := rfl
@[simp] theorem Core.setTile_inbox (k : Core) (i : Tile) (t : TileReg) : (k.setTile i t).inbox = k.inbox := rfl
@[simp] theorem Core.setTile_resv (k : Core) (i : Tile) (t : TileReg) : (k.setTile i t).resv = k.resv := rfl
@[simp] theorem Core.setTile_spad (k : Core) (i : Tile) (t : TileReg) : (k.setTile i t).spad = k.spad := rfl
@[simp] theorem Core.setTile_spadPoison (k : Core) (i : Tile) (t : TileReg) : (k.setTile i t).spadPoison = k.spadPoison := rfl
@[simp] theorem Core.setTile_icache (k : Core) (i : Tile) (t : TileReg) : (k.setTile i t).icache = k.icache := rfl
@[simp] theorem Core.setTile_l1 (k : Core) (i : Tile) (t : TileReg) : (k.setTile i t).l1 = k.l1 := rfl
@[simp] theorem Core.setTile_tlb (k : Core) (i : Tile) (t : TileReg) : (k.setTile i t).tlb = k.tlb := rfl
@[simp] theorem Core.setTile_plb (k : Core) (i : Tile) (t : TileReg) : (k.setTile i t).plb = k.plb := rfl
@[simp] theorem Core.setTile_born (k : Core) (i : Tile) (t : TileReg) : (k.setTile i t).born = k.born := rfl
@[simp] theorem Core.setTile_mx (k : Core) (i : Tile) (t : TileReg) : (k.setTile i t).mx = k.mx := rfl
@[simp] theorem Core.setTile_vx (k : Core) (i : Tile) (t : TileReg) : (k.setTile i t).vx = k.vx := rfl
@[simp] theorem Core.setTile_cps (k : Core) (i : Tile) (t : TileReg) : (k.setTile i t).cps = k.cps := rfl
@[simp] theorem Core.setTile_hist (k : Core) (i : Tile) (t : TileReg) : (k.setTile i t).hist = k.hist := rfl
@[simp] theorem Core.setTile_copies (k : Core) (i : Tile) (t : TileReg) : (k.setTile i t).copies = k.copies := rfl
@[simp] theorem Core.setTile_leader (k : Core) (i : Tile) (t : TileReg) : (k.setTile i t).leader = k.leader := rfl
@[simp] theorem Core.setTile_leadCount (k : Core) (i : Tile) (t : TileReg) : (k.setTile i t).leadCount = k.leadCount := rfl
@[simp] theorem Core.setTile_deficit (k : Core) (i : Tile) (t : TileReg) : (k.setTile i t).deficit = k.deficit := rfl
@[simp] theorem Core.setTile_last (k : Core) (i : Tile) (t : TileReg) : (k.setTile i t).last = k.last := rfl
@[simp] theorem Core.setTile_rate (k : Core) (i : Tile) (t : TileReg) : (k.setTile i t).rate = k.rate := rfl
@[simp] theorem Core.setTile_textSwitch (k : Core) (i : Tile) (t : TileReg) : (k.setTile i t).textSwitch = k.textSwitch := rfl
@[simp] theorem Core.setTile_unfenced (k : Core) (i : Tile) (t : TileReg) : (k.setTile i t).unfenced = k.unfenced := rfl
@[simp] theorem Core.setTile_endedOr (k : Core) (i : Tile) (t : TileReg) : (k.setTile i t).endedOr = k.endedOr := rfl
@[simp] theorem Core.setTile_endedSum (k : Core) (i : Tile) (t : TileReg) : (k.setTile i t).endedSum = k.endedSum := rfl
@[simp] theorem Core.setTile_ops (k : Core) (i : Tile) (t : TileReg) : (k.setTile i t).ops = k.ops := rfl
@[simp] theorem Core.setTile_lastLead (k : Core) (i : Tile) (t : TileReg) : (k.setTile i t).lastLead = k.lastLead := rfl
@[simp] theorem Core.setTile_passes (k : Core) (i : Tile) (t : TileReg) : (k.setTile i t).passes = k.passes := rfl
@[simp] theorem Core.setTile_group (k : Core) (i : Tile) (t : TileReg) : (k.setTile i t).group = k.group := rfl
@[simp] theorem Core.setTile_switchBegun (k : Core) (i : Tile) (t : TileReg) : (k.setTile i t).switchBegun = k.switchBegun := rfl
@[simp] theorem Core.setAcc_owner (k : Core) (i : Acc) (a : AccReg) : (k.setAcc i a).owner = k.owner := rfl
@[simp] theorem Core.setAcc_threads (k : Core) (i : Acc) (a : AccReg) : (k.setAcc i a).threads = k.threads := rfl
@[simp] theorem Core.setAcc_tiles (k : Core) (i : Acc) (a : AccReg) : (k.setAcc i a).tiles = k.tiles := rfl
@[simp] theorem Core.setAcc_qs (k : Core) (i : Acc) (a : AccReg) : (k.setAcc i a).qs = k.qs := rfl
@[simp] theorem Core.setAcc_cnts (k : Core) (i : Acc) (a : AccReg) : (k.setAcc i a).cnts = k.cnts := rfl
@[simp] theorem Core.setAcc_inbox (k : Core) (i : Acc) (a : AccReg) : (k.setAcc i a).inbox = k.inbox := rfl
@[simp] theorem Core.setAcc_resv (k : Core) (i : Acc) (a : AccReg) : (k.setAcc i a).resv = k.resv := rfl
@[simp] theorem Core.setAcc_spad (k : Core) (i : Acc) (a : AccReg) : (k.setAcc i a).spad = k.spad := rfl
@[simp] theorem Core.setAcc_spadPoison (k : Core) (i : Acc) (a : AccReg) : (k.setAcc i a).spadPoison = k.spadPoison := rfl
@[simp] theorem Core.setAcc_icache (k : Core) (i : Acc) (a : AccReg) : (k.setAcc i a).icache = k.icache := rfl
@[simp] theorem Core.setAcc_l1 (k : Core) (i : Acc) (a : AccReg) : (k.setAcc i a).l1 = k.l1 := rfl
@[simp] theorem Core.setAcc_tlb (k : Core) (i : Acc) (a : AccReg) : (k.setAcc i a).tlb = k.tlb := rfl
@[simp] theorem Core.setAcc_plb (k : Core) (i : Acc) (a : AccReg) : (k.setAcc i a).plb = k.plb := rfl
@[simp] theorem Core.setAcc_born (k : Core) (i : Acc) (a : AccReg) : (k.setAcc i a).born = k.born := rfl
@[simp] theorem Core.setAcc_mx (k : Core) (i : Acc) (a : AccReg) : (k.setAcc i a).mx = k.mx := rfl
@[simp] theorem Core.setAcc_vx (k : Core) (i : Acc) (a : AccReg) : (k.setAcc i a).vx = k.vx := rfl
@[simp] theorem Core.setAcc_cps (k : Core) (i : Acc) (a : AccReg) : (k.setAcc i a).cps = k.cps := rfl
@[simp] theorem Core.setAcc_hist (k : Core) (i : Acc) (a : AccReg) : (k.setAcc i a).hist = k.hist := rfl
@[simp] theorem Core.setAcc_copies (k : Core) (i : Acc) (a : AccReg) : (k.setAcc i a).copies = k.copies := rfl
@[simp] theorem Core.setAcc_leader (k : Core) (i : Acc) (a : AccReg) : (k.setAcc i a).leader = k.leader := rfl
@[simp] theorem Core.setAcc_leadCount (k : Core) (i : Acc) (a : AccReg) : (k.setAcc i a).leadCount = k.leadCount := rfl
@[simp] theorem Core.setAcc_deficit (k : Core) (i : Acc) (a : AccReg) : (k.setAcc i a).deficit = k.deficit := rfl
@[simp] theorem Core.setAcc_last (k : Core) (i : Acc) (a : AccReg) : (k.setAcc i a).last = k.last := rfl
@[simp] theorem Core.setAcc_rate (k : Core) (i : Acc) (a : AccReg) : (k.setAcc i a).rate = k.rate := rfl
@[simp] theorem Core.setAcc_textSwitch (k : Core) (i : Acc) (a : AccReg) : (k.setAcc i a).textSwitch = k.textSwitch := rfl
@[simp] theorem Core.setAcc_unfenced (k : Core) (i : Acc) (a : AccReg) : (k.setAcc i a).unfenced = k.unfenced := rfl
@[simp] theorem Core.setAcc_endedOr (k : Core) (i : Acc) (a : AccReg) : (k.setAcc i a).endedOr = k.endedOr := rfl
@[simp] theorem Core.setAcc_endedSum (k : Core) (i : Acc) (a : AccReg) : (k.setAcc i a).endedSum = k.endedSum := rfl
@[simp] theorem Core.setAcc_ops (k : Core) (i : Acc) (a : AccReg) : (k.setAcc i a).ops = k.ops := rfl
@[simp] theorem Core.setAcc_lastLead (k : Core) (i : Acc) (a : AccReg) : (k.setAcc i a).lastLead = k.lastLead := rfl
@[simp] theorem Core.setAcc_passes (k : Core) (i : Acc) (a : AccReg) : (k.setAcc i a).passes = k.passes := rfl
@[simp] theorem Core.setAcc_group (k : Core) (i : Acc) (a : AccReg) : (k.setAcc i a).group = k.group := rfl
@[simp] theorem Core.setAcc_switchBegun (k : Core) (i : Acc) (a : AccReg) : (k.setAcc i a).switchBegun = k.switchBegun := rfl
@[simp] theorem Core.setOrth_owner (k : Core) (i : QReg) (q : OrthReg) : (k.setOrth i q).owner = k.owner := rfl
@[simp] theorem Core.setOrth_threads (k : Core) (i : QReg) (q : OrthReg) : (k.setOrth i q).threads = k.threads := rfl
@[simp] theorem Core.setOrth_tiles (k : Core) (i : QReg) (q : OrthReg) : (k.setOrth i q).tiles = k.tiles := rfl
@[simp] theorem Core.setOrth_accs (k : Core) (i : QReg) (q : OrthReg) : (k.setOrth i q).accs = k.accs := rfl
@[simp] theorem Core.setOrth_cnts (k : Core) (i : QReg) (q : OrthReg) : (k.setOrth i q).cnts = k.cnts := rfl
@[simp] theorem Core.setOrth_inbox (k : Core) (i : QReg) (q : OrthReg) : (k.setOrth i q).inbox = k.inbox := rfl
@[simp] theorem Core.setOrth_resv (k : Core) (i : QReg) (q : OrthReg) : (k.setOrth i q).resv = k.resv := rfl
@[simp] theorem Core.setOrth_spad (k : Core) (i : QReg) (q : OrthReg) : (k.setOrth i q).spad = k.spad := rfl
@[simp] theorem Core.setOrth_spadPoison (k : Core) (i : QReg) (q : OrthReg) : (k.setOrth i q).spadPoison = k.spadPoison := rfl
@[simp] theorem Core.setOrth_icache (k : Core) (i : QReg) (q : OrthReg) : (k.setOrth i q).icache = k.icache := rfl
@[simp] theorem Core.setOrth_l1 (k : Core) (i : QReg) (q : OrthReg) : (k.setOrth i q).l1 = k.l1 := rfl
@[simp] theorem Core.setOrth_tlb (k : Core) (i : QReg) (q : OrthReg) : (k.setOrth i q).tlb = k.tlb := rfl
@[simp] theorem Core.setOrth_plb (k : Core) (i : QReg) (q : OrthReg) : (k.setOrth i q).plb = k.plb := rfl
@[simp] theorem Core.setOrth_born (k : Core) (i : QReg) (q : OrthReg) : (k.setOrth i q).born = k.born := rfl
@[simp] theorem Core.setOrth_mx (k : Core) (i : QReg) (q : OrthReg) : (k.setOrth i q).mx = k.mx := rfl
@[simp] theorem Core.setOrth_vx (k : Core) (i : QReg) (q : OrthReg) : (k.setOrth i q).vx = k.vx := rfl
@[simp] theorem Core.setOrth_cps (k : Core) (i : QReg) (q : OrthReg) : (k.setOrth i q).cps = k.cps := rfl
@[simp] theorem Core.setOrth_hist (k : Core) (i : QReg) (q : OrthReg) : (k.setOrth i q).hist = k.hist := rfl
@[simp] theorem Core.setOrth_copies (k : Core) (i : QReg) (q : OrthReg) : (k.setOrth i q).copies = k.copies := rfl
@[simp] theorem Core.setOrth_leader (k : Core) (i : QReg) (q : OrthReg) : (k.setOrth i q).leader = k.leader := rfl
@[simp] theorem Core.setOrth_leadCount (k : Core) (i : QReg) (q : OrthReg) : (k.setOrth i q).leadCount = k.leadCount := rfl
@[simp] theorem Core.setOrth_deficit (k : Core) (i : QReg) (q : OrthReg) : (k.setOrth i q).deficit = k.deficit := rfl
@[simp] theorem Core.setOrth_last (k : Core) (i : QReg) (q : OrthReg) : (k.setOrth i q).last = k.last := rfl
@[simp] theorem Core.setOrth_rate (k : Core) (i : QReg) (q : OrthReg) : (k.setOrth i q).rate = k.rate := rfl
@[simp] theorem Core.setOrth_textSwitch (k : Core) (i : QReg) (q : OrthReg) : (k.setOrth i q).textSwitch = k.textSwitch := rfl
@[simp] theorem Core.setOrth_unfenced (k : Core) (i : QReg) (q : OrthReg) : (k.setOrth i q).unfenced = k.unfenced := rfl
@[simp] theorem Core.setOrth_endedOr (k : Core) (i : QReg) (q : OrthReg) : (k.setOrth i q).endedOr = k.endedOr := rfl
@[simp] theorem Core.setOrth_endedSum (k : Core) (i : QReg) (q : OrthReg) : (k.setOrth i q).endedSum = k.endedSum := rfl
@[simp] theorem Core.setOrth_ops (k : Core) (i : QReg) (q : OrthReg) : (k.setOrth i q).ops = k.ops := rfl
@[simp] theorem Core.setOrth_lastLead (k : Core) (i : QReg) (q : OrthReg) : (k.setOrth i q).lastLead = k.lastLead := rfl
@[simp] theorem Core.setOrth_passes (k : Core) (i : QReg) (q : OrthReg) : (k.setOrth i q).passes = k.passes := rfl
@[simp] theorem Core.setOrth_group (k : Core) (i : QReg) (q : OrthReg) : (k.setOrth i q).group = k.group := rfl
@[simp] theorem Core.setOrth_switchBegun (k : Core) (i : QReg) (q : OrthReg) : (k.setOrth i q).switchBegun = k.switchBegun := rfl
@[simp] theorem Core.setCnt_owner (k : Core) (n : Nat) (v : Word) : (k.setCnt n v).owner = k.owner := rfl
@[simp] theorem Core.setCnt_tiles (k : Core) (n : Nat) (v : Word) : (k.setCnt n v).tiles = k.tiles := rfl
@[simp] theorem Core.setCnt_accs (k : Core) (n : Nat) (v : Word) : (k.setCnt n v).accs = k.accs := rfl
@[simp] theorem Core.setCnt_qs (k : Core) (n : Nat) (v : Word) : (k.setCnt n v).qs = k.qs := rfl
@[simp] theorem Core.setCnt_inbox (k : Core) (n : Nat) (v : Word) : (k.setCnt n v).inbox = k.inbox := rfl
@[simp] theorem Core.setCnt_resv (k : Core) (n : Nat) (v : Word) : (k.setCnt n v).resv = k.resv := rfl
@[simp] theorem Core.setCnt_spad (k : Core) (n : Nat) (v : Word) : (k.setCnt n v).spad = k.spad := rfl
@[simp] theorem Core.setCnt_spadPoison (k : Core) (n : Nat) (v : Word) : (k.setCnt n v).spadPoison = k.spadPoison := rfl
@[simp] theorem Core.setCnt_icache (k : Core) (n : Nat) (v : Word) : (k.setCnt n v).icache = k.icache := rfl
@[simp] theorem Core.setCnt_l1 (k : Core) (n : Nat) (v : Word) : (k.setCnt n v).l1 = k.l1 := rfl
@[simp] theorem Core.setCnt_tlb (k : Core) (n : Nat) (v : Word) : (k.setCnt n v).tlb = k.tlb := rfl
@[simp] theorem Core.setCnt_plb (k : Core) (n : Nat) (v : Word) : (k.setCnt n v).plb = k.plb := rfl
@[simp] theorem Core.setCnt_born (k : Core) (n : Nat) (v : Word) : (k.setCnt n v).born = k.born := rfl
@[simp] theorem Core.setCnt_mx (k : Core) (n : Nat) (v : Word) : (k.setCnt n v).mx = k.mx := rfl
@[simp] theorem Core.setCnt_vx (k : Core) (n : Nat) (v : Word) : (k.setCnt n v).vx = k.vx := rfl
@[simp] theorem Core.setCnt_cps (k : Core) (n : Nat) (v : Word) : (k.setCnt n v).cps = k.cps := rfl
@[simp] theorem Core.setCnt_hist (k : Core) (n : Nat) (v : Word) : (k.setCnt n v).hist = k.hist := rfl
@[simp] theorem Core.setCnt_copies (k : Core) (n : Nat) (v : Word) : (k.setCnt n v).copies = k.copies := rfl
@[simp] theorem Core.setCnt_leader (k : Core) (n : Nat) (v : Word) : (k.setCnt n v).leader = k.leader := rfl
@[simp] theorem Core.setCnt_leadCount (k : Core) (n : Nat) (v : Word) : (k.setCnt n v).leadCount = k.leadCount := rfl
@[simp] theorem Core.setCnt_deficit (k : Core) (n : Nat) (v : Word) : (k.setCnt n v).deficit = k.deficit := rfl
@[simp] theorem Core.setCnt_last (k : Core) (n : Nat) (v : Word) : (k.setCnt n v).last = k.last := rfl
@[simp] theorem Core.setCnt_rate (k : Core) (n : Nat) (v : Word) : (k.setCnt n v).rate = k.rate := rfl
@[simp] theorem Core.setCnt_textSwitch (k : Core) (n : Nat) (v : Word) : (k.setCnt n v).textSwitch = k.textSwitch := rfl
@[simp] theorem Core.setCnt_unfenced (k : Core) (n : Nat) (v : Word) : (k.setCnt n v).unfenced = k.unfenced := rfl
@[simp] theorem Core.setCnt_endedOr (k : Core) (n : Nat) (v : Word) : (k.setCnt n v).endedOr = k.endedOr := rfl
@[simp] theorem Core.setCnt_endedSum (k : Core) (n : Nat) (v : Word) : (k.setCnt n v).endedSum = k.endedSum := rfl
@[simp] theorem Core.setCnt_ops (k : Core) (n : Nat) (v : Word) : (k.setCnt n v).ops = k.ops := rfl
@[simp] theorem Core.setCnt_lastLead (k : Core) (n : Nat) (v : Word) : (k.setCnt n v).lastLead = k.lastLead := rfl
@[simp] theorem Core.setCnt_passes (k : Core) (n : Nat) (v : Word) : (k.setCnt n v).passes = k.passes := rfl
@[simp] theorem Core.setCnt_group (k : Core) (n : Nat) (v : Word) : (k.setCnt n v).group = k.group := rfl
@[simp] theorem Core.setCnt_switchBegun (k : Core) (n : Nat) (v : Word) : (k.setCnt n v).switchBegun = k.switchBegun := rfl

/-! ### Updates of a thread -/

@[simp] theorem Thread.setGr_live (t : Thread) (r : Reg) (x : Word) : (t.setGr r x).live = t.live := by simp only [Thread.setGr]; split <;> rfl
@[simp] theorem Thread.setGr_pc (t : Thread) (r : Reg) (x : Word) : (t.setGr r x).pc = t.pc := by simp only [Thread.setGr]; split <;> rfl
@[simp] theorem Thread.setGr_f (t : Thread) (r : Reg) (x : Word) : (t.setGr r x).f = t.f := by simp only [Thread.setGr]; split <;> rfl
@[simp] theorem Thread.setGr_v (t : Thread) (r : Reg) (x : Word) : (t.setGr r x).v = t.v := by simp only [Thread.setGr]; split <;> rfl
@[simp] theorem Thread.setGr_loops (t : Thread) (r : Reg) (x : Word) : (t.setGr r x).loops = t.loops := by simp only [Thread.setGr]; split <;> rfl
@[simp] theorem Thread.setGr_status (t : Thread) (r : Reg) (x : Word) : (t.setGr r x).status = t.status := by simp only [Thread.setGr]; split <;> rfl
@[simp] theorem Thread.setGr_fflags (t : Thread) (r : Reg) (x : Word) : (t.setGr r x).fflags = t.fflags := by simp only [Thread.setGr]; split <;> rfl
@[simp] theorem Thread.setGr_fenable (t : Thread) (r : Reg) (x : Word) : (t.setGr r x).fenable = t.fenable := by simp only [Thread.setGr]; split <;> rfl
@[simp] theorem Thread.setGr_srseed (t : Thread) (r : Reg) (x : Word) : (t.setGr r x).srseed = t.srseed := by simp only [Thread.setGr]; split <;> rfl
@[simp] theorem Thread.setGr_tr (t : Thread) (r : Reg) (x : Word) : (t.setGr r x).tr = t.tr := by simp only [Thread.setGr]; split <;> rfl
@[simp] theorem Thread.setGr_id (t : Thread) (r : Reg) (x : Word) : (t.setGr r x).id = t.id := by simp only [Thread.setGr]; split <;> rfl
@[simp] theorem Thread.setGr_ports (t : Thread) (r : Reg) (x : Word) : (t.setGr r x).ports = t.ports := by simp only [Thread.setGr]; split <;> rfl
@[simp] theorem Thread.setGr_reports (t : Thread) (r : Reg) (x : Word) : (t.setGr r x).reports = t.reports := by simp only [Thread.setGr]; split <;> rfl
@[simp] theorem Thread.setGr_merged (t : Thread) (r : Reg) (x : Word) : (t.setGr r x).merged = t.merged := by simp only [Thread.setGr]; split <;> rfl
@[simp] theorem Thread.setGr_wait (t : Thread) (r : Reg) (x : Word) : (t.setGr r x).wait = t.wait := by simp only [Thread.setGr]; split <;> rfl
@[simp] theorem Thread.setGr_queue (t : Thread) (r : Reg) (x : Word) : (t.setGr r x).queue = t.queue := by simp only [Thread.setGr]; split <;> rfl
@[simp] theorem Thread.setGr_cbarArrived (t : Thread) (r : Reg) (x : Word) : (t.setGr r x).cbarArrived = t.cbarArrived := by simp only [Thread.setGr]; split <;> rfl
@[simp] theorem Thread.setGr_cbarDone (t : Thread) (r : Reg) (x : Word) : (t.setGr r x).cbarDone = t.cbarDone := by simp only [Thread.setGr]; split <;> rfl
@[simp] theorem Thread.setGr_vote (t : Thread) (r : Reg) (x : Word) : (t.setGr r x).vote = t.vote := by simp only [Thread.setGr]; split <;> rfl
@[simp] theorem Thread.setGr_phaseRes (t : Thread) (r : Reg) (x : Word) : (t.setGr r x).phaseRes = t.phaseRes := by simp only [Thread.setGr]; split <;> rfl
@[simp] theorem Thread.setGr_stopped (t : Thread) (r : Reg) (x : Word) : (t.setGr r x).stopped = t.stopped := by simp only [Thread.setGr]; split <;> rfl
@[simp] theorem Thread.setGr_trapDue (t : Thread) (r : Reg) (x : Word) : (t.setGr r x).trapDue = t.trapDue := by simp only [Thread.setGr]; split <;> rfl
@[simp] theorem Thread.setFr_live (t : Thread) (r : Reg) (x : Word) : (t.setFr r x).live = t.live := rfl
@[simp] theorem Thread.setFr_pc (t : Thread) (r : Reg) (x : Word) : (t.setFr r x).pc = t.pc := rfl
@[simp] theorem Thread.setFr_g (t : Thread) (r : Reg) (x : Word) : (t.setFr r x).g = t.g := rfl
@[simp] theorem Thread.setFr_v (t : Thread) (r : Reg) (x : Word) : (t.setFr r x).v = t.v := rfl
@[simp] theorem Thread.setFr_loops (t : Thread) (r : Reg) (x : Word) : (t.setFr r x).loops = t.loops := rfl
@[simp] theorem Thread.setFr_status (t : Thread) (r : Reg) (x : Word) : (t.setFr r x).status = t.status := rfl
@[simp] theorem Thread.setFr_fflags (t : Thread) (r : Reg) (x : Word) : (t.setFr r x).fflags = t.fflags := rfl
@[simp] theorem Thread.setFr_fenable (t : Thread) (r : Reg) (x : Word) : (t.setFr r x).fenable = t.fenable := rfl
@[simp] theorem Thread.setFr_srseed (t : Thread) (r : Reg) (x : Word) : (t.setFr r x).srseed = t.srseed := rfl
@[simp] theorem Thread.setFr_tr (t : Thread) (r : Reg) (x : Word) : (t.setFr r x).tr = t.tr := rfl
@[simp] theorem Thread.setFr_id (t : Thread) (r : Reg) (x : Word) : (t.setFr r x).id = t.id := rfl
@[simp] theorem Thread.setFr_ports (t : Thread) (r : Reg) (x : Word) : (t.setFr r x).ports = t.ports := rfl
@[simp] theorem Thread.setFr_reports (t : Thread) (r : Reg) (x : Word) : (t.setFr r x).reports = t.reports := rfl
@[simp] theorem Thread.setFr_merged (t : Thread) (r : Reg) (x : Word) : (t.setFr r x).merged = t.merged := rfl
@[simp] theorem Thread.setFr_wait (t : Thread) (r : Reg) (x : Word) : (t.setFr r x).wait = t.wait := rfl
@[simp] theorem Thread.setFr_queue (t : Thread) (r : Reg) (x : Word) : (t.setFr r x).queue = t.queue := rfl
@[simp] theorem Thread.setFr_cbarArrived (t : Thread) (r : Reg) (x : Word) : (t.setFr r x).cbarArrived = t.cbarArrived := rfl
@[simp] theorem Thread.setFr_cbarDone (t : Thread) (r : Reg) (x : Word) : (t.setFr r x).cbarDone = t.cbarDone := rfl
@[simp] theorem Thread.setFr_vote (t : Thread) (r : Reg) (x : Word) : (t.setFr r x).vote = t.vote := rfl
@[simp] theorem Thread.setFr_phaseRes (t : Thread) (r : Reg) (x : Word) : (t.setFr r x).phaseRes = t.phaseRes := rfl
@[simp] theorem Thread.setFr_stopped (t : Thread) (r : Reg) (x : Word) : (t.setFr r x).stopped = t.stopped := rfl
@[simp] theorem Thread.setFr_trapDue (t : Thread) (r : Reg) (x : Word) : (t.setFr r x).trapDue = t.trapDue := rfl
@[simp] theorem Thread.setVr_live (t : Thread) (r : VReg) (x : V512) : (t.setVr r x).live = t.live := rfl
@[simp] theorem Thread.setVr_pc (t : Thread) (r : VReg) (x : V512) : (t.setVr r x).pc = t.pc := rfl
@[simp] theorem Thread.setVr_g (t : Thread) (r : VReg) (x : V512) : (t.setVr r x).g = t.g := rfl
@[simp] theorem Thread.setVr_f (t : Thread) (r : VReg) (x : V512) : (t.setVr r x).f = t.f := rfl
@[simp] theorem Thread.setVr_loops (t : Thread) (r : VReg) (x : V512) : (t.setVr r x).loops = t.loops := rfl
@[simp] theorem Thread.setVr_status (t : Thread) (r : VReg) (x : V512) : (t.setVr r x).status = t.status := rfl
@[simp] theorem Thread.setVr_fflags (t : Thread) (r : VReg) (x : V512) : (t.setVr r x).fflags = t.fflags := rfl
@[simp] theorem Thread.setVr_fenable (t : Thread) (r : VReg) (x : V512) : (t.setVr r x).fenable = t.fenable := rfl
@[simp] theorem Thread.setVr_srseed (t : Thread) (r : VReg) (x : V512) : (t.setVr r x).srseed = t.srseed := rfl
@[simp] theorem Thread.setVr_tr (t : Thread) (r : VReg) (x : V512) : (t.setVr r x).tr = t.tr := rfl
@[simp] theorem Thread.setVr_id (t : Thread) (r : VReg) (x : V512) : (t.setVr r x).id = t.id := rfl
@[simp] theorem Thread.setVr_ports (t : Thread) (r : VReg) (x : V512) : (t.setVr r x).ports = t.ports := rfl
@[simp] theorem Thread.setVr_reports (t : Thread) (r : VReg) (x : V512) : (t.setVr r x).reports = t.reports := rfl
@[simp] theorem Thread.setVr_merged (t : Thread) (r : VReg) (x : V512) : (t.setVr r x).merged = t.merged := rfl
@[simp] theorem Thread.setVr_wait (t : Thread) (r : VReg) (x : V512) : (t.setVr r x).wait = t.wait := rfl
@[simp] theorem Thread.setVr_queue (t : Thread) (r : VReg) (x : V512) : (t.setVr r x).queue = t.queue := rfl
@[simp] theorem Thread.setVr_cbarArrived (t : Thread) (r : VReg) (x : V512) : (t.setVr r x).cbarArrived = t.cbarArrived := rfl
@[simp] theorem Thread.setVr_cbarDone (t : Thread) (r : VReg) (x : V512) : (t.setVr r x).cbarDone = t.cbarDone := rfl
@[simp] theorem Thread.setVr_vote (t : Thread) (r : VReg) (x : V512) : (t.setVr r x).vote = t.vote := rfl
@[simp] theorem Thread.setVr_phaseRes (t : Thread) (r : VReg) (x : V512) : (t.setVr r x).phaseRes = t.phaseRes := rfl
@[simp] theorem Thread.setVr_stopped (t : Thread) (r : VReg) (x : V512) : (t.setVr r x).stopped = t.stopped := rfl
@[simp] theorem Thread.setVr_trapDue (t : Thread) (r : VReg) (x : V512) : (t.setVr r x).trapDue = t.trapDue := rfl
@[simp] theorem Thread.setPrefix_live (t : Thread) (p : Bool) (x : BitVec 12) : (t.setPrefix p x).live = t.live := rfl
@[simp] theorem Thread.setPrefix_pc (t : Thread) (p : Bool) (x : BitVec 12) : (t.setPrefix p x).pc = t.pc := rfl
@[simp] theorem Thread.setPrefix_g (t : Thread) (p : Bool) (x : BitVec 12) : (t.setPrefix p x).g = t.g := rfl
@[simp] theorem Thread.setPrefix_f (t : Thread) (p : Bool) (x : BitVec 12) : (t.setPrefix p x).f = t.f := rfl
@[simp] theorem Thread.setPrefix_v (t : Thread) (p : Bool) (x : BitVec 12) : (t.setPrefix p x).v = t.v := rfl
@[simp] theorem Thread.setPrefix_loops (t : Thread) (p : Bool) (x : BitVec 12) : (t.setPrefix p x).loops = t.loops := rfl
@[simp] theorem Thread.setPrefix_fflags (t : Thread) (p : Bool) (x : BitVec 12) : (t.setPrefix p x).fflags = t.fflags := rfl
@[simp] theorem Thread.setPrefix_fenable (t : Thread) (p : Bool) (x : BitVec 12) : (t.setPrefix p x).fenable = t.fenable := rfl
@[simp] theorem Thread.setPrefix_srseed (t : Thread) (p : Bool) (x : BitVec 12) : (t.setPrefix p x).srseed = t.srseed := rfl
@[simp] theorem Thread.setPrefix_tr (t : Thread) (p : Bool) (x : BitVec 12) : (t.setPrefix p x).tr = t.tr := rfl
@[simp] theorem Thread.setPrefix_id (t : Thread) (p : Bool) (x : BitVec 12) : (t.setPrefix p x).id = t.id := rfl
@[simp] theorem Thread.setPrefix_ports (t : Thread) (p : Bool) (x : BitVec 12) : (t.setPrefix p x).ports = t.ports := rfl
@[simp] theorem Thread.setPrefix_reports (t : Thread) (p : Bool) (x : BitVec 12) : (t.setPrefix p x).reports = t.reports := rfl
@[simp] theorem Thread.setPrefix_merged (t : Thread) (p : Bool) (x : BitVec 12) : (t.setPrefix p x).merged = t.merged := rfl
@[simp] theorem Thread.setPrefix_wait (t : Thread) (p : Bool) (x : BitVec 12) : (t.setPrefix p x).wait = t.wait := rfl
@[simp] theorem Thread.setPrefix_queue (t : Thread) (p : Bool) (x : BitVec 12) : (t.setPrefix p x).queue = t.queue := rfl
@[simp] theorem Thread.setPrefix_cbarArrived (t : Thread) (p : Bool) (x : BitVec 12) : (t.setPrefix p x).cbarArrived = t.cbarArrived := rfl
@[simp] theorem Thread.setPrefix_cbarDone (t : Thread) (p : Bool) (x : BitVec 12) : (t.setPrefix p x).cbarDone = t.cbarDone := rfl
@[simp] theorem Thread.setPrefix_vote (t : Thread) (p : Bool) (x : BitVec 12) : (t.setPrefix p x).vote = t.vote := rfl
@[simp] theorem Thread.setPrefix_phaseRes (t : Thread) (p : Bool) (x : BitVec 12) : (t.setPrefix p x).phaseRes = t.phaseRes := rfl
@[simp] theorem Thread.setPrefix_stopped (t : Thread) (p : Bool) (x : BitVec 12) : (t.setPrefix p x).stopped = t.stopped := rfl
@[simp] theorem Thread.setPrefix_trapDue (t : Thread) (p : Bool) (x : BitVec 12) : (t.setPrefix p x).trapDue = t.trapDue := rfl
@[simp] theorem Thread.setLa_live (t : Thread) (n : LoopNo) (b : Bool) : (t.setLa n b).live = t.live := by cases n <;> rfl
@[simp] theorem Thread.setLa_pc (t : Thread) (n : LoopNo) (b : Bool) : (t.setLa n b).pc = t.pc := by cases n <;> rfl
@[simp] theorem Thread.setLa_g (t : Thread) (n : LoopNo) (b : Bool) : (t.setLa n b).g = t.g := by cases n <;> rfl
@[simp] theorem Thread.setLa_f (t : Thread) (n : LoopNo) (b : Bool) : (t.setLa n b).f = t.f := by cases n <;> rfl
@[simp] theorem Thread.setLa_v (t : Thread) (n : LoopNo) (b : Bool) : (t.setLa n b).v = t.v := by cases n <;> rfl
@[simp] theorem Thread.setLa_loops (t : Thread) (n : LoopNo) (b : Bool) : (t.setLa n b).loops = t.loops := by cases n <;> rfl
@[simp] theorem Thread.setLa_fflags (t : Thread) (n : LoopNo) (b : Bool) : (t.setLa n b).fflags = t.fflags := by cases n <;> rfl
@[simp] theorem Thread.setLa_fenable (t : Thread) (n : LoopNo) (b : Bool) : (t.setLa n b).fenable = t.fenable := by cases n <;> rfl
@[simp] theorem Thread.setLa_srseed (t : Thread) (n : LoopNo) (b : Bool) : (t.setLa n b).srseed = t.srseed := by cases n <;> rfl
@[simp] theorem Thread.setLa_tr (t : Thread) (n : LoopNo) (b : Bool) : (t.setLa n b).tr = t.tr := by cases n <;> rfl
@[simp] theorem Thread.setLa_id (t : Thread) (n : LoopNo) (b : Bool) : (t.setLa n b).id = t.id := by cases n <;> rfl
@[simp] theorem Thread.setLa_ports (t : Thread) (n : LoopNo) (b : Bool) : (t.setLa n b).ports = t.ports := by cases n <;> rfl
@[simp] theorem Thread.setLa_reports (t : Thread) (n : LoopNo) (b : Bool) : (t.setLa n b).reports = t.reports := by cases n <;> rfl
@[simp] theorem Thread.setLa_merged (t : Thread) (n : LoopNo) (b : Bool) : (t.setLa n b).merged = t.merged := by cases n <;> rfl
@[simp] theorem Thread.setLa_wait (t : Thread) (n : LoopNo) (b : Bool) : (t.setLa n b).wait = t.wait := by cases n <;> rfl
@[simp] theorem Thread.setLa_queue (t : Thread) (n : LoopNo) (b : Bool) : (t.setLa n b).queue = t.queue := by cases n <;> rfl
@[simp] theorem Thread.setLa_cbarArrived (t : Thread) (n : LoopNo) (b : Bool) : (t.setLa n b).cbarArrived = t.cbarArrived := by cases n <;> rfl
@[simp] theorem Thread.setLa_cbarDone (t : Thread) (n : LoopNo) (b : Bool) : (t.setLa n b).cbarDone = t.cbarDone := by cases n <;> rfl
@[simp] theorem Thread.setLa_vote (t : Thread) (n : LoopNo) (b : Bool) : (t.setLa n b).vote = t.vote := by cases n <;> rfl
@[simp] theorem Thread.setLa_phaseRes (t : Thread) (n : LoopNo) (b : Bool) : (t.setLa n b).phaseRes = t.phaseRes := by cases n <;> rfl
@[simp] theorem Thread.setLa_stopped (t : Thread) (n : LoopNo) (b : Bool) : (t.setLa n b).stopped = t.stopped := by cases n <;> rfl

/-! ### Reading after an update -/

@[simp] theorem State.core_setCore_self (s : State) (c : Nat) (k : Core) : (s.setCore c k).core c = k := Map.getD_put_self ..
theorem State.core_setCore_ne (s : State) {c d : Nat} (k : Core) (h : d ≠ c) : (s.setCore c k).core d = s.core d :=
  Map.getD_put_ne _ _ _ h
@[simp] theorem Core.thread_setThread_self (k : Core) (sl : Nat) (t : Thread) : (k.setThread sl t).thread sl = t := Map.getD_put_self ..
theorem Core.thread_setThread_ne (k : Core) {sl i : Nat} (t : Thread) (h : i ≠ sl) : (k.setThread sl t).thread i = k.thread i :=
  Map.getD_put_ne _ _ _ h
@[simp] theorem State.thread_setThread_self (s : State) (c sl : Nat) (t : Thread) : (s.setThread c sl t).thread c sl = t := by
  simp [State.thread, State.setThread]
theorem State.thread_setThread_ne (s : State) {c sl d i : Nat} (t : Thread) (h : (d, i) ≠ (c, sl)) :
    (s.setThread c sl t).thread d i = s.thread d i := by
  simp only [State.thread, State.setThread]
  by_cases hd : d = c
  · subst hd
    simp only [State.core_setCore_self]
    exact Core.thread_setThread_ne _ _ (fun he => h (by rw [he]))
  · rw [State.core_setCore_ne _ _ hd]
@[simp] theorem State.th_setTh (s : State) (t : Thread) : (s.setTh t).th = t := State.thread_setThread_self ..
theorem State.thread_setTh_ne (s : State) {c sl : Nat} (t : Thread) (h : (c, sl) ≠ s.cur) : (s.setTh t).thread c sl = s.thread c sl :=
  State.thread_setThread_ne s t h
@[simp] theorem State.core_setThread_rest (s : State) (c sl : Nat) (t : Thread) (d : Nat) :
    { (s.setThread c sl t).core d with threads := (s.core d).threads } = s.core d := by
  by_cases hd : d = c
  · subst hd; simp [State.setThread, Core.setThread]
  · simp [State.setThread, State.core_setCore_ne s _ hd]
@[simp] theorem State.th_setDisp (s : State) (d : Disp) : (s.setDisp d).th = s.th := rfl
@[simp] theorem State.g_setDisp (s : State) (d : Disp) (r : Reg) : (s.setDisp d).g r = s.g r := rfl
@[simp] theorem State.core_setDisp (s : State) (d : Disp) (c : Nat) : (s.setDisp d).core c = s.core c := rfl
@[simp] theorem State.ctx_setCtx_self (s : State) (o : Nat) (k : Ctx) : (s.setCtx o k).ctx o = k := Map.getD_put_self ..
theorem State.ctx_setCtx_ne (s : State) {o p : Nat} (k : Ctx) (h : p ≠ o) : (s.setCtx o k).ctx p = s.ctx p :=
  Map.getD_put_ne _ _ _ h
@[simp] theorem State.fnc_setFn_self (s : State) (i : Nat) (k : Func) : (s.setFn i k).fnc i = k := Map.getD_put_self ..
theorem State.fnc_setFn_ne (s : State) {i j : Nat} (k : Func) (h : j ≠ i) : (s.setFn i k).fnc j = s.fnc j :=
  Map.getD_put_ne _ _ _ h
@[simp] theorem State.cluster_setCluster_self (s : State) (i : Nat) (k : Cluster) : (s.setCluster i k).cluster i = k :=
  Map.getD_put_self ..
@[simp] theorem State.launch?_setLaunch_self (s : State) (n : Nat) (l : Launch) : (s.setLaunch n l).launch? n = some l :=
  Map.find?_put_self ..

/-! ### Registers -/

/-- A general register after a write: g0 reads zero. -/
@[simp] theorem Thread.gr_setGr (t : Thread) (d r : Reg) (x : Word) : (t.setGr d x).gr r = if r = d ∧ r ≠ 0 then x else t.gr r := by
  by_cases hr : r = 0
  · subst hr; exact (if_neg (fun h => h.2 rfl)).symm
  · by_cases hd : d = 0
    · rw [Thread.setGr, if_pos hd, if_neg (fun h => hr (h.1.trans hd))]
    · rw [Thread.setGr, if_neg hd, Thread.gr, if_neg hr]
      by_cases h : r = d
      · subst h
        rw [if_pos ⟨rfl, hr⟩]
        exact Vector.getElem_set_self ..
      · have h' : d.toNat ≠ r.toNat := fun he => h (BitVec.eq_of_toNat_eq he.symm)
        rw [if_neg (fun hh => h hh.1), Thread.gr, if_neg hr]
        exact Vector.getElem_set_ne d.isLt r.isLt h'
/-- A floating register after a write. -/
@[simp] theorem Thread.fr_setFr (t : Thread) (d r : Reg) (x : Word) : (t.setFr d x).fr r = if r = d then x else t.fr r := by
  by_cases h : r = d
  · subst h; simp [Thread.fr, Thread.setFr]
  · have h' : d.toNat ≠ r.toNat := fun he => h (BitVec.eq_of_toNat_eq he.symm)
    simp [Thread.fr, Thread.setFr, h, Vector.getElem_set_ne, h']
/-- A vector register after a write. -/
@[simp] theorem Thread.vr_setVr (t : Thread) (d r : VReg) (x : V512) : (t.setVr d x).vr r = if r = d then x else t.vr r := by
  by_cases h : r = d
  · subst h; simp [Thread.vr, Thread.setVr]
  · have h' : d.toNat ≠ r.toNat := fun he => h (BitVec.eq_of_toNat_eq he.symm)
    simp [Thread.vr, Thread.setVr, h, Vector.getElem_set_ne, h']
@[simp] theorem State.g_setG (s : State) (d r : Reg) (x : Word) : (s.setG d x).g r = if r = d ∧ r ≠ 0 then x else s.g r := by
  simp [State.g, State.setG]
@[simp] theorem State.f_setF (s : State) (d r : Reg) (x : Word) : (s.setF d x).f r = if r = d then x else s.f r := by
  simp [State.f, State.setF]
@[simp] theorem State.v_setV (s : State) (d r : VReg) (x : V512) : (s.setV d x).v r = if r = d then x else s.v r := by
  simp [State.v, State.setV]
theorem State.g_zero (s : State) : s.g 0 = 0 := rfl

end Sys2Proof.Machine
end

