-- ==== Sys2Proof/Laws/Frames.lean ====
section
/-! SUPPORT. What the shared operations of a step leave alone, in the terms of Safety.lean: registers written, the choice of the next
PC. -/

namespace Sys2Proof.Machine

/-- A write of the current thread leaves the rest of the device. -/
theorem State.onlyThread_setTh (s : State) (t : Thread) : s.OnlyThread (s.setTh t) :=
  ⟨⟨rfl, fun c => State.core_setThread_rest s s.cur.1 s.cur.2 t c⟩, fun _ _ h => State.thread_setTh_ne s t h⟩

/-- A write of a general register is just that. -/
theorem State.writesG_setG (s : State) (d : Reg) (x : Word) : s.WritesG (s.setG d x) d x := by
  refine ⟨State.onlyThread_setTh _ _, ?_, fun r => State.g_setG s d r x⟩
  simp only [State.setG, State.th_setTh, Thread.setGr]
  split <;> rfl

/-- An instruction that answers a state with one general register written completes as it should. -/
theorem State.givesG_of {s : State} {i : Instr} {d : Reg} {P : Word → Prop} (x : Word) (h : exec i s = .next (s.setG d x)) (hp : P x) :
    s.GivesG i d P := ⟨_, x, h, hp, State.writesG_setG s d x⟩

/-- A datum written twice at a number is the last one. -/
@[simp] theorem Map.put_put {α : Type} (m : Map α) (k : Nat) (v w : α) : Map.put (Map.put m k v) k w = Map.put m k w := by
  induction m with
  | nil => simp [Map.put]
  | cons h t ih =>
    simp only [Map.put]
    split_ifs <;> simp_all [Map.put]
/-- A core written twice is the last one. -/
@[simp] theorem State.setCore_setCore (s : State) (c : Nat) (k k' : Core) : (s.setCore c k).setCore c k' = s.setCore c k' := by
  simp [State.setCore]
/-- A thread written twice is the last one. -/
@[simp] theorem State.setThread_setThread (s : State) (c sl : Nat) (t t' : Thread) :
    (s.setThread c sl t).setThread c sl t' = s.setThread c sl t' := by
  simp [State.setThread, Core.setThread]
/-- The current thread written twice is the last one. -/
@[simp] theorem State.setTh_setTh (s : State) (t t' : Thread) : (s.setTh t).setTh t' = s.setTh t' := State.setThread_setThread ..
/-- A slot's end on its core does not depend on whether its thread has been written back unchanged. -/
theorem Core.leave_setThread_self (k : Core) (sl : Nat) : (k.setThread sl (k.thread sl)).leave sl = k.leave sl := by
  have h : (k.setThread sl (k.thread sl)).thread sl = k.thread sl := by simp [Core.setThread, Core.thread]
  simp only [Core.leave, h]
  simp [Core.dropInbox, Core.setThread]
/-- The end of a thread does not depend on whether its thread has been written back unchanged. -/
theorem State.endThread_setTh (s : State) (f : Option Word) :
    (s.setTh s.th).endThread s.cur.1 s.cur.2 f = s.endThread s.cur.1 s.cur.2 f := by
  have h : (s.setTh s.th).thread s.cur.1 s.cur.2 = s.thread s.cur.1 s.cur.2 := State.thread_setThread_self ..
  have e : (s.setTh s.th).setCore s.cur.1 (((s.setTh s.th).core s.cur.1).leave s.cur.2) =
      s.setCore s.cur.1 ((s.core s.cur.1).leave s.cur.2) := by
    have c : (s.setTh s.th).core s.cur.1 = (s.core s.cur.1).setThread s.cur.2 ((s.core s.cur.1).thread s.cur.2) :=
      State.core_setCore_self ..
    rw [c, Core.leave_setThread_self]
    simp [State.setTh, State.setThread]
  simp only [State.endThread, h, e]
/-- A trap of a state whose current thread was written back unchanged is the state's own trap. -/
theorem State.raise_setTh_th (s : State) (i : TrapInfo) : (s.setTh s.th).raise i = s.raise i := by
  simp only [State.raise, State.takeTrap, State.th_setTh]
  have e : ({ s.setTh s.th with iss := { (s.setTh s.th).iss with trap := some i, disp := .stay } } : State) =
      ({ s with iss := { s.iss with trap := some i, disp := .stay } } : State).setTh s.th := rfl
  rw [e]
  split
  · exact State.endThread_setTh { s with iss := { s.iss with trap := some i, disp := .stay } } _
  · split
    · rw [State.setTh_setTh]
    · split
      · rw [State.setTh_setTh]
      · exact State.endThread_setTh { s with iss := { s.iss with trap := some i, disp := .stay } } _

end Sys2Proof.Machine
end

