-- ==== Sys2Proof/Laws/PerInstr.lean ====
section
/-! SUPPORT. Per instruction: a well-formed instruction's word decodes to the instruction, with every operand at every value the
encoding admits (spec/03_encoding.md R66 to R92). Steps of the device have no word. -/

namespace Sys2Proof.Laws.Encoding

set_option Elab.async false

/-- Decoding the word of a well-formed instruction, with either L bit, gives the instruction back. -/
def Statement (i : Instr) : Prop := ∀ (l : BitVec 1) (w : BitVec 32), i.wf = true → encode l i = some w → decode w = .ok i

theorem statement_of {i : Instr} (f : BitVec 1 → BitVec 32) (he : ∀ l, encode l i = some (f l))
    (hd : ∀ l, i.wf = true → decode (f l) = .ok i) : Statement i := by
  intro l w hw h
  rw [he] at h
  rw [← Option.some.inj h]
  exact hd l hw

theorem no_word {i : Instr} (he : ∀ l, encode l i = none) : Statement i := by
  intro l w _ h
  rw [he] at h
  exact absurd h (by simp)

@[simp] theorem ofBool_one (b : Bool) : (BitVec.ofBool b == 1) = b := by cases b <;> rfl

theorem add (d : Reg) (a : Reg) (b : Reg) : Statement (.add d a b) := by
  refine statement_of (fun l => wordR l 0 0 d a b 0) (fun _ => rfl) fun l hw => ?_
  refine (decode_intR ..).trans ?_
  show decodeIntR 0 d a b 0 = _
  simp only [decodeIntR]
  rfl
theorem sub (d : Reg) (a : Reg) (b : Reg) : Statement (.sub d a b) := by
  refine statement_of (fun l => wordR l 0 1 d a b 0) (fun _ => rfl) fun l hw => ?_
  refine (decode_intR ..).trans ?_
  show decodeIntR 1 d a b 0 = _
  simp only [decodeIntR]
  rfl
theorem and (d : Reg) (a : Reg) (b : Reg) : Statement (.and d a b) := by
  refine statement_of (fun l => wordR l 0 2 d a b 0) (fun _ => rfl) fun l hw => ?_
  refine (decode_intR ..).trans ?_
  show decodeIntR 2 d a b 0 = _
  simp only [decodeIntR]
  rfl
theorem or (d : Reg) (a : Reg) (b : Reg) : Statement (.or d a b) := by
  refine statement_of (fun l => wordR l 0 3 d a b 0) (fun _ => rfl) fun l hw => ?_
  refine (decode_intR ..).trans ?_
  show decodeIntR 3 d a b 0 = _
  simp only [decodeIntR]
  rfl
theorem xor (d : Reg) (a : Reg) (b : Reg) : Statement (.xor d a b) := by
  refine statement_of (fun l => wordR l 0 4 d a b 0) (fun _ => rfl) fun l hw => ?_
  refine (decode_intR ..).trans ?_
  show decodeIntR 4 d a b 0 = _
  simp only [decodeIntR]
  rfl
theorem andn (d : Reg) (a : Reg) (b : Reg) : Statement (.andn d a b) := by
  refine statement_of (fun l => wordR l 0 5 d a b 0) (fun _ => rfl) fun l hw => ?_
  refine (decode_intR ..).trans ?_
  show decodeIntR 5 d a b 0 = _
  simp only [decodeIntR]
  rfl
theorem sll (d : Reg) (a : Reg) (b : Reg) : Statement (.sll d a b) := by
  refine statement_of (fun l => wordR l 0 6 d a b 0) (fun _ => rfl) fun l hw => ?_
  refine (decode_intR ..).trans ?_
  show decodeIntR 6 d a b 0 = _
  simp only [decodeIntR]
  rfl
theorem srl (d : Reg) (a : Reg) (b : Reg) : Statement (.srl d a b) := by
  refine statement_of (fun l => wordR l 0 7 d a b 0) (fun _ => rfl) fun l hw => ?_
  refine (decode_intR ..).trans ?_
  show decodeIntR 7 d a b 0 = _
  simp only [decodeIntR]
  rfl
theorem sra (d : Reg) (a : Reg) (b : Reg) : Statement (.sra d a b) := by
  refine statement_of (fun l => wordR l 0 8 d a b 0) (fun _ => rfl) fun l hw => ?_
  refine (decode_intR ..).trans ?_
  show decodeIntR 8 d a b 0 = _
  simp only [decodeIntR]
  rfl
theorem rol (d : Reg) (a : Reg) (b : Reg) : Statement (.rol d a b) := by
  refine statement_of (fun l => wordR l 0 9 d a b 0) (fun _ => rfl) fun l hw => ?_
  refine (decode_intR ..).trans ?_
  show decodeIntR 9 d a b 0 = _
  simp only [decodeIntR]
  rfl
theorem ror (d : Reg) (a : Reg) (b : Reg) : Statement (.ror d a b) := by
  refine statement_of (fun l => wordR l 0 10 d a b 0) (fun _ => rfl) fun l hw => ?_
  refine (decode_intR ..).trans ?_
  show decodeIntR 10 d a b 0 = _
  simp only [decodeIntR]
  rfl
theorem mul (d : Reg) (a : Reg) (b : Reg) : Statement (.mul d a b) := by
  refine statement_of (fun l => wordR l 0 11 d a b 0) (fun _ => rfl) fun l hw => ?_
  refine (decode_intR ..).trans ?_
  show decodeIntR 11 d a b 0 = _
  simp only [decodeIntR]
  rfl
theorem mulh (d : Reg) (a : Reg) (b : Reg) : Statement (.mulh d a b) := by
  refine statement_of (fun l => wordR l 0 12 d a b 0) (fun _ => rfl) fun l hw => ?_
  refine (decode_intR ..).trans ?_
  show decodeIntR 12 d a b 0 = _
  simp only [decodeIntR]
  rfl
theorem mulhu (d : Reg) (a : Reg) (b : Reg) : Statement (.mulhu d a b) := by
  refine statement_of (fun l => wordR l 0 13 d a b 0) (fun _ => rfl) fun l hw => ?_
  refine (decode_intR ..).trans ?_
  show decodeIntR 13 d a b 0 = _
  simp only [decodeIntR]
  rfl
theorem div (d : Reg) (a : Reg) (b : Reg) : Statement (.div d a b) := by
  refine statement_of (fun l => wordR l 0 14 d a b 0) (fun _ => rfl) fun l hw => ?_
  refine (decode_intR ..).trans ?_
  show decodeIntR 14 d a b 0 = _
  simp only [decodeIntR]
  rfl
theorem divu (d : Reg) (a : Reg) (b : Reg) : Statement (.divu d a b) := by
  refine statement_of (fun l => wordR l 0 15 d a b 0) (fun _ => rfl) fun l hw => ?_
  refine (decode_intR ..).trans ?_
  show decodeIntR 15 d a b 0 = _
  simp only [decodeIntR]
  rfl
theorem rem (d : Reg) (a : Reg) (b : Reg) : Statement (.rem d a b) := by
  refine statement_of (fun l => wordR l 0 16 d a b 0) (fun _ => rfl) fun l hw => ?_
  refine (decode_intR ..).trans ?_
  show decodeIntR 16 d a b 0 = _
  simp only [decodeIntR]
  rfl
theorem remu (d : Reg) (a : Reg) (b : Reg) : Statement (.remu d a b) := by
  refine statement_of (fun l => wordR l 0 17 d a b 0) (fun _ => rfl) fun l hw => ?_
  refine (decode_intR ..).trans ?_
  show decodeIntR 17 d a b 0 = _
  simp only [decodeIntR]
  rfl
theorem min (d : Reg) (a : Reg) (b : Reg) : Statement (.min d a b) := by
  refine statement_of (fun l => wordR l 0 18 d a b 0) (fun _ => rfl) fun l hw => ?_
  refine (decode_intR ..).trans ?_
  show decodeIntR 18 d a b 0 = _
  simp only [decodeIntR]
  rfl
theorem max (d : Reg) (a : Reg) (b : Reg) : Statement (.max d a b) := by
  refine statement_of (fun l => wordR l 0 19 d a b 0) (fun _ => rfl) fun l hw => ?_
  refine (decode_intR ..).trans ?_
  show decodeIntR 19 d a b 0 = _
  simp only [decodeIntR]
  rfl
theorem minu (d : Reg) (a : Reg) (b : Reg) : Statement (.minu d a b) := by
  refine statement_of (fun l => wordR l 0 20 d a b 0) (fun _ => rfl) fun l hw => ?_
  refine (decode_intR ..).trans ?_
  show decodeIntR 20 d a b 0 = _
  simp only [decodeIntR]
  rfl
theorem maxu (d : Reg) (a : Reg) (b : Reg) : Statement (.maxu d a b) := by
  refine statement_of (fun l => wordR l 0 21 d a b 0) (fun _ => rfl) fun l hw => ?_
  refine (decode_intR ..).trans ?_
  show decodeIntR 21 d a b 0 = _
  simp only [decodeIntR]
  rfl
theorem seq (d : Reg) (a : Reg) (b : Reg) : Statement (.seq d a b) := by
  refine statement_of (fun l => wordR l 0 22 d a b 0) (fun _ => rfl) fun l hw => ?_
  refine (decode_intR ..).trans ?_
  show decodeIntR 22 d a b 0 = _
  simp only [decodeIntR]
  rfl
theorem slt (d : Reg) (a : Reg) (b : Reg) : Statement (.slt d a b) := by
  refine statement_of (fun l => wordR l 0 23 d a b 0) (fun _ => rfl) fun l hw => ?_
  refine (decode_intR ..).trans ?_
  show decodeIntR 23 d a b 0 = _
  simp only [decodeIntR]
  rfl
theorem sltu (d : Reg) (a : Reg) (b : Reg) : Statement (.sltu d a b) := by
  refine statement_of (fun l => wordR l 0 24 d a b 0) (fun _ => rfl) fun l hw => ?_
  refine (decode_intR ..).trans ?_
  show decodeIntR 24 d a b 0 = _
  simp only [decodeIntR]
  rfl
theorem sel (d : Reg) (a : Reg) (b : Reg) : Statement (.sel d a b) := by
  refine statement_of (fun l => wordR l 0 25 d a b 0) (fun _ => rfl) fun l hw => ?_
  refine (decode_intR ..).trans ?_
  show decodeIntR 25 d a b 0 = _
  simp only [decodeIntR]
  rfl
theorem clz (d : Reg) (a : Reg) : Statement (.clz d a) := by
  refine statement_of (fun l => wordR l 0 26 d a 0 0) (fun _ => rfl) fun l hw => ?_
  refine (decode_intR ..).trans ?_
  show decodeIntR 26 d a 0 0 = _
  simp only [decodeIntR]
  rfl
theorem ctz (d : Reg) (a : Reg) : Statement (.ctz d a) := by
  refine statement_of (fun l => wordR l 0 27 d a 0 0) (fun _ => rfl) fun l hw => ?_
  refine (decode_intR ..).trans ?_
  show decodeIntR 27 d a 0 0 = _
  simp only [decodeIntR]
  rfl
theorem popc (d : Reg) (a : Reg) : Statement (.popc d a) := by
  refine statement_of (fun l => wordR l 0 28 d a 0 0) (fun _ => rfl) fun l hw => ?_
  refine (decode_intR ..).trans ?_
  show decodeIntR 28 d a 0 0 = _
  simp only [decodeIntR]
  rfl
theorem brev (d : Reg) (a : Reg) : Statement (.brev d a) := by
  refine statement_of (fun l => wordR l 0 29 d a 0 0) (fun _ => rfl) fun l hw => ?_
  refine (decode_intR ..).trans ?_
  show decodeIntR 29 d a 0 0 = _
  simp only [decodeIntR]
  rfl
theorem bswap (d : Reg) (a : Reg) : Statement (.bswap d a) := by
  refine statement_of (fun l => wordR l 0 30 d a 0 0) (fun _ => rfl) fun l hw => ?_
  refine (decode_intR ..).trans ?_
  show decodeIntR 30 d a 0 0 = _
  simp only [decodeIntR]
  rfl
theorem addw (d : Reg) (a : Reg) (b : Reg) : Statement (.addw d a b) := by
  refine statement_of (fun l => wordR l 0 31 d a b 0) (fun _ => rfl) fun l hw => ?_
  refine (decode_intR ..).trans ?_
  show decodeIntR 31 d a b 0 = _
  simp only [decodeIntR]
  rfl
theorem subw (d : Reg) (a : Reg) (b : Reg) : Statement (.subw d a b) := by
  refine statement_of (fun l => wordR l 0 32 d a b 0) (fun _ => rfl) fun l hw => ?_
  refine (decode_intR ..).trans ?_
  show decodeIntR 32 d a b 0 = _
  simp only [decodeIntR]
  rfl
theorem mulw (d : Reg) (a : Reg) (b : Reg) : Statement (.mulw d a b) := by
  refine statement_of (fun l => wordR l 0 33 d a b 0) (fun _ => rfl) fun l hw => ?_
  refine (decode_intR ..).trans ?_
  show decodeIntR 33 d a b 0 = _
  simp only [decodeIntR]
  rfl
theorem sllw (d : Reg) (a : Reg) (b : Reg) : Statement (.sllw d a b) := by
  refine statement_of (fun l => wordR l 0 34 d a b 0) (fun _ => rfl) fun l hw => ?_
  refine (decode_intR ..).trans ?_
  show decodeIntR 34 d a b 0 = _
  simp only [decodeIntR]
  rfl
theorem srlw (d : Reg) (a : Reg) (b : Reg) : Statement (.srlw d a b) := by
  refine statement_of (fun l => wordR l 0 35 d a b 0) (fun _ => rfl) fun l hw => ?_
  refine (decode_intR ..).trans ?_
  show decodeIntR 35 d a b 0 = _
  simp only [decodeIntR]
  rfl
theorem sraw (d : Reg) (a : Reg) (b : Reg) : Statement (.sraw d a b) := by
  refine statement_of (fun l => wordR l 0 36 d a b 0) (fun _ => rfl) fun l hw => ?_
  refine (decode_intR ..).trans ?_
  show decodeIntR 36 d a b 0 = _
  simp only [decodeIntR]
  rfl
theorem shadd (d : Reg) (a : Reg) (b : Reg) (sh : BitVec 3) : Statement (.shadd d a b sh) := by
  refine statement_of (fun l => wordR l 0 37 d a b (sh ++ 0#4)) (fun _ => rfl) fun l hw => ?_
  have h1 : @fld 7 (sh ++ 0#4) 0 4 = 0#4 := (fld_last (sh) (0#4))
  have h2 : @fld 7 (sh ++ 0#4) 4 3 = sh := (fld_append_high (sh) (0#4) 4 3 (by decide)).trans ((fld_self (sh)))
  refine (decode_intR ..).trans ?_
  show decodeIntR 37 d a b (sh ++ 0#4) = _
  simp only [decodeIntR, h1, h2]
  rfl
theorem addv (d : Reg) (a : Reg) (b : Reg) : Statement (.addv d a b) := by
  refine statement_of (fun l => wordR l 0 38 d a b 0) (fun _ => rfl) fun l hw => ?_
  refine (decode_intR ..).trans ?_
  show decodeIntR 38 d a b 0 = _
  simp only [decodeIntR]
  rfl
theorem subv (d : Reg) (a : Reg) (b : Reg) : Statement (.subv d a b) := by
  refine statement_of (fun l => wordR l 0 39 d a b 0) (fun _ => rfl) fun l hw => ?_
  refine (decode_intR ..).trans ?_
  show decodeIntR 39 d a b 0 = _
  simp only [decodeIntR]
  rfl
theorem xya (d : Reg) (a : Reg) (b : Reg) : Statement (.xya d a b) := by
  refine statement_of (fun l => wordR l 0 40 d a b 0) (fun _ => rfl) fun l hw => ?_
  refine (decode_intR ..).trans ?_
  show decodeIntR 40 d a b 0 = _
  simp only [decodeIntR]
  rfl
theorem xyr (d : Reg) (a : Reg) (b : Reg) : Statement (.xyr d a b) := by
  refine statement_of (fun l => wordR l 0 41 d a b 0) (fun _ => rfl) fun l hw => ?_
  refine (decode_intR ..).trans ?_
  show decodeIntR 41 d a b 0 = _
  simp only [decodeIntR]
  rfl
theorem xyrSelf (d : Reg) (b : Reg) : Statement (.xyrSelf d b) := by
  refine statement_of (fun l => wordR l 0 41 d 0 b 1) (fun _ => rfl) fun l hw => ?_
  refine (decode_intR ..).trans ?_
  show decodeIntR 41 d 0 b 1 = _
  simp only [decodeIntR]
  rfl
theorem agep (d : Reg) (a : Reg) (b : Reg) : Statement (.agep d a b) := by
  refine statement_of (fun l => wordR l 0 42 d a b 0) (fun _ => rfl) fun l hw => ?_
  refine (decode_intR ..).trans ?_
  show decodeIntR 42 d a b 0 = _
  simp only [decodeIntR]
  rfl
theorem agex (d : Reg) (a : Reg) : Statement (.agex d a) := by
  refine statement_of (fun l => wordR l 0 43 d a 0 0) (fun _ => rfl) fun l hw => ?_
  refine (decode_intR ..).trans ?_
  show decodeIntR 43 d a 0 0 = _
  simp only [decodeIntR]
  rfl
theorem addi (d : Reg) (a : Reg) (imm : BitVec 12) : Statement (.addi d a imm) := by
  refine statement_of (fun l => wordI l 1 0 d a imm) (fun _ => rfl) fun l hw => ?_
  refine (decode_intI _ _ _ _ _ (by decide)).trans ?_
  show decodeIntI 0 d a imm = _
  simp only [decodeIntI]
theorem andi (d : Reg) (a : Reg) (imm : BitVec 12) : Statement (.andi d a imm) := by
  refine statement_of (fun l => wordI l 1 1 d a imm) (fun _ => rfl) fun l hw => ?_
  refine (decode_intI _ _ _ _ _ (by decide)).trans ?_
  show decodeIntI 1 d a imm = _
  simp only [decodeIntI]
theorem ori (d : Reg) (a : Reg) (imm : BitVec 12) : Statement (.ori d a imm) := by
  refine statement_of (fun l => wordI l 1 2 d a imm) (fun _ => rfl) fun l hw => ?_
  refine (decode_intI _ _ _ _ _ (by decide)).trans ?_
  show decodeIntI 2 d a imm = _
  simp only [decodeIntI]
theorem xori (d : Reg) (a : Reg) (imm : BitVec 12) : Statement (.xori d a imm) := by
  refine statement_of (fun l => wordI l 1 3 d a imm) (fun _ => rfl) fun l hw => ?_
  refine (decode_intI _ _ _ _ _ (by decide)).trans ?_
  show decodeIntI 3 d a imm = _
  simp only [decodeIntI]
theorem slli (d : Reg) (a : Reg) (sh : BitVec 6) : Statement (.slli d a sh) := by
  refine statement_of (fun l => wordI l 1 4 d a (0#6 ++ sh)) (fun _ => rfl) fun l hw => ?_
  have h1 : @fld 12 (0#6 ++ sh) 0 6 = sh := (fld_last (0#6) (sh))
  have h2 : @fld 12 (0#6 ++ sh) 6 6 = 0#6 := (fld_append_high (0#6) (sh) 6 6 (by decide)).trans ((fld_self (0#6)))
  refine (decode_intI _ _ _ _ _ (by decide)).trans ?_
  show decodeIntI 4 d a (0#6 ++ sh) = _
  simp only [decodeIntI, h1, h2]
  rfl
theorem srli (d : Reg) (a : Reg) (sh : BitVec 6) : Statement (.srli d a sh) := by
  refine statement_of (fun l => wordI l 1 5 d a (0#6 ++ sh)) (fun _ => rfl) fun l hw => ?_
  have h1 : @fld 12 (0#6 ++ sh) 0 6 = sh := (fld_last (0#6) (sh))
  have h2 : @fld 12 (0#6 ++ sh) 6 6 = 0#6 := (fld_append_high (0#6) (sh) 6 6 (by decide)).trans ((fld_self (0#6)))
  refine (decode_intI _ _ _ _ _ (by decide)).trans ?_
  show decodeIntI 5 d a (0#6 ++ sh) = _
  simp only [decodeIntI, h1, h2]
  rfl
theorem srai (d : Reg) (a : Reg) (sh : BitVec 6) : Statement (.srai d a sh) := by
  refine statement_of (fun l => wordI l 1 6 d a (0#6 ++ sh)) (fun _ => rfl) fun l hw => ?_
  have h1 : @fld 12 (0#6 ++ sh) 0 6 = sh := (fld_last (0#6) (sh))
  have h2 : @fld 12 (0#6 ++ sh) 6 6 = 0#6 := (fld_append_high (0#6) (sh) 6 6 (by decide)).trans ((fld_self (0#6)))
  refine (decode_intI _ _ _ _ _ (by decide)).trans ?_
  show decodeIntI 6 d a (0#6 ++ sh) = _
  simp only [decodeIntI, h1, h2]
  rfl
theorem seqi (d : Reg) (a : Reg) (imm : BitVec 12) : Statement (.seqi d a imm) := by
  refine statement_of (fun l => wordI l 1 7 d a imm) (fun _ => rfl) fun l hw => ?_
  refine (decode_intI _ _ _ _ _ (by decide)).trans ?_
  show decodeIntI 7 d a imm = _
  simp only [decodeIntI]
theorem slti (d : Reg) (a : Reg) (imm : BitVec 12) : Statement (.slti d a imm) := by
  refine statement_of (fun l => wordI l 1 8 d a imm) (fun _ => rfl) fun l hw => ?_
  refine (decode_intI _ _ _ _ _ (by decide)).trans ?_
  show decodeIntI 8 d a imm = _
  simp only [decodeIntI]
theorem sltui (d : Reg) (a : Reg) (imm : BitVec 12) : Statement (.sltui d a imm) := by
  refine statement_of (fun l => wordI l 1 9 d a imm) (fun _ => rfl) fun l hw => ?_
  refine (decode_intI _ _ _ _ _ (by decide)).trans ?_
  show decodeIntI 9 d a imm = _
  simp only [decodeIntI]
theorem addwi (d : Reg) (a : Reg) (imm : BitVec 12) : Statement (.addwi d a imm) := by
  refine statement_of (fun l => wordI l 1 10 d a imm) (fun _ => rfl) fun l hw => ?_
  refine (decode_intI _ _ _ _ _ (by decide)).trans ?_
  show decodeIntI 10 d a imm = _
  simp only [decodeIntI]
theorem bfx (d : Reg) (a : Reg) (pos : BitVec 6) (lenM1 : BitVec 6) : Statement (.bfx d a pos lenM1) := by
  refine statement_of (fun l => wordI l 1 11 d a (lenM1 ++ pos)) (fun _ => rfl) fun l hw => ?_
  have h1 : @fld 12 (lenM1 ++ pos) 0 6 = pos := (fld_last (lenM1) (pos))
  have h2 : @fld 12 (lenM1 ++ pos) 6 6 = lenM1 := (fld_append_high (lenM1) (pos) 6 6 (by decide)).trans ((fld_self (lenM1)))
  refine (decode_intI _ _ _ _ _ (by decide)).trans ?_
  show decodeIntI 11 d a (lenM1 ++ pos) = _
  simp only [decodeIntI, h1, h2]
  exact guardWf_of hw
theorem bfi (d : Reg) (a : Reg) (pos : BitVec 6) (lenM1 : BitVec 6) : Statement (.bfi d a pos lenM1) := by
  refine statement_of (fun l => wordI l 1 12 d a (lenM1 ++ pos)) (fun _ => rfl) fun l hw => ?_
  have h1 : @fld 12 (lenM1 ++ pos) 0 6 = pos := (fld_last (lenM1) (pos))
  have h2 : @fld 12 (lenM1 ++ pos) 6 6 = lenM1 := (fld_append_high (lenM1) (pos) 6 6 (by decide)).trans ((fld_self (lenM1)))
  refine (decode_intI _ _ _ _ _ (by decide)).trans ?_
  show decodeIntI 12 d a (lenM1 ++ pos) = _
  simp only [decodeIntI, h1, h2]
  exact guardWf_of hw
theorem lui (d : Reg) (imm : BitVec 17) : Statement (.lui d imm) := by
  refine statement_of (fun l => wordU l 1 13 d imm) (fun _ => rfl) fun l hw => ?_
  refine (decode_intU _ _ _ _ (by decide)).trans ?_
  show decodeIntU 13 d imm = _
  simp only [decodeIntU]
theorem apc (d : Reg) (imm : BitVec 17) : Statement (.apc d imm) := by
  refine statement_of (fun l => wordU l 1 14 d imm) (fun _ => rfl) fun l hw => ?_
  refine (decode_intU _ _ _ _ (by decide)).trans ?_
  show decodeIntU 14 d imm = _
  simp only [decodeIntU]
theorem fadd (w : Width) (rm : RM) (d : Reg) (a : Reg) (b : Reg) : Statement (.fadd w rm d a b) := by
  refine statement_of (fun l => wordR l 2 0 d a b (rm.code ++ (0#3) ++ w.code)) (fun _ => rfl) fun l hw => ?_
  have h1 : @fld 7 (rm.code ++ (0#3) ++ w.code) 0 1 = w.code := (fld_last (rm.code ++ (0#3)) (w.code))
  have h2 : @fld 7 (rm.code ++ (0#3) ++ w.code) 1 3 = (0#3) := (fld_append_high (rm.code ++ (0#3)) (w.code) 1 3 (by decide)).trans ((fld_last (rm.code) ((0#3))))
  have h3 : @fld 7 (rm.code ++ (0#3) ++ w.code) 4 3 = rm.code := (fld_append_high (rm.code ++ (0#3)) (w.code) 4 3 (by decide)).trans ((fld_append_high (rm.code) ((0#3)) 3 3 (by decide)).trans ((fld_self (rm.code))))
  refine (decode_fp _ _ _ _ _ _ (by decide)).trans ?_
  show decodeFp 0 d a b (rm.code ++ (0#3) ++ w.code) = _
  simp only [decodeFp, h1, h2, h3, RM.ofCode_code, Width.ofCode_code]
  rfl
theorem fsub (w : Width) (rm : RM) (d : Reg) (a : Reg) (b : Reg) : Statement (.fsub w rm d a b) := by
  refine statement_of (fun l => wordR l 2 1 d a b (rm.code ++ (0#3) ++ w.code)) (fun _ => rfl) fun l hw => ?_
  have h1 : @fld 7 (rm.code ++ (0#3) ++ w.code) 0 1 = w.code := (fld_last (rm.code ++ (0#3)) (w.code))
  have h2 : @fld 7 (rm.code ++ (0#3) ++ w.code) 1 3 = (0#3) := (fld_append_high (rm.code ++ (0#3)) (w.code) 1 3 (by decide)).trans ((fld_last (rm.code) ((0#3))))
  have h3 : @fld 7 (rm.code ++ (0#3) ++ w.code) 4 3 = rm.code := (fld_append_high (rm.code ++ (0#3)) (w.code) 4 3 (by decide)).trans ((fld_append_high (rm.code) ((0#3)) 3 3 (by decide)).trans ((fld_self (rm.code))))
  refine (decode_fp _ _ _ _ _ _ (by decide)).trans ?_
  show decodeFp 1 d a b (rm.code ++ (0#3) ++ w.code) = _
  simp only [decodeFp, h1, h2, h3, RM.ofCode_code, Width.ofCode_code]
  rfl
theorem fmul (w : Width) (rm : RM) (d : Reg) (a : Reg) (b : Reg) : Statement (.fmul w rm d a b) := by
  refine statement_of (fun l => wordR l 2 2 d a b (rm.code ++ (0#3) ++ w.code)) (fun _ => rfl) fun l hw => ?_
  have h1 : @fld 7 (rm.code ++ (0#3) ++ w.code) 0 1 = w.code := (fld_last (rm.code ++ (0#3)) (w.code))
  have h2 : @fld 7 (rm.code ++ (0#3) ++ w.code) 1 3 = (0#3) := (fld_append_high (rm.code ++ (0#3)) (w.code) 1 3 (by decide)).trans ((fld_last (rm.code) ((0#3))))
  have h3 : @fld 7 (rm.code ++ (0#3) ++ w.code) 4 3 = rm.code := (fld_append_high (rm.code ++ (0#3)) (w.code) 4 3 (by decide)).trans ((fld_append_high (rm.code) ((0#3)) 3 3 (by decide)).trans ((fld_self (rm.code))))
  refine (decode_fp _ _ _ _ _ _ (by decide)).trans ?_
  show decodeFp 2 d a b (rm.code ++ (0#3) ++ w.code) = _
  simp only [decodeFp, h1, h2, h3, RM.ofCode_code, Width.ofCode_code]
  rfl
theorem fdiv (w : Width) (rm : RM) (d : Reg) (a : Reg) (b : Reg) : Statement (.fdiv w rm d a b) := by
  refine statement_of (fun l => wordR l 2 3 d a b (rm.code ++ (0#3) ++ w.code)) (fun _ => rfl) fun l hw => ?_
  have h1 : @fld 7 (rm.code ++ (0#3) ++ w.code) 0 1 = w.code := (fld_last (rm.code ++ (0#3)) (w.code))
  have h2 : @fld 7 (rm.code ++ (0#3) ++ w.code) 1 3 = (0#3) := (fld_append_high (rm.code ++ (0#3)) (w.code) 1 3 (by decide)).trans ((fld_last (rm.code) ((0#3))))
  have h3 : @fld 7 (rm.code ++ (0#3) ++ w.code) 4 3 = rm.code := (fld_append_high (rm.code ++ (0#3)) (w.code) 4 3 (by decide)).trans ((fld_append_high (rm.code) ((0#3)) 3 3 (by decide)).trans ((fld_self (rm.code))))
  refine (decode_fp _ _ _ _ _ _ (by decide)).trans ?_
  show decodeFp 3 d a b (rm.code ++ (0#3) ++ w.code) = _
  simp only [decodeFp, h1, h2, h3, RM.ofCode_code, Width.ofCode_code]
  rfl
theorem fsqrt (w : Width) (rm : RM) (d : Reg) (a : Reg) : Statement (.fsqrt w rm d a) := by
  refine statement_of (fun l => wordR l 2 4 d a 0 (rm.code ++ (0#3) ++ w.code)) (fun _ => rfl) fun l hw => ?_
  have h1 : @fld 7 (rm.code ++ (0#3) ++ w.code) 0 1 = w.code := (fld_last (rm.code ++ (0#3)) (w.code))
  have h2 : @fld 7 (rm.code ++ (0#3) ++ w.code) 1 3 = (0#3) := (fld_append_high (rm.code ++ (0#3)) (w.code) 1 3 (by decide)).trans ((fld_last (rm.code) ((0#3))))
  have h3 : @fld 7 (rm.code ++ (0#3) ++ w.code) 4 3 = rm.code := (fld_append_high (rm.code ++ (0#3)) (w.code) 4 3 (by decide)).trans ((fld_append_high (rm.code) ((0#3)) 3 3 (by decide)).trans ((fld_self (rm.code))))
  refine (decode_fp _ _ _ _ _ _ (by decide)).trans ?_
  show decodeFp 4 d a 0 (rm.code ++ (0#3) ++ w.code) = _
  simp only [decodeFp, h1, h2, h3, RM.ofCode_code, Width.ofCode_code]
  rfl
theorem fmin (w : Width) (rm : RM) (d : Reg) (a : Reg) (b : Reg) : Statement (.fmin w rm d a b) := by
  refine statement_of (fun l => wordR l 2 5 d a b (rm.code ++ (0#3) ++ w.code)) (fun _ => rfl) fun l hw => ?_
  have h1 : @fld 7 (rm.code ++ (0#3) ++ w.code) 0 1 = w.code := (fld_last (rm.code ++ (0#3)) (w.code))
  have h2 : @fld 7 (rm.code ++ (0#3) ++ w.code) 1 3 = (0#3) := (fld_append_high (rm.code ++ (0#3)) (w.code) 1 3 (by decide)).trans ((fld_last (rm.code) ((0#3))))
  have h3 : @fld 7 (rm.code ++ (0#3) ++ w.code) 4 3 = rm.code := (fld_append_high (rm.code ++ (0#3)) (w.code) 4 3 (by decide)).trans ((fld_append_high (rm.code) ((0#3)) 3 3 (by decide)).trans ((fld_self (rm.code))))
  refine (decode_fp _ _ _ _ _ _ (by decide)).trans ?_
  show decodeFp 5 d a b (rm.code ++ (0#3) ++ w.code) = _
  simp only [decodeFp, h1, h2, h3, RM.ofCode_code, Width.ofCode_code]
  rfl
theorem fmax (w : Width) (rm : RM) (d : Reg) (a : Reg) (b : Reg) : Statement (.fmax w rm d a b) := by
  refine statement_of (fun l => wordR l 2 6 d a b (rm.code ++ (0#3) ++ w.code)) (fun _ => rfl) fun l hw => ?_
  have h1 : @fld 7 (rm.code ++ (0#3) ++ w.code) 0 1 = w.code := (fld_last (rm.code ++ (0#3)) (w.code))
  have h2 : @fld 7 (rm.code ++ (0#3) ++ w.code) 1 3 = (0#3) := (fld_append_high (rm.code ++ (0#3)) (w.code) 1 3 (by decide)).trans ((fld_last (rm.code) ((0#3))))
  have h3 : @fld 7 (rm.code ++ (0#3) ++ w.code) 4 3 = rm.code := (fld_append_high (rm.code ++ (0#3)) (w.code) 4 3 (by decide)).trans ((fld_append_high (rm.code) ((0#3)) 3 3 (by decide)).trans ((fld_self (rm.code))))
  refine (decode_fp _ _ _ _ _ _ (by decide)).trans ?_
  show decodeFp 6 d a b (rm.code ++ (0#3) ++ w.code) = _
  simp only [decodeFp, h1, h2, h3, RM.ofCode_code, Width.ofCode_code]
  rfl
theorem fminm (w : Width) (rm : RM) (d : Reg) (a : Reg) (b : Reg) : Statement (.fminm w rm d a b) := by
  refine statement_of (fun l => wordR l 2 7 d a b (rm.code ++ (0#3) ++ w.code)) (fun _ => rfl) fun l hw => ?_
  have h1 : @fld 7 (rm.code ++ (0#3) ++ w.code) 0 1 = w.code := (fld_last (rm.code ++ (0#3)) (w.code))
  have h2 : @fld 7 (rm.code ++ (0#3) ++ w.code) 1 3 = (0#3) := (fld_append_high (rm.code ++ (0#3)) (w.code) 1 3 (by decide)).trans ((fld_last (rm.code) ((0#3))))
  have h3 : @fld 7 (rm.code ++ (0#3) ++ w.code) 4 3 = rm.code := (fld_append_high (rm.code ++ (0#3)) (w.code) 4 3 (by decide)).trans ((fld_append_high (rm.code) ((0#3)) 3 3 (by decide)).trans ((fld_self (rm.code))))
  refine (decode_fp _ _ _ _ _ _ (by decide)).trans ?_
  show decodeFp 7 d a b (rm.code ++ (0#3) ++ w.code) = _
  simp only [decodeFp, h1, h2, h3, RM.ofCode_code, Width.ofCode_code]
  rfl
theorem fmaxm (w : Width) (rm : RM) (d : Reg) (a : Reg) (b : Reg) : Statement (.fmaxm w rm d a b) := by
  refine statement_of (fun l => wordR l 2 8 d a b (rm.code ++ (0#3) ++ w.code)) (fun _ => rfl) fun l hw => ?_
  have h1 : @fld 7 (rm.code ++ (0#3) ++ w.code) 0 1 = w.code := (fld_last (rm.code ++ (0#3)) (w.code))
  have h2 : @fld 7 (rm.code ++ (0#3) ++ w.code) 1 3 = (0#3) := (fld_append_high (rm.code ++ (0#3)) (w.code) 1 3 (by decide)).trans ((fld_last (rm.code) ((0#3))))
  have h3 : @fld 7 (rm.code ++ (0#3) ++ w.code) 4 3 = rm.code := (fld_append_high (rm.code ++ (0#3)) (w.code) 4 3 (by decide)).trans ((fld_append_high (rm.code) ((0#3)) 3 3 (by decide)).trans ((fld_self (rm.code))))
  refine (decode_fp _ _ _ _ _ _ (by decide)).trans ?_
  show decodeFp 8 d a b (rm.code ++ (0#3) ++ w.code) = _
  simp only [decodeFp, h1, h2, h3, RM.ofCode_code, Width.ofCode_code]
  rfl
theorem feq (w : Width) (rm : RM) (d : Reg) (a : Reg) (b : Reg) : Statement (.feq w rm d a b) := by
  refine statement_of (fun l => wordR l 2 9 d a b (rm.code ++ (0#3) ++ w.code)) (fun _ => rfl) fun l hw => ?_
  have h1 : @fld 7 (rm.code ++ (0#3) ++ w.code) 0 1 = w.code := (fld_last (rm.code ++ (0#3)) (w.code))
  have h2 : @fld 7 (rm.code ++ (0#3) ++ w.code) 1 3 = (0#3) := (fld_append_high (rm.code ++ (0#3)) (w.code) 1 3 (by decide)).trans ((fld_last (rm.code) ((0#3))))
  have h3 : @fld 7 (rm.code ++ (0#3) ++ w.code) 4 3 = rm.code := (fld_append_high (rm.code ++ (0#3)) (w.code) 4 3 (by decide)).trans ((fld_append_high (rm.code) ((0#3)) 3 3 (by decide)).trans ((fld_self (rm.code))))
  refine (decode_fp _ _ _ _ _ _ (by decide)).trans ?_
  show decodeFp 9 d a b (rm.code ++ (0#3) ++ w.code) = _
  simp only [decodeFp, h1, h2, h3, RM.ofCode_code, Width.ofCode_code]
  rfl
theorem flt (w : Width) (rm : RM) (d : Reg) (a : Reg) (b : Reg) : Statement (.flt w rm d a b) := by
  refine statement_of (fun l => wordR l 2 10 d a b (rm.code ++ (0#3) ++ w.code)) (fun _ => rfl) fun l hw => ?_
  have h1 : @fld 7 (rm.code ++ (0#3) ++ w.code) 0 1 = w.code := (fld_last (rm.code ++ (0#3)) (w.code))
  have h2 : @fld 7 (rm.code ++ (0#3) ++ w.code) 1 3 = (0#3) := (fld_append_high (rm.code ++ (0#3)) (w.code) 1 3 (by decide)).trans ((fld_last (rm.code) ((0#3))))
  have h3 : @fld 7 (rm.code ++ (0#3) ++ w.code) 4 3 = rm.code := (fld_append_high (rm.code ++ (0#3)) (w.code) 4 3 (by decide)).trans ((fld_append_high (rm.code) ((0#3)) 3 3 (by decide)).trans ((fld_self (rm.code))))
  refine (decode_fp _ _ _ _ _ _ (by decide)).trans ?_
  show decodeFp 10 d a b (rm.code ++ (0#3) ++ w.code) = _
  simp only [decodeFp, h1, h2, h3, RM.ofCode_code, Width.ofCode_code]
  rfl
theorem fle (w : Width) (rm : RM) (d : Reg) (a : Reg) (b : Reg) : Statement (.fle w rm d a b) := by
  refine statement_of (fun l => wordR l 2 11 d a b (rm.code ++ (0#3) ++ w.code)) (fun _ => rfl) fun l hw => ?_
  have h1 : @fld 7 (rm.code ++ (0#3) ++ w.code) 0 1 = w.code := (fld_last (rm.code ++ (0#3)) (w.code))
  have h2 : @fld 7 (rm.code ++ (0#3) ++ w.code) 1 3 = (0#3) := (fld_append_high (rm.code ++ (0#3)) (w.code) 1 3 (by decide)).trans ((fld_last (rm.code) ((0#3))))
  have h3 : @fld 7 (rm.code ++ (0#3) ++ w.code) 4 3 = rm.code := (fld_append_high (rm.code ++ (0#3)) (w.code) 4 3 (by decide)).trans ((fld_append_high (rm.code) ((0#3)) 3 3 (by decide)).trans ((fld_self (rm.code))))
  refine (decode_fp _ _ _ _ _ _ (by decide)).trans ?_
  show decodeFp 11 d a b (rm.code ++ (0#3) ++ w.code) = _
  simp only [decodeFp, h1, h2, h3, RM.ofCode_code, Width.ofCode_code]
  rfl
theorem fclass (w : Width) (rm : RM) (d : Reg) (a : Reg) : Statement (.fclass w rm d a) := by
  refine statement_of (fun l => wordR l 2 12 d a 0 (rm.code ++ (0#3) ++ w.code)) (fun _ => rfl) fun l hw => ?_
  have h1 : @fld 7 (rm.code ++ (0#3) ++ w.code) 0 1 = w.code := (fld_last (rm.code ++ (0#3)) (w.code))
  have h2 : @fld 7 (rm.code ++ (0#3) ++ w.code) 1 3 = (0#3) := (fld_append_high (rm.code ++ (0#3)) (w.code) 1 3 (by decide)).trans ((fld_last (rm.code) ((0#3))))
  have h3 : @fld 7 (rm.code ++ (0#3) ++ w.code) 4 3 = rm.code := (fld_append_high (rm.code ++ (0#3)) (w.code) 4 3 (by decide)).trans ((fld_append_high (rm.code) ((0#3)) 3 3 (by decide)).trans ((fld_self (rm.code))))
  refine (decode_fp _ _ _ _ _ _ (by decide)).trans ?_
  show decodeFp 12 d a 0 (rm.code ++ (0#3) ++ w.code) = _
  simp only [decodeFp, h1, h2, h3, RM.ofCode_code, Width.ofCode_code]
  rfl
theorem fsgn (w : Width) (rm : RM) (d : Reg) (a : Reg) (b : Reg) : Statement (.fsgn w rm d a b) := by
  refine statement_of (fun l => wordR l 2 13 d a b (rm.code ++ (0#3) ++ w.code)) (fun _ => rfl) fun l hw => ?_
  have h1 : @fld 7 (rm.code ++ (0#3) ++ w.code) 0 1 = w.code := (fld_last (rm.code ++ (0#3)) (w.code))
  have h2 : @fld 7 (rm.code ++ (0#3) ++ w.code) 1 3 = (0#3) := (fld_append_high (rm.code ++ (0#3)) (w.code) 1 3 (by decide)).trans ((fld_last (rm.code) ((0#3))))
  have h3 : @fld 7 (rm.code ++ (0#3) ++ w.code) 4 3 = rm.code := (fld_append_high (rm.code ++ (0#3)) (w.code) 4 3 (by decide)).trans ((fld_append_high (rm.code) ((0#3)) 3 3 (by decide)).trans ((fld_self (rm.code))))
  refine (decode_fp _ _ _ _ _ _ (by decide)).trans ?_
  show decodeFp 13 d a b (rm.code ++ (0#3) ++ w.code) = _
  simp only [decodeFp, h1, h2, h3, RM.ofCode_code, Width.ofCode_code]
  rfl
theorem fsgnn (w : Width) (rm : RM) (d : Reg) (a : Reg) (b : Reg) : Statement (.fsgnn w rm d a b) := by
  refine statement_of (fun l => wordR l 2 14 d a b (rm.code ++ (0#3) ++ w.code)) (fun _ => rfl) fun l hw => ?_
  have h1 : @fld 7 (rm.code ++ (0#3) ++ w.code) 0 1 = w.code := (fld_last (rm.code ++ (0#3)) (w.code))
  have h2 : @fld 7 (rm.code ++ (0#3) ++ w.code) 1 3 = (0#3) := (fld_append_high (rm.code ++ (0#3)) (w.code) 1 3 (by decide)).trans ((fld_last (rm.code) ((0#3))))
  have h3 : @fld 7 (rm.code ++ (0#3) ++ w.code) 4 3 = rm.code := (fld_append_high (rm.code ++ (0#3)) (w.code) 4 3 (by decide)).trans ((fld_append_high (rm.code) ((0#3)) 3 3 (by decide)).trans ((fld_self (rm.code))))
  refine (decode_fp _ _ _ _ _ _ (by decide)).trans ?_
  show decodeFp 14 d a b (rm.code ++ (0#3) ++ w.code) = _
  simp only [decodeFp, h1, h2, h3, RM.ofCode_code, Width.ofCode_code]
  rfl
theorem fsgnx (w : Width) (rm : RM) (d : Reg) (a : Reg) (b : Reg) : Statement (.fsgnx w rm d a b) := by
  refine statement_of (fun l => wordR l 2 15 d a b (rm.code ++ (0#3) ++ w.code)) (fun _ => rfl) fun l hw => ?_
  have h1 : @fld 7 (rm.code ++ (0#3) ++ w.code) 0 1 = w.code := (fld_last (rm.code ++ (0#3)) (w.code))
  have h2 : @fld 7 (rm.code ++ (0#3) ++ w.code) 1 3 = (0#3) := (fld_append_high (rm.code ++ (0#3)) (w.code) 1 3 (by decide)).trans ((fld_last (rm.code) ((0#3))))
  have h3 : @fld 7 (rm.code ++ (0#3) ++ w.code) 4 3 = rm.code := (fld_append_high (rm.code ++ (0#3)) (w.code) 4 3 (by decide)).trans ((fld_append_high (rm.code) ((0#3)) 3 3 (by decide)).trans ((fld_self (rm.code))))
  refine (decode_fp _ _ _ _ _ _ (by decide)).trans ?_
  show decodeFp 15 d a b (rm.code ++ (0#3) ++ w.code) = _
  simp only [decodeFp, h1, h2, h3, RM.ofCode_code, Width.ofCode_code]
  rfl
theorem frint (w : Width) (rm : RM) (x : Bool) (d : Reg) (a : Reg) : Statement (.frint w rm x d a) := by
  refine statement_of (fun l => wordR l 2 16 d a 0 (rm.code ++ (0#2 ++ BitVec.ofBool x) ++ w.code)) (fun _ => rfl) fun l hw => ?_
  have h1 : @fld 7 (rm.code ++ (0#2 ++ BitVec.ofBool x) ++ w.code) 0 1 = w.code := (fld_last (rm.code ++ (0#2 ++ BitVec.ofBool x)) (w.code))
  have h2 : @fld 7 (rm.code ++ (0#2 ++ BitVec.ofBool x) ++ w.code) 1 1 = BitVec.ofBool x := (fld_append_high (rm.code ++ (0#2 ++ BitVec.ofBool x)) (w.code) 1 1 (by decide)).trans ((fld_append_low (rm.code) ((0#2 ++ BitVec.ofBool x)) 0 1 (by decide)).trans (((fld_last (0#2) (BitVec.ofBool x)))))
  have h3 : @fld 7 (rm.code ++ (0#2 ++ BitVec.ofBool x) ++ w.code) 2 2 = 0#2 := (fld_append_high (rm.code ++ (0#2 ++ BitVec.ofBool x)) (w.code) 2 2 (by decide)).trans ((fld_append_low (rm.code) ((0#2 ++ BitVec.ofBool x)) 1 2 (by decide)).trans (((fld_append_high (0#2) (BitVec.ofBool x) 1 2 (by decide)).trans ((fld_self (0#2))))))
  have h4 : @fld 7 (rm.code ++ (0#2 ++ BitVec.ofBool x) ++ w.code) 4 3 = rm.code := (fld_append_high (rm.code ++ (0#2 ++ BitVec.ofBool x)) (w.code) 4 3 (by decide)).trans ((fld_append_high (rm.code) ((0#2 ++ BitVec.ofBool x)) 3 3 (by decide)).trans ((fld_self (rm.code))))
  refine (decode_fp _ _ _ _ _ _ (by decide)).trans ?_
  show decodeFp 16 d a 0 (rm.code ++ (0#2 ++ BitVec.ofBool x) ++ w.code) = _
  simp only [decodeFp, h1, h2, h3, h4, RM.ofCode_code, Width.ofCode_code, ofBool_one]
  rfl
theorem fcvt (w : Width) (rm : RM) (sat : Bool) (d : Reg) (a : Reg) : Statement (.fcvt w rm sat d a) := by
  refine statement_of (fun l => wordR l 2 17 d a 0 (rm.code ++ (0#2 ++ BitVec.ofBool sat) ++ w.code)) (fun _ => rfl) fun l hw => ?_
  have h1 : @fld 7 (rm.code ++ (0#2 ++ BitVec.ofBool sat) ++ w.code) 0 1 = w.code := (fld_last (rm.code ++ (0#2 ++ BitVec.ofBool sat)) (w.code))
  have h2 : @fld 7 (rm.code ++ (0#2 ++ BitVec.ofBool sat) ++ w.code) 1 1 = BitVec.ofBool sat := (fld_append_high (rm.code ++ (0#2 ++ BitVec.ofBool sat)) (w.code) 1 1 (by decide)).trans ((fld_append_low (rm.code) ((0#2 ++ BitVec.ofBool sat)) 0 1 (by decide)).trans (((fld_last (0#2) (BitVec.ofBool sat)))))
  have h3 : @fld 7 (rm.code ++ (0#2 ++ BitVec.ofBool sat) ++ w.code) 2 2 = 0#2 := (fld_append_high (rm.code ++ (0#2 ++ BitVec.ofBool sat)) (w.code) 2 2 (by decide)).trans ((fld_append_low (rm.code) ((0#2 ++ BitVec.ofBool sat)) 1 2 (by decide)).trans (((fld_append_high (0#2) (BitVec.ofBool sat) 1 2 (by decide)).trans ((fld_self (0#2))))))
  have h4 : @fld 7 (rm.code ++ (0#2 ++ BitVec.ofBool sat) ++ w.code) 4 3 = rm.code := (fld_append_high (rm.code ++ (0#2 ++ BitVec.ofBool sat)) (w.code) 4 3 (by decide)).trans ((fld_append_high (rm.code) ((0#2 ++ BitVec.ofBool sat)) 3 3 (by decide)).trans ((fld_self (rm.code))))
  refine (decode_fp _ _ _ _ _ _ (by decide)).trans ?_
  show decodeFp 17 d a 0 (rm.code ++ (0#2 ++ BitVec.ofBool sat) ++ w.code) = _
  simp only [decodeFp, h1, h2, h3, h4, RM.ofCode_code, Width.ofCode_code, ofBool_one]
  rfl
theorem fcvti (w : Width) (rm : RM) (d : Reg) (a : Reg) : Statement (.fcvti w rm d a) := by
  refine statement_of (fun l => wordR l 2 18 d a 0 (rm.code ++ (0#3) ++ w.code)) (fun _ => rfl) fun l hw => ?_
  have h1 : @fld 7 (rm.code ++ (0#3) ++ w.code) 0 1 = w.code := (fld_last (rm.code ++ (0#3)) (w.code))
  have h2 : @fld 7 (rm.code ++ (0#3) ++ w.code) 1 3 = (0#3) := (fld_append_high (rm.code ++ (0#3)) (w.code) 1 3 (by decide)).trans ((fld_last (rm.code) ((0#3))))
  have h3 : @fld 7 (rm.code ++ (0#3) ++ w.code) 4 3 = rm.code := (fld_append_high (rm.code ++ (0#3)) (w.code) 4 3 (by decide)).trans ((fld_append_high (rm.code) ((0#3)) 3 3 (by decide)).trans ((fld_self (rm.code))))
  refine (decode_fp _ _ _ _ _ _ (by decide)).trans ?_
  show decodeFp 18 d a 0 (rm.code ++ (0#3) ++ w.code) = _
  simp only [decodeFp, h1, h2, h3, RM.ofCode_code, Width.ofCode_code]
  rfl
theorem fcvtf (w : Width) (rm : RM) (d : Reg) (a : Reg) : Statement (.fcvtf w rm d a) := by
  refine statement_of (fun l => wordR l 2 19 d a 0 (rm.code ++ (0#3) ++ w.code)) (fun _ => rfl) fun l hw => ?_
  have h1 : @fld 7 (rm.code ++ (0#3) ++ w.code) 0 1 = w.code := (fld_last (rm.code ++ (0#3)) (w.code))
  have h2 : @fld 7 (rm.code ++ (0#3) ++ w.code) 1 3 = (0#3) := (fld_append_high (rm.code ++ (0#3)) (w.code) 1 3 (by decide)).trans ((fld_last (rm.code) ((0#3))))
  have h3 : @fld 7 (rm.code ++ (0#3) ++ w.code) 4 3 = rm.code := (fld_append_high (rm.code ++ (0#3)) (w.code) 4 3 (by decide)).trans ((fld_append_high (rm.code) ((0#3)) 3 3 (by decide)).trans ((fld_self (rm.code))))
  refine (decode_fp _ _ _ _ _ _ (by decide)).trans ?_
  show decodeFp 19 d a 0 (rm.code ++ (0#3) ++ w.code) = _
  simp only [decodeFp, h1, h2, h3, RM.ofCode_code, Width.ofCode_code]
  rfl
theorem fmvg (w : Width) (rm : RM) (d : Reg) (a : Reg) : Statement (.fmvg w rm d a) := by
  refine statement_of (fun l => wordR l 2 20 d a 0 (rm.code ++ (0#3) ++ w.code)) (fun _ => rfl) fun l hw => ?_
  have h1 : @fld 7 (rm.code ++ (0#3) ++ w.code) 0 1 = w.code := (fld_last (rm.code ++ (0#3)) (w.code))
  have h2 : @fld 7 (rm.code ++ (0#3) ++ w.code) 1 3 = (0#3) := (fld_append_high (rm.code ++ (0#3)) (w.code) 1 3 (by decide)).trans ((fld_last (rm.code) ((0#3))))
  have h3 : @fld 7 (rm.code ++ (0#3) ++ w.code) 4 3 = rm.code := (fld_append_high (rm.code ++ (0#3)) (w.code) 4 3 (by decide)).trans ((fld_append_high (rm.code) ((0#3)) 3 3 (by decide)).trans ((fld_self (rm.code))))
  refine (decode_fp _ _ _ _ _ _ (by decide)).trans ?_
  show decodeFp 20 d a 0 (rm.code ++ (0#3) ++ w.code) = _
  simp only [decodeFp, h1, h2, h3, RM.ofCode_code, Width.ofCode_code]
  rfl
theorem fmvf (w : Width) (rm : RM) (d : Reg) (a : Reg) : Statement (.fmvf w rm d a) := by
  refine statement_of (fun l => wordR l 2 21 d a 0 (rm.code ++ (0#3) ++ w.code)) (fun _ => rfl) fun l hw => ?_
  have h1 : @fld 7 (rm.code ++ (0#3) ++ w.code) 0 1 = w.code := (fld_last (rm.code ++ (0#3)) (w.code))
  have h2 : @fld 7 (rm.code ++ (0#3) ++ w.code) 1 3 = (0#3) := (fld_append_high (rm.code ++ (0#3)) (w.code) 1 3 (by decide)).trans ((fld_last (rm.code) ((0#3))))
  have h3 : @fld 7 (rm.code ++ (0#3) ++ w.code) 4 3 = rm.code := (fld_append_high (rm.code ++ (0#3)) (w.code) 4 3 (by decide)).trans ((fld_append_high (rm.code) ((0#3)) 3 3 (by decide)).trans ((fld_self (rm.code))))
  refine (decode_fp _ _ _ _ _ _ (by decide)).trans ?_
  show decodeFp 21 d a 0 (rm.code ++ (0#3) ++ w.code) = _
  simp only [decodeFp, h1, h2, h3, RM.ofCode_code, Width.ofCode_code]
  rfl
theorem fscale (w : Width) (rm : RM) (d : Reg) (a : Reg) (b : Reg) : Statement (.fscale w rm d a b) := by
  refine statement_of (fun l => wordR l 2 22 d a b (rm.code ++ (0#3) ++ w.code)) (fun _ => rfl) fun l hw => ?_
  have h1 : @fld 7 (rm.code ++ (0#3) ++ w.code) 0 1 = w.code := (fld_last (rm.code ++ (0#3)) (w.code))
  have h2 : @fld 7 (rm.code ++ (0#3) ++ w.code) 1 3 = (0#3) := (fld_append_high (rm.code ++ (0#3)) (w.code) 1 3 (by decide)).trans ((fld_last (rm.code) ((0#3))))
  have h3 : @fld 7 (rm.code ++ (0#3) ++ w.code) 4 3 = rm.code := (fld_append_high (rm.code ++ (0#3)) (w.code) 4 3 (by decide)).trans ((fld_append_high (rm.code) ((0#3)) 3 3 (by decide)).trans ((fld_self (rm.code))))
  refine (decode_fp _ _ _ _ _ _ (by decide)).trans ?_
  show decodeFp 22 d a b (rm.code ++ (0#3) ++ w.code) = _
  simp only [decodeFp, h1, h2, h3, RM.ofCode_code, Width.ofCode_code]
  rfl
theorem fexp (w : Width) (rm : RM) (d : Reg) (a : Reg) : Statement (.fexp w rm d a) := by
  refine statement_of (fun l => wordR l 2 23 d a 0 (rm.code ++ (0#3) ++ w.code)) (fun _ => rfl) fun l hw => ?_
  have h1 : @fld 7 (rm.code ++ (0#3) ++ w.code) 0 1 = w.code := (fld_last (rm.code ++ (0#3)) (w.code))
  have h2 : @fld 7 (rm.code ++ (0#3) ++ w.code) 1 3 = (0#3) := (fld_append_high (rm.code ++ (0#3)) (w.code) 1 3 (by decide)).trans ((fld_last (rm.code) ((0#3))))
  have h3 : @fld 7 (rm.code ++ (0#3) ++ w.code) 4 3 = rm.code := (fld_append_high (rm.code ++ (0#3)) (w.code) 4 3 (by decide)).trans ((fld_append_high (rm.code) ((0#3)) 3 3 (by decide)).trans ((fld_self (rm.code))))
  refine (decode_fp _ _ _ _ _ _ (by decide)).trans ?_
  show decodeFp 23 d a 0 (rm.code ++ (0#3) ++ w.code) = _
  simp only [decodeFp, h1, h2, h3, RM.ofCode_code, Width.ofCode_code]
  rfl
theorem fexp2 (w : Width) (rm : RM) (d : Reg) (a : Reg) : Statement (.fexp2 w rm d a) := by
  refine statement_of (fun l => wordR l 2 24 d a 0 (rm.code ++ (0#3) ++ w.code)) (fun _ => rfl) fun l hw => ?_
  have h1 : @fld 7 (rm.code ++ (0#3) ++ w.code) 0 1 = w.code := (fld_last (rm.code ++ (0#3)) (w.code))
  have h2 : @fld 7 (rm.code ++ (0#3) ++ w.code) 1 3 = (0#3) := (fld_append_high (rm.code ++ (0#3)) (w.code) 1 3 (by decide)).trans ((fld_last (rm.code) ((0#3))))
  have h3 : @fld 7 (rm.code ++ (0#3) ++ w.code) 4 3 = rm.code := (fld_append_high (rm.code ++ (0#3)) (w.code) 4 3 (by decide)).trans ((fld_append_high (rm.code) ((0#3)) 3 3 (by decide)).trans ((fld_self (rm.code))))
  refine (decode_fp _ _ _ _ _ _ (by decide)).trans ?_
  show decodeFp 24 d a 0 (rm.code ++ (0#3) ++ w.code) = _
  simp only [decodeFp, h1, h2, h3, RM.ofCode_code, Width.ofCode_code]
  rfl
theorem flog (w : Width) (rm : RM) (d : Reg) (a : Reg) : Statement (.flog w rm d a) := by
  refine statement_of (fun l => wordR l 2 25 d a 0 (rm.code ++ (0#3) ++ w.code)) (fun _ => rfl) fun l hw => ?_
  have h1 : @fld 7 (rm.code ++ (0#3) ++ w.code) 0 1 = w.code := (fld_last (rm.code ++ (0#3)) (w.code))
  have h2 : @fld 7 (rm.code ++ (0#3) ++ w.code) 1 3 = (0#3) := (fld_append_high (rm.code ++ (0#3)) (w.code) 1 3 (by decide)).trans ((fld_last (rm.code) ((0#3))))
  have h3 : @fld 7 (rm.code ++ (0#3) ++ w.code) 4 3 = rm.code := (fld_append_high (rm.code ++ (0#3)) (w.code) 4 3 (by decide)).trans ((fld_append_high (rm.code) ((0#3)) 3 3 (by decide)).trans ((fld_self (rm.code))))
  refine (decode_fp _ _ _ _ _ _ (by decide)).trans ?_
  show decodeFp 25 d a 0 (rm.code ++ (0#3) ++ w.code) = _
  simp only [decodeFp, h1, h2, h3, RM.ofCode_code, Width.ofCode_code]
  rfl
theorem flog2 (w : Width) (rm : RM) (d : Reg) (a : Reg) : Statement (.flog2 w rm d a) := by
  refine statement_of (fun l => wordR l 2 26 d a 0 (rm.code ++ (0#3) ++ w.code)) (fun _ => rfl) fun l hw => ?_
  have h1 : @fld 7 (rm.code ++ (0#3) ++ w.code) 0 1 = w.code := (fld_last (rm.code ++ (0#3)) (w.code))
  have h2 : @fld 7 (rm.code ++ (0#3) ++ w.code) 1 3 = (0#3) := (fld_append_high (rm.code ++ (0#3)) (w.code) 1 3 (by decide)).trans ((fld_last (rm.code) ((0#3))))
  have h3 : @fld 7 (rm.code ++ (0#3) ++ w.code) 4 3 = rm.code := (fld_append_high (rm.code ++ (0#3)) (w.code) 4 3 (by decide)).trans ((fld_append_high (rm.code) ((0#3)) 3 3 (by decide)).trans ((fld_self (rm.code))))
  refine (decode_fp _ _ _ _ _ _ (by decide)).trans ?_
  show decodeFp 26 d a 0 (rm.code ++ (0#3) ++ w.code) = _
  simp only [decodeFp, h1, h2, h3, RM.ofCode_code, Width.ofCode_code]
  rfl
theorem frcp (w : Width) (rm : RM) (d : Reg) (a : Reg) : Statement (.frcp w rm d a) := by
  refine statement_of (fun l => wordR l 2 27 d a 0 (rm.code ++ (0#3) ++ w.code)) (fun _ => rfl) fun l hw => ?_
  have h1 : @fld 7 (rm.code ++ (0#3) ++ w.code) 0 1 = w.code := (fld_last (rm.code ++ (0#3)) (w.code))
  have h2 : @fld 7 (rm.code ++ (0#3) ++ w.code) 1 3 = (0#3) := (fld_append_high (rm.code ++ (0#3)) (w.code) 1 3 (by decide)).trans ((fld_last (rm.code) ((0#3))))
  have h3 : @fld 7 (rm.code ++ (0#3) ++ w.code) 4 3 = rm.code := (fld_append_high (rm.code ++ (0#3)) (w.code) 4 3 (by decide)).trans ((fld_append_high (rm.code) ((0#3)) 3 3 (by decide)).trans ((fld_self (rm.code))))
  refine (decode_fp _ _ _ _ _ _ (by decide)).trans ?_
  show decodeFp 27 d a 0 (rm.code ++ (0#3) ++ w.code) = _
  simp only [decodeFp, h1, h2, h3, RM.ofCode_code, Width.ofCode_code]
  rfl
theorem frsq (w : Width) (rm : RM) (d : Reg) (a : Reg) : Statement (.frsq w rm d a) := by
  refine statement_of (fun l => wordR l 2 28 d a 0 (rm.code ++ (0#3) ++ w.code)) (fun _ => rfl) fun l hw => ?_
  have h1 : @fld 7 (rm.code ++ (0#3) ++ w.code) 0 1 = w.code := (fld_last (rm.code ++ (0#3)) (w.code))
  have h2 : @fld 7 (rm.code ++ (0#3) ++ w.code) 1 3 = (0#3) := (fld_append_high (rm.code ++ (0#3)) (w.code) 1 3 (by decide)).trans ((fld_last (rm.code) ((0#3))))
  have h3 : @fld 7 (rm.code ++ (0#3) ++ w.code) 4 3 = rm.code := (fld_append_high (rm.code ++ (0#3)) (w.code) 4 3 (by decide)).trans ((fld_append_high (rm.code) ((0#3)) 3 3 (by decide)).trans ((fld_self (rm.code))))
  refine (decode_fp _ _ _ _ _ _ (by decide)).trans ?_
  show decodeFp 28 d a 0 (rm.code ++ (0#3) ++ w.code) = _
  simp only [decodeFp, h1, h2, h3, RM.ofCode_code, Width.ofCode_code]
  rfl
theorem fsin (w : Width) (rm : RM) (d : Reg) (a : Reg) : Statement (.fsin w rm d a) := by
  refine statement_of (fun l => wordR l 2 29 d a 0 (rm.code ++ (0#3) ++ w.code)) (fun _ => rfl) fun l hw => ?_
  have h1 : @fld 7 (rm.code ++ (0#3) ++ w.code) 0 1 = w.code := (fld_last (rm.code ++ (0#3)) (w.code))
  have h2 : @fld 7 (rm.code ++ (0#3) ++ w.code) 1 3 = (0#3) := (fld_append_high (rm.code ++ (0#3)) (w.code) 1 3 (by decide)).trans ((fld_last (rm.code) ((0#3))))
  have h3 : @fld 7 (rm.code ++ (0#3) ++ w.code) 4 3 = rm.code := (fld_append_high (rm.code ++ (0#3)) (w.code) 4 3 (by decide)).trans ((fld_append_high (rm.code) ((0#3)) 3 3 (by decide)).trans ((fld_self (rm.code))))
  refine (decode_fp _ _ _ _ _ _ (by decide)).trans ?_
  show decodeFp 29 d a 0 (rm.code ++ (0#3) ++ w.code) = _
  simp only [decodeFp, h1, h2, h3, RM.ofCode_code, Width.ofCode_code]
  rfl
theorem fcos (w : Width) (rm : RM) (d : Reg) (a : Reg) : Statement (.fcos w rm d a) := by
  refine statement_of (fun l => wordR l 2 30 d a 0 (rm.code ++ (0#3) ++ w.code)) (fun _ => rfl) fun l hw => ?_
  have h1 : @fld 7 (rm.code ++ (0#3) ++ w.code) 0 1 = w.code := (fld_last (rm.code ++ (0#3)) (w.code))
  have h2 : @fld 7 (rm.code ++ (0#3) ++ w.code) 1 3 = (0#3) := (fld_append_high (rm.code ++ (0#3)) (w.code) 1 3 (by decide)).trans ((fld_last (rm.code) ((0#3))))
  have h3 : @fld 7 (rm.code ++ (0#3) ++ w.code) 4 3 = rm.code := (fld_append_high (rm.code ++ (0#3)) (w.code) 4 3 (by decide)).trans ((fld_append_high (rm.code) ((0#3)) 3 3 (by decide)).trans ((fld_self (rm.code))))
  refine (decode_fp _ _ _ _ _ _ (by decide)).trans ?_
  show decodeFp 30 d a 0 (rm.code ++ (0#3) ++ w.code) = _
  simp only [decodeFp, h1, h2, h3, RM.ofCode_code, Width.ofCode_code]
  rfl
theorem ftanh (w : Width) (rm : RM) (d : Reg) (a : Reg) : Statement (.ftanh w rm d a) := by
  refine statement_of (fun l => wordR l 2 31 d a 0 (rm.code ++ (0#3) ++ w.code)) (fun _ => rfl) fun l hw => ?_
  have h1 : @fld 7 (rm.code ++ (0#3) ++ w.code) 0 1 = w.code := (fld_last (rm.code ++ (0#3)) (w.code))
  have h2 : @fld 7 (rm.code ++ (0#3) ++ w.code) 1 3 = (0#3) := (fld_append_high (rm.code ++ (0#3)) (w.code) 1 3 (by decide)).trans ((fld_last (rm.code) ((0#3))))
  have h3 : @fld 7 (rm.code ++ (0#3) ++ w.code) 4 3 = rm.code := (fld_append_high (rm.code ++ (0#3)) (w.code) 4 3 (by decide)).trans ((fld_append_high (rm.code) ((0#3)) 3 3 (by decide)).trans ((fld_self (rm.code))))
  refine (decode_fp _ _ _ _ _ _ (by decide)).trans ?_
  show decodeFp 31 d a 0 (rm.code ++ (0#3) ++ w.code) = _
  simp only [decodeFp, h1, h2, h3, RM.ofCode_code, Width.ofCode_code]
  rfl
theorem ferf (w : Width) (rm : RM) (d : Reg) (a : Reg) : Statement (.ferf w rm d a) := by
  refine statement_of (fun l => wordR l 2 32 d a 0 (rm.code ++ (0#3) ++ w.code)) (fun _ => rfl) fun l hw => ?_
  have h1 : @fld 7 (rm.code ++ (0#3) ++ w.code) 0 1 = w.code := (fld_last (rm.code ++ (0#3)) (w.code))
  have h2 : @fld 7 (rm.code ++ (0#3) ++ w.code) 1 3 = (0#3) := (fld_append_high (rm.code ++ (0#3)) (w.code) 1 3 (by decide)).trans ((fld_last (rm.code) ((0#3))))
  have h3 : @fld 7 (rm.code ++ (0#3) ++ w.code) 4 3 = rm.code := (fld_append_high (rm.code ++ (0#3)) (w.code) 4 3 (by decide)).trans ((fld_append_high (rm.code) ((0#3)) 3 3 (by decide)).trans ((fld_self (rm.code))))
  refine (decode_fp _ _ _ _ _ _ (by decide)).trans ?_
  show decodeFp 32 d a 0 (rm.code ++ (0#3) ++ w.code) = _
  simp only [decodeFp, h1, h2, h3, RM.ofCode_code, Width.ofCode_code]
  rfl
theorem fma (w : Width) (rm : RM) (d : Reg) (a : Reg) (b : Reg) (c : Reg) : Statement (.fma w rm d a b c) := by
  refine statement_of (fun l => wordQ l 0 d a b c rm.code w.code) (fun _ => rfl) fun l hw => ?_
  refine (decode_fq ..).trans ?_
  show decodeFq 0 d a b c (rm.code) (w.code) = _
  simp only [decodeFq, RM.ofCode_code, Width.ofCode_code]
  rfl
theorem fms (w : Width) (rm : RM) (d : Reg) (a : Reg) (b : Reg) (c : Reg) : Statement (.fms w rm d a b c) := by
  refine statement_of (fun l => wordQ l 1 d a b c rm.code w.code) (fun _ => rfl) fun l hw => ?_
  refine (decode_fq ..).trans ?_
  show decodeFq 1 d a b c (rm.code) (w.code) = _
  simp only [decodeFq, RM.ofCode_code, Width.ofCode_code]
  rfl
theorem fnma (w : Width) (rm : RM) (d : Reg) (a : Reg) (b : Reg) (c : Reg) : Statement (.fnma w rm d a b c) := by
  refine statement_of (fun l => wordQ l 2 d a b c rm.code w.code) (fun _ => rfl) fun l hw => ?_
  refine (decode_fq ..).trans ?_
  show decodeFq 2 d a b c (rm.code) (w.code) = _
  simp only [decodeFq, RM.ofCode_code, Width.ofCode_code]
  rfl
theorem fnms (w : Width) (rm : RM) (d : Reg) (a : Reg) (b : Reg) (c : Reg) : Statement (.fnms w rm d a b c) := by
  refine statement_of (fun l => wordQ l 3 d a b c rm.code w.code) (fun _ => rfl) fun l hw => ?_
  refine (decode_fq ..).trans ?_
  show decodeFq 3 d a b c (rm.code) (w.code) = _
  simp only [decodeFq, RM.ofCode_code, Width.ofCode_code]
  rfl
theorem vadd (w : Width) (rm : RM) (d : VReg) (a : VReg) (b : VReg) : Statement (.vadd w rm d a b) := by
  refine statement_of (fun l => wordV l 0 d a b rm.code w.code) (fun _ => rfl) fun l hw => ?_
  refine (decode_vec ..).trans ?_
  show decodeVec 0 d a b (rm.code) (w.code) = _
  simp only [decodeVec, RM.ofCode_code, Width.ofCode_code]
  rfl
theorem vsub (w : Width) (rm : RM) (d : VReg) (a : VReg) (b : VReg) : Statement (.vsub w rm d a b) := by
  refine statement_of (fun l => wordV l 1 d a b rm.code w.code) (fun _ => rfl) fun l hw => ?_
  refine (decode_vec ..).trans ?_
  show decodeVec 1 d a b (rm.code) (w.code) = _
  simp only [decodeVec, RM.ofCode_code, Width.ofCode_code]
  rfl
theorem vmul (w : Width) (rm : RM) (d : VReg) (a : VReg) (b : VReg) : Statement (.vmul w rm d a b) := by
  refine statement_of (fun l => wordV l 2 d a b rm.code w.code) (fun _ => rfl) fun l hw => ?_
  refine (decode_vec ..).trans ?_
  show decodeVec 2 d a b (rm.code) (w.code) = _
  simp only [decodeVec, RM.ofCode_code, Width.ofCode_code]
  rfl
theorem vfma (w : Width) (rm : RM) (d : VReg) (a : VReg) (b : VReg) : Statement (.vfma w rm d a b) := by
  refine statement_of (fun l => wordV l 3 d a b rm.code w.code) (fun _ => rfl) fun l hw => ?_
  refine (decode_vec ..).trans ?_
  show decodeVec 3 d a b (rm.code) (w.code) = _
  simp only [decodeVec, RM.ofCode_code, Width.ofCode_code]
  rfl
theorem vfms (w : Width) (rm : RM) (d : VReg) (a : VReg) (b : VReg) : Statement (.vfms w rm d a b) := by
  refine statement_of (fun l => wordV l 4 d a b rm.code w.code) (fun _ => rfl) fun l hw => ?_
  refine (decode_vec ..).trans ?_
  show decodeVec 4 d a b (rm.code) (w.code) = _
  simp only [decodeVec, RM.ofCode_code, Width.ofCode_code]
  rfl
theorem vdiv (w : Width) (rm : RM) (d : VReg) (a : VReg) (b : VReg) : Statement (.vdiv w rm d a b) := by
  refine statement_of (fun l => wordV l 5 d a b rm.code w.code) (fun _ => rfl) fun l hw => ?_
  refine (decode_vec ..).trans ?_
  show decodeVec 5 d a b (rm.code) (w.code) = _
  simp only [decodeVec, RM.ofCode_code, Width.ofCode_code]
  rfl
theorem vsqrt (w : Width) (rm : RM) (d : VReg) (a : VReg) : Statement (.vsqrt w rm d a) := by
  refine statement_of (fun l => wordV l 6 d a 0 rm.code w.code) (fun _ => rfl) fun l hw => ?_
  refine (decode_vec ..).trans ?_
  show decodeVec 6 d a 0 (rm.code) (w.code) = _
  simp only [decodeVec, RM.ofCode_code, Width.ofCode_code]
  rfl
theorem vmin (w : Width) (rm : RM) (d : VReg) (a : VReg) (b : VReg) : Statement (.vmin w rm d a b) := by
  refine statement_of (fun l => wordV l 7 d a b rm.code w.code) (fun _ => rfl) fun l hw => ?_
  refine (decode_vec ..).trans ?_
  show decodeVec 7 d a b (rm.code) (w.code) = _
  simp only [decodeVec, RM.ofCode_code, Width.ofCode_code]
  rfl
theorem vmax (w : Width) (rm : RM) (d : VReg) (a : VReg) (b : VReg) : Statement (.vmax w rm d a b) := by
  refine statement_of (fun l => wordV l 8 d a b rm.code w.code) (fun _ => rfl) fun l hw => ?_
  refine (decode_vec ..).trans ?_
  show decodeVec 8 d a b (rm.code) (w.code) = _
  simp only [decodeVec, RM.ofCode_code, Width.ofCode_code]
  rfl
theorem vand (w : Width) (rm : RM) (d : VReg) (a : VReg) (b : VReg) : Statement (.vand w rm d a b) := by
  refine statement_of (fun l => wordV l 9 d a b rm.code w.code) (fun _ => rfl) fun l hw => ?_
  refine (decode_vec ..).trans ?_
  show decodeVec 9 d a b (rm.code) (w.code) = _
  simp only [decodeVec, RM.ofCode_code, Width.ofCode_code]
  rfl
theorem vor (w : Width) (rm : RM) (d : VReg) (a : VReg) (b : VReg) : Statement (.vor w rm d a b) := by
  refine statement_of (fun l => wordV l 10 d a b rm.code w.code) (fun _ => rfl) fun l hw => ?_
  refine (decode_vec ..).trans ?_
  show decodeVec 10 d a b (rm.code) (w.code) = _
  simp only [decodeVec, RM.ofCode_code, Width.ofCode_code]
  rfl
theorem vxor (w : Width) (rm : RM) (d : VReg) (a : VReg) (b : VReg) : Statement (.vxor w rm d a b) := by
  refine statement_of (fun l => wordV l 11 d a b rm.code w.code) (fun _ => rfl) fun l hw => ?_
  refine (decode_vec ..).trans ?_
  show decodeVec 11 d a b (rm.code) (w.code) = _
  simp only [decodeVec, RM.ofCode_code, Width.ofCode_code]
  rfl
theorem vsll (w : Width) (rm : RM) (d : VReg) (a : VReg) (b : VReg) : Statement (.vsll w rm d a b) := by
  refine statement_of (fun l => wordV l 12 d a b rm.code w.code) (fun _ => rfl) fun l hw => ?_
  refine (decode_vec ..).trans ?_
  show decodeVec 12 d a b (rm.code) (w.code) = _
  simp only [decodeVec, RM.ofCode_code, Width.ofCode_code]
  rfl
theorem vsrl (w : Width) (rm : RM) (d : VReg) (a : VReg) (b : VReg) : Statement (.vsrl w rm d a b) := by
  refine statement_of (fun l => wordV l 13 d a b rm.code w.code) (fun _ => rfl) fun l hw => ?_
  refine (decode_vec ..).trans ?_
  show decodeVec 13 d a b (rm.code) (w.code) = _
  simp only [decodeVec, RM.ofCode_code, Width.ofCode_code]
  rfl
theorem vsra (w : Width) (rm : RM) (d : VReg) (a : VReg) (b : VReg) : Statement (.vsra w rm d a b) := by
  refine statement_of (fun l => wordV l 14 d a b rm.code w.code) (fun _ => rfl) fun l hw => ?_
  refine (decode_vec ..).trans ?_
  show decodeVec 14 d a b (rm.code) (w.code) = _
  simp only [decodeVec, RM.ofCode_code, Width.ofCode_code]
  rfl
theorem vcmpeq (w : Width) (rm : RM) (d : VReg) (a : VReg) (b : VReg) : Statement (.vcmpeq w rm d a b) := by
  refine statement_of (fun l => wordV l 15 d a b rm.code w.code) (fun _ => rfl) fun l hw => ?_
  refine (decode_vec ..).trans ?_
  show decodeVec 15 d a b (rm.code) (w.code) = _
  simp only [decodeVec, RM.ofCode_code, Width.ofCode_code]
  rfl
theorem vcmplt (w : Width) (rm : RM) (d : VReg) (a : VReg) (b : VReg) : Statement (.vcmplt w rm d a b) := by
  refine statement_of (fun l => wordV l 16 d a b rm.code w.code) (fun _ => rfl) fun l hw => ?_
  refine (decode_vec ..).trans ?_
  show decodeVec 16 d a b (rm.code) (w.code) = _
  simp only [decodeVec, RM.ofCode_code, Width.ofCode_code]
  rfl
theorem vcmple (w : Width) (rm : RM) (d : VReg) (a : VReg) (b : VReg) : Statement (.vcmple w rm d a b) := by
  refine statement_of (fun l => wordV l 17 d a b rm.code w.code) (fun _ => rfl) fun l hw => ?_
  refine (decode_vec ..).trans ?_
  show decodeVec 17 d a b (rm.code) (w.code) = _
  simp only [decodeVec, RM.ofCode_code, Width.ofCode_code]
  rfl
theorem vsel (w : Width) (rm : RM) (d : VReg) (a : VReg) (b : VReg) : Statement (.vsel w rm d a b) := by
  refine statement_of (fun l => wordV l 18 d a b rm.code w.code) (fun _ => rfl) fun l hw => ?_
  refine (decode_vec ..).trans ?_
  show decodeVec 18 d a b (rm.code) (w.code) = _
  simp only [decodeVec, RM.ofCode_code, Width.ofCode_code]
  rfl
theorem vcvt (w : Width) (rm : RM) (sat : Bool) (d : VReg) (a : VReg) (part : BitVec 4) : Statement (.vcvt w rm sat d a part) := by
  refine statement_of (fun l => wordV l 19 d a (0#1 ++ part ++ BitVec.ofBool sat) rm.code w.code) (fun _ => rfl) fun l hw => ?_
  have h1 : @fld 6 (0#1 ++ part ++ BitVec.ofBool sat) 0 1 = BitVec.ofBool sat := (fld_last (0#1 ++ part) (BitVec.ofBool sat))
  have h2 : @fld 6 (0#1 ++ part ++ BitVec.ofBool sat) 1 4 = part := (fld_append_high (0#1 ++ part) (BitVec.ofBool sat) 1 4 (by decide)).trans ((fld_last (0#1) (part)))
  have h3 : @fld 6 (0#1 ++ part ++ BitVec.ofBool sat) 5 1 = 0#1 := (fld_append_high (0#1 ++ part) (BitVec.ofBool sat) 5 1 (by decide)).trans ((fld_append_high (0#1) (part) 4 1 (by decide)).trans ((fld_self (0#1))))
  refine (decode_vec ..).trans ?_
  show decodeVec 19 d a (0#1 ++ part ++ BitVec.ofBool sat) (rm.code) (w.code) = _
  simp only [decodeVec, h1, h2, h3, RM.ofCode_code, Width.ofCode_code, ofBool_one]
  rfl
theorem vrsum (w : Width) (rm : RM) (d : VReg) (a : VReg) (b : VReg) : Statement (.vrsum w rm d a b) := by
  refine statement_of (fun l => wordV l 20 d a b rm.code w.code) (fun _ => rfl) fun l hw => ?_
  refine (decode_vec ..).trans ?_
  show decodeVec 20 d a b (rm.code) (w.code) = _
  simp only [decodeVec, RM.ofCode_code, Width.ofCode_code]
  rfl
theorem vrmax (w : Width) (rm : RM) (d : VReg) (a : VReg) (b : VReg) : Statement (.vrmax w rm d a b) := by
  refine statement_of (fun l => wordV l 21 d a b rm.code w.code) (fun _ => rfl) fun l hw => ?_
  refine (decode_vec ..).trans ?_
  show decodeVec 21 d a b (rm.code) (w.code) = _
  simp only [decodeVec, RM.ofCode_code, Width.ofCode_code]
  rfl
theorem vrmin (w : Width) (rm : RM) (d : VReg) (a : VReg) (b : VReg) : Statement (.vrmin w rm d a b) := by
  refine statement_of (fun l => wordV l 22 d a b rm.code w.code) (fun _ => rfl) fun l hw => ?_
  refine (decode_vec ..).trans ?_
  show decodeVec 22 d a b (rm.code) (w.code) = _
  simp only [decodeVec, RM.ofCode_code, Width.ofCode_code]
  rfl
theorem vdot (w : Width) (rm : RM) (d : VReg) (a : VReg) (b : VReg) : Statement (.vdot w rm d a b) := by
  refine statement_of (fun l => wordV l 23 d a b rm.code w.code) (fun _ => rfl) fun l hw => ?_
  refine (decode_vec ..).trans ?_
  show decodeVec 23 d a b (rm.code) (w.code) = _
  simp only [decodeVec, RM.ofCode_code, Width.ofCode_code]
  rfl
theorem vbcst (w : Width) (rm : RM) (d : VReg) (rs : SReg) : Statement (.vbcst w rm d rs) := by
  refine statement_of (fun l => wordV l 24 d rs.code 0 rm.code w.code) (fun _ => rfl) fun l hw => ?_
  refine (decode_vec ..).trans ?_
  show decodeVec 24 d (rs.code) 0 (rm.code) (w.code) = _
  simp only [decodeVec, RM.ofCode_code, Width.ofCode_code, SReg.ofCode_code]
  rfl
theorem vext (w : Width) (rm : RM) (rd : SReg) (a : VReg) (lane : BitVec 6) : Statement (.vext w rm rd a lane) := by
  refine statement_of (fun l => wordV l 25 rd.code a lane rm.code w.code) (fun _ => rfl) fun l hw => ?_
  refine (decode_vec ..).trans ?_
  show decodeVec 25 (rd.code) a lane (rm.code) (w.code) = _
  simp only [decodeVec, RM.ofCode_code, Width.ofCode_code, SReg.ofCode_code]
  rfl
theorem vins (w : Width) (rm : RM) (d : VReg) (rs : SReg) (lane : BitVec 6) : Statement (.vins w rm d rs lane) := by
  refine statement_of (fun l => wordV l 26 d rs.code lane rm.code w.code) (fun _ => rfl) fun l hw => ?_
  refine (decode_vec ..).trans ?_
  show decodeVec 26 d (rs.code) lane (rm.code) (w.code) = _
  simp only [decodeVec, RM.ofCode_code, Width.ofCode_code, SReg.ofCode_code]
  rfl
theorem vperm (w : Width) (rm : RM) (d : VReg) (a : VReg) (b : VReg) : Statement (.vperm w rm d a b) := by
  refine statement_of (fun l => wordV l 27 d a b rm.code w.code) (fun _ => rfl) fun l hw => ?_
  refine (decode_vec ..).trans ?_
  show decodeVec 27 d a b (rm.code) (w.code) = _
  simp only [decodeVec, RM.ofCode_code, Width.ofCode_code]
  rfl
theorem vmov (w : Width) (rm : RM) (d : VReg) (a : VReg) : Statement (.vmov w rm d a) := by
  refine statement_of (fun l => wordV l 28 d a 0 rm.code w.code) (fun _ => rfl) fun l hw => ?_
  refine (decode_vec ..).trans ?_
  show decodeVec 28 d a 0 (rm.code) (w.code) = _
  simp only [decodeVec, RM.ofCode_code, Width.ofCode_code]
  rfl
theorem vfn (w : Width) (rm : RM) (d : VReg) (a : VReg) (fn : TFn) : Statement (.vfn w rm d a fn) := by
  refine statement_of (fun l => wordV l 29 d a fn.code rm.code w.code) (fun _ => rfl) fun l hw => ?_
  refine (decode_vec ..).trans ?_
  show decodeVec 29 d a (fn.code) (rm.code) (w.code) = _
  simp only [decodeVec, RM.ofCode_code, Width.ofCode_code, TFn.ofCode_code]
  rfl
theorem ldb (t : Reg) (b : Reg) (disp : BitVec 12) : Statement (.ldb t b disp) := by
  refine statement_of (fun l => wordI l 4 0 t b disp) (fun _ => rfl) fun l hw => ?_
  refine (decode_memM _ _ _ _ _ (by decide)).trans ?_
  show decodeMemM 0 t b disp = _
  simp only [decodeMemM]
theorem ldbu (t : Reg) (b : Reg) (disp : BitVec 12) : Statement (.ldbu t b disp) := by
  refine statement_of (fun l => wordI l 4 1 t b disp) (fun _ => rfl) fun l hw => ?_
  refine (decode_memM _ _ _ _ _ (by decide)).trans ?_
  show decodeMemM 1 t b disp = _
  simp only [decodeMemM]
theorem ldh (t : Reg) (b : Reg) (disp : BitVec 12) : Statement (.ldh t b disp) := by
  refine statement_of (fun l => wordI l 4 2 t b disp) (fun _ => rfl) fun l hw => ?_
  refine (decode_memM _ _ _ _ _ (by decide)).trans ?_
  show decodeMemM 2 t b disp = _
  simp only [decodeMemM]
theorem ldhu (t : Reg) (b : Reg) (disp : BitVec 12) : Statement (.ldhu t b disp) := by
  refine statement_of (fun l => wordI l 4 3 t b disp) (fun _ => rfl) fun l hw => ?_
  refine (decode_memM _ _ _ _ _ (by decide)).trans ?_
  show decodeMemM 3 t b disp = _
  simp only [decodeMemM]
theorem ldw (t : Reg) (b : Reg) (disp : BitVec 12) : Statement (.ldw t b disp) := by
  refine statement_of (fun l => wordI l 4 4 t b disp) (fun _ => rfl) fun l hw => ?_
  refine (decode_memM _ _ _ _ _ (by decide)).trans ?_
  show decodeMemM 4 t b disp = _
  simp only [decodeMemM]
theorem ldwu (t : Reg) (b : Reg) (disp : BitVec 12) : Statement (.ldwu t b disp) := by
  refine statement_of (fun l => wordI l 4 5 t b disp) (fun _ => rfl) fun l hw => ?_
  refine (decode_memM _ _ _ _ _ (by decide)).trans ?_
  show decodeMemM 5 t b disp = _
  simp only [decodeMemM]
theorem ldd (t : Reg) (b : Reg) (disp : BitVec 12) : Statement (.ldd t b disp) := by
  refine statement_of (fun l => wordI l 4 6 t b disp) (fun _ => rfl) fun l hw => ?_
  refine (decode_memM _ _ _ _ _ (by decide)).trans ?_
  show decodeMemM 6 t b disp = _
  simp only [decodeMemM]
theorem stb (t : Reg) (b : Reg) (disp : BitVec 12) : Statement (.stb t b disp) := by
  refine statement_of (fun l => wordI l 4 7 t b disp) (fun _ => rfl) fun l hw => ?_
  refine (decode_memM _ _ _ _ _ (by decide)).trans ?_
  show decodeMemM 7 t b disp = _
  simp only [decodeMemM]
theorem sth (t : Reg) (b : Reg) (disp : BitVec 12) : Statement (.sth t b disp) := by
  refine statement_of (fun l => wordI l 4 8 t b disp) (fun _ => rfl) fun l hw => ?_
  refine (decode_memM _ _ _ _ _ (by decide)).trans ?_
  show decodeMemM 8 t b disp = _
  simp only [decodeMemM]
theorem stw (t : Reg) (b : Reg) (disp : BitVec 12) : Statement (.stw t b disp) := by
  refine statement_of (fun l => wordI l 4 9 t b disp) (fun _ => rfl) fun l hw => ?_
  refine (decode_memM _ _ _ _ _ (by decide)).trans ?_
  show decodeMemM 9 t b disp = _
  simp only [decodeMemM]
theorem std (t : Reg) (b : Reg) (disp : BitVec 12) : Statement (.std t b disp) := by
  refine statement_of (fun l => wordI l 4 10 t b disp) (fun _ => rfl) fun l hw => ?_
  refine (decode_memM _ _ _ _ _ (by decide)).trans ?_
  show decodeMemM 10 t b disp = _
  simp only [decodeMemM]
theorem fldw (t : Reg) (b : Reg) (disp : BitVec 12) : Statement (.fldw t b disp) := by
  refine statement_of (fun l => wordI l 4 11 t b disp) (fun _ => rfl) fun l hw => ?_
  refine (decode_memM _ _ _ _ _ (by decide)).trans ?_
  show decodeMemM 11 t b disp = _
  simp only [decodeMemM]
theorem fldd (t : Reg) (b : Reg) (disp : BitVec 12) : Statement (.fldd t b disp) := by
  refine statement_of (fun l => wordI l 4 12 t b disp) (fun _ => rfl) fun l hw => ?_
  refine (decode_memM _ _ _ _ _ (by decide)).trans ?_
  show decodeMemM 12 t b disp = _
  simp only [decodeMemM]
theorem fstw (t : Reg) (b : Reg) (disp : BitVec 12) : Statement (.fstw t b disp) := by
  refine statement_of (fun l => wordI l 4 13 t b disp) (fun _ => rfl) fun l hw => ?_
  refine (decode_memM _ _ _ _ _ (by decide)).trans ?_
  show decodeMemM 13 t b disp = _
  simp only [decodeMemM]
theorem fstd (t : Reg) (b : Reg) (disp : BitVec 12) : Statement (.fstd t b disp) := by
  refine statement_of (fun l => wordI l 4 14 t b disp) (fun _ => rfl) fun l hw => ?_
  refine (decode_memM _ _ _ _ _ (by decide)).trans ?_
  show decodeMemM 14 t b disp = _
  simp only [decodeMemM]
theorem pref (h : Hint) (b : Reg) (disp : BitVec 12) : Statement (.pref h b disp) := by
  refine statement_of (fun l => wordI l 4 15 (0#3 ++ h.code) b disp) (fun _ => rfl) fun l hw => ?_
  have h1 : @fld 5 (0#3 ++ h.code) 0 2 = h.code := (fld_last (0#3) (h.code))
  have h2 : @fld 5 (0#3 ++ h.code) 2 3 = 0#3 := (fld_append_high (0#3) (h.code) 2 3 (by decide)).trans ((fld_self (0#3)))
  refine (decode_memM _ _ _ _ _ (by decide)).trans ?_
  show decodeMemM 15 (0#3 ++ h.code) b disp = _
  simp only [decodeMemM, h1, h2, Hint.ofCode_code]
  rfl
theorem ldaq (w : Width) (o : Ord) (sc : Scope) (t : Reg) (a : Reg) : Statement (.ldaq w o sc t a) := by
  refine statement_of (fun l => wordMO l 16 t a o.code sc.code 0 w.code) (fun _ => rfl) fun l hw => ?_
  refine (decode_memO _ _ _ _ _ _ _ _ (by decide)).trans ?_
  show decodeMemO 16 t a (o.code) (sc.code) 0 (w.code) = _
  simp only [decodeMemO, Width.ofCode_code, Ord.ofCode_code, Scope.ofCode_code]
  exact guardWf_of hw
theorem strl (w : Width) (o : Ord) (sc : Scope) (t : Reg) (a : Reg) : Statement (.strl w o sc t a) := by
  refine statement_of (fun l => wordMO l 17 t a o.code sc.code 0 w.code) (fun _ => rfl) fun l hw => ?_
  refine (decode_memO _ _ _ _ _ _ _ _ (by decide)).trans ?_
  show decodeMemO 17 t a (o.code) (sc.code) 0 (w.code) = _
  simp only [decodeMemO, Width.ofCode_code, Ord.ofCode_code, Scope.ofCode_code]
  exact guardWf_of hw
theorem amoadd (w : Width) (o : Ord) (sc : Scope) (t : Reg) (b : Reg) (a : Reg) : Statement (.amoadd w o sc t b a) := by
  refine statement_of (fun l => wordMO l 18 t a o.code sc.code b w.code) (fun _ => rfl) fun l hw => ?_
  refine (decode_memO _ _ _ _ _ _ _ _ (by decide)).trans ?_
  show decodeMemO 18 t a (o.code) (sc.code) b (w.code) = _
  simp only [decodeMemO, Width.ofCode_code, Ord.ofCode_code, Scope.ofCode_code]
  rfl
theorem amoand (w : Width) (o : Ord) (sc : Scope) (t : Reg) (b : Reg) (a : Reg) : Statement (.amoand w o sc t b a) := by
  refine statement_of (fun l => wordMO l 19 t a o.code sc.code b w.code) (fun _ => rfl) fun l hw => ?_
  refine (decode_memO _ _ _ _ _ _ _ _ (by decide)).trans ?_
  show decodeMemO 19 t a (o.code) (sc.code) b (w.code) = _
  simp only [decodeMemO, Width.ofCode_code, Ord.ofCode_code, Scope.ofCode_code]
  rfl
theorem amoor (w : Width) (o : Ord) (sc : Scope) (t : Reg) (b : Reg) (a : Reg) : Statement (.amoor w o sc t b a) := by
  refine statement_of (fun l => wordMO l 20 t a o.code sc.code b w.code) (fun _ => rfl) fun l hw => ?_
  refine (decode_memO _ _ _ _ _ _ _ _ (by decide)).trans ?_
  show decodeMemO 20 t a (o.code) (sc.code) b (w.code) = _
  simp only [decodeMemO, Width.ofCode_code, Ord.ofCode_code, Scope.ofCode_code]
  rfl
theorem amoxor (w : Width) (o : Ord) (sc : Scope) (t : Reg) (b : Reg) (a : Reg) : Statement (.amoxor w o sc t b a) := by
  refine statement_of (fun l => wordMO l 21 t a o.code sc.code b w.code) (fun _ => rfl) fun l hw => ?_
  refine (decode_memO _ _ _ _ _ _ _ _ (by decide)).trans ?_
  show decodeMemO 21 t a (o.code) (sc.code) b (w.code) = _
  simp only [decodeMemO, Width.ofCode_code, Ord.ofCode_code, Scope.ofCode_code]
  rfl
theorem amomin (w : Width) (o : Ord) (sc : Scope) (t : Reg) (b : Reg) (a : Reg) : Statement (.amomin w o sc t b a) := by
  refine statement_of (fun l => wordMO l 22 t a o.code sc.code b w.code) (fun _ => rfl) fun l hw => ?_
  refine (decode_memO _ _ _ _ _ _ _ _ (by decide)).trans ?_
  show decodeMemO 22 t a (o.code) (sc.code) b (w.code) = _
  simp only [decodeMemO, Width.ofCode_code, Ord.ofCode_code, Scope.ofCode_code]
  rfl
theorem amomax (w : Width) (o : Ord) (sc : Scope) (t : Reg) (b : Reg) (a : Reg) : Statement (.amomax w o sc t b a) := by
  refine statement_of (fun l => wordMO l 23 t a o.code sc.code b w.code) (fun _ => rfl) fun l hw => ?_
  refine (decode_memO _ _ _ _ _ _ _ _ (by decide)).trans ?_
  show decodeMemO 23 t a (o.code) (sc.code) b (w.code) = _
  simp only [decodeMemO, Width.ofCode_code, Ord.ofCode_code, Scope.ofCode_code]
  rfl
theorem amominu (w : Width) (o : Ord) (sc : Scope) (t : Reg) (b : Reg) (a : Reg) : Statement (.amominu w o sc t b a) := by
  refine statement_of (fun l => wordMO l 24 t a o.code sc.code b w.code) (fun _ => rfl) fun l hw => ?_
  refine (decode_memO _ _ _ _ _ _ _ _ (by decide)).trans ?_
  show decodeMemO 24 t a (o.code) (sc.code) b (w.code) = _
  simp only [decodeMemO, Width.ofCode_code, Ord.ofCode_code, Scope.ofCode_code]
  rfl
theorem amomaxu (w : Width) (o : Ord) (sc : Scope) (t : Reg) (b : Reg) (a : Reg) : Statement (.amomaxu w o sc t b a) := by
  refine statement_of (fun l => wordMO l 25 t a o.code sc.code b w.code) (fun _ => rfl) fun l hw => ?_
  refine (decode_memO _ _ _ _ _ _ _ _ (by decide)).trans ?_
  show decodeMemO 25 t a (o.code) (sc.code) b (w.code) = _
  simp only [decodeMemO, Width.ofCode_code, Ord.ofCode_code, Scope.ofCode_code]
  rfl
theorem amoswp (w : Width) (o : Ord) (sc : Scope) (t : Reg) (b : Reg) (a : Reg) : Statement (.amoswp w o sc t b a) := by
  refine statement_of (fun l => wordMO l 26 t a o.code sc.code b w.code) (fun _ => rfl) fun l hw => ?_
  refine (decode_memO _ _ _ _ _ _ _ _ (by decide)).trans ?_
  show decodeMemO 26 t a (o.code) (sc.code) b (w.code) = _
  simp only [decodeMemO, Width.ofCode_code, Ord.ofCode_code, Scope.ofCode_code]
  rfl
theorem amocas (w : Width) (o : Ord) (sc : Scope) (t : Reg) (b : Reg) (a : Reg) : Statement (.amocas w o sc t b a) := by
  refine statement_of (fun l => wordMO l 27 t a o.code sc.code b w.code) (fun _ => rfl) fun l hw => ?_
  refine (decode_memO _ _ _ _ _ _ _ _ (by decide)).trans ?_
  show decodeMemO 27 t a (o.code) (sc.code) b (w.code) = _
  simp only [decodeMemO, Width.ofCode_code, Ord.ofCode_code, Scope.ofCode_code]
  rfl
theorem amofadd (w : Width) (o : Ord) (sc : Scope) (t : Reg) (b : Reg) (a : Reg) : Statement (.amofadd w o sc t b a) := by
  refine statement_of (fun l => wordMO l 28 t a o.code sc.code b w.code) (fun _ => rfl) fun l hw => ?_
  refine (decode_memO _ _ _ _ _ _ _ _ (by decide)).trans ?_
  show decodeMemO 28 t a (o.code) (sc.code) b (w.code) = _
  simp only [decodeMemO, Width.ofCode_code, Ord.ofCode_code, Scope.ofCode_code]
  rfl
theorem fence (o : Ord) (sc : Scope) : Statement (.fence o sc) := by
  refine statement_of (fun l => wordMO l 29 0 0 o.code sc.code 0 0) (fun _ => rfl) fun l hw => ?_
  refine (decode_memO _ _ _ _ _ _ _ _ (by decide)).trans ?_
  show decodeMemO 29 0 0 (o.code) (sc.code) 0 0 = _
  simp only [decodeMemO, Ord.ofCode_code, Scope.ofCode_code]
  exact guardWf_of hw
theorem cflush (sc : Scope) (a : Reg) : Statement (.cflush sc a) := by
  refine statement_of (fun l => wordMO l 30 0 a 0 sc.code 0 0) (fun _ => rfl) fun l hw => ?_
  refine (decode_memO _ _ _ _ _ _ _ _ (by decide)).trans ?_
  show decodeMemO 30 0 a 0 (sc.code) 0 0 = _
  simp only [decodeMemO, Scope.ofCode_code]
  rfl
theorem cinv (sc : Scope) (a : Reg) : Statement (.cinv sc a) := by
  refine statement_of (fun l => wordMO l 31 0 a 0 sc.code 0 0) (fun _ => rfl) fun l hw => ?_
  refine (decode_memO _ _ _ _ _ _ _ _ (by decide)).trans ?_
  show decodeMemO 31 0 a 0 (sc.code) 0 0 = _
  simp only [decodeMemO, Scope.ofCode_code]
  rfl
theorem vld (v : VReg) (b : Reg) (disp : BitVec 6) : Statement (.vld v b disp) := by
  refine statement_of (fun l => wordMV l 32 v b 0 disp) (fun _ => rfl) fun l hw => ?_
  refine (decode_memV _ _ _ _ _ _ (by decide)).trans ?_
  show decodeMemV 32 v b 0 disp = _
  simp only [decodeMemV]
  rfl
theorem vst (v : VReg) (b : Reg) (disp : BitVec 6) : Statement (.vst v b disp) := by
  refine statement_of (fun l => wordMV l 33 v b 0 disp) (fun _ => rfl) fun l hw => ?_
  refine (decode_memV _ _ _ _ _ _ (by decide)).trans ?_
  show decodeMemV 33 v b 0 disp = _
  simp only [decodeMemV]
  rfl
theorem vlds (e : ESz) (v : VReg) (b : Reg) (x : Reg) : Statement (.vlds e v b x) := by
  refine statement_of (fun l => wordMV l 34 v b x (0#4 ++ e.code)) (fun _ => rfl) fun l hw => ?_
  have h1 : @fld 6 (0#4 ++ e.code) 0 2 = e.code := (fld_last (0#4) (e.code))
  have h2 : @fld 6 (0#4 ++ e.code) 2 4 = 0#4 := (fld_append_high (0#4) (e.code) 2 4 (by decide)).trans ((fld_self (0#4)))
  refine (decode_memV _ _ _ _ _ _ (by decide)).trans ?_
  show decodeMemV 34 v b x (0#4 ++ e.code) = _
  simp only [decodeMemV, h1, h2, ESz.ofCode_code]
  rfl
theorem vsts (e : ESz) (v : VReg) (b : Reg) (x : Reg) : Statement (.vsts e v b x) := by
  refine statement_of (fun l => wordMV l 35 v b x (0#4 ++ e.code)) (fun _ => rfl) fun l hw => ?_
  have h1 : @fld 6 (0#4 ++ e.code) 0 2 = e.code := (fld_last (0#4) (e.code))
  have h2 : @fld 6 (0#4 ++ e.code) 2 4 = 0#4 := (fld_append_high (0#4) (e.code) 2 4 (by decide)).trans ((fld_self (0#4)))
  refine (decode_memV _ _ _ _ _ _ (by decide)).trans ?_
  show decodeMemV 35 v b x (0#4 ++ e.code) = _
  simp only [decodeMemV, h1, h2, ESz.ofCode_code]
  rfl
theorem vgth (e : ESz) (v : VReg) (b : Reg) (x : Reg) : Statement (.vgth e v b x) := by
  refine statement_of (fun l => wordMV l 36 v b x (0#4 ++ e.code)) (fun _ => rfl) fun l hw => ?_
  have h1 : @fld 6 (0#4 ++ e.code) 0 2 = e.code := (fld_last (0#4) (e.code))
  have h2 : @fld 6 (0#4 ++ e.code) 2 4 = 0#4 := (fld_append_high (0#4) (e.code) 2 4 (by decide)).trans ((fld_self (0#4)))
  refine (decode_memV _ _ _ _ _ _ (by decide)).trans ?_
  show decodeMemV 36 v b x (0#4 ++ e.code) = _
  simp only [decodeMemV, h1, h2, ESz.ofCode_code]
  rfl
theorem vsct (e : ESz) (v : VReg) (b : Reg) (x : Reg) : Statement (.vsct e v b x) := by
  refine statement_of (fun l => wordMV l 37 v b x (0#4 ++ e.code)) (fun _ => rfl) fun l hw => ?_
  have h1 : @fld 6 (0#4 ++ e.code) 0 2 = e.code := (fld_last (0#4) (e.code))
  have h2 : @fld 6 (0#4 ++ e.code) 2 4 = 0#4 := (fld_append_high (0#4) (e.code) 2 4 (by decide)).trans ((fld_self (0#4)))
  refine (decode_memV _ _ _ _ _ _ (by decide)).trans ?_
  show decodeMemV 37 v b x (0#4 ++ e.code) = _
  simp only [decodeMemV, h1, h2, ESz.ofCode_code]
  rfl
theorem beq (a : Reg) (b : Reg) (disp : BitVec 13) : Statement (.beq a b disp) := by
  refine statement_of (fun l => wordB l 0 a b disp) (fun _ => rfl) fun l hw => ?_
  refine (decode_ctlB _ _ _ _ _ (by decide)).trans ?_
  show decodeCtlB 0 a b disp = _
  simp only [decodeCtlB]
theorem bne (a : Reg) (b : Reg) (disp : BitVec 13) : Statement (.bne a b disp) := by
  refine statement_of (fun l => wordB l 1 a b disp) (fun _ => rfl) fun l hw => ?_
  refine (decode_ctlB _ _ _ _ _ (by decide)).trans ?_
  show decodeCtlB 1 a b disp = _
  simp only [decodeCtlB]
theorem blt (a : Reg) (b : Reg) (disp : BitVec 13) : Statement (.blt a b disp) := by
  refine statement_of (fun l => wordB l 2 a b disp) (fun _ => rfl) fun l hw => ?_
  refine (decode_ctlB _ _ _ _ _ (by decide)).trans ?_
  show decodeCtlB 2 a b disp = _
  simp only [decodeCtlB]
theorem bge (a : Reg) (b : Reg) (disp : BitVec 13) : Statement (.bge a b disp) := by
  refine statement_of (fun l => wordB l 3 a b disp) (fun _ => rfl) fun l hw => ?_
  refine (decode_ctlB _ _ _ _ _ (by decide)).trans ?_
  show decodeCtlB 3 a b disp = _
  simp only [decodeCtlB]
theorem bltu (a : Reg) (b : Reg) (disp : BitVec 13) : Statement (.bltu a b disp) := by
  refine statement_of (fun l => wordB l 4 a b disp) (fun _ => rfl) fun l hw => ?_
  refine (decode_ctlB _ _ _ _ _ (by decide)).trans ?_
  show decodeCtlB 4 a b disp = _
  simp only [decodeCtlB]
theorem bgeu (a : Reg) (b : Reg) (disp : BitVec 13) : Statement (.bgeu a b disp) := by
  refine statement_of (fun l => wordB l 5 a b disp) (fun _ => rfl) fun l hw => ?_
  refine (decode_ctlB _ _ _ _ _ (by decide)).trans ?_
  show decodeCtlB 5 a b disp = _
  simp only [decodeCtlB]
theorem jmp (disp : BitVec 23) : Statement (.jmp disp) := by
  refine statement_of (fun l => wordJ l 6 disp) (fun _ => rfl) fun l hw => ?_
  refine (decode_ctlJ _ _ _ (by decide)).trans ?_
  show decodeCtlJ 6 disp = _
  simp only [decodeCtlJ]
theorem call (disp : BitVec 23) : Statement (.call disp) := by
  refine statement_of (fun l => wordJ l 7 disp) (fun _ => rfl) fun l hw => ?_
  refine (decode_ctlJ _ _ _ (by decide)).trans ?_
  show decodeCtlJ 7 disp = _
  simp only [decodeCtlJ]
theorem jtab (a : Reg) (b : Reg) : Statement (.jtab a b) := by
  refine statement_of (fun l => wordB l 9 a b 0) (fun _ => rfl) fun l hw => ?_
  refine (decode_ctlB _ _ _ _ _ (by decide)).trans ?_
  show decodeCtlB 9 a b 0 = _
  simp only [decodeCtlB]
  rfl
theorem lpad (label : BitVec 20) : Statement (.lpad label) := by
  refine statement_of (fun l => wordJ l 10 (0#3 ++ label)) (fun _ => rfl) fun l hw => ?_
  have h1 : @fld 23 (0#3 ++ label) 0 20 = label := (fld_last (0#3) (label))
  have h2 : @fld 23 (0#3 ++ label) 20 3 = 0#3 := (fld_append_high (0#3) (label) 20 3 (by decide)).trans ((fld_self (0#3)))
  refine (decode_ctlJ _ _ _ (by decide)).trans ?_
  show decodeCtlJ 10 (0#3 ++ label) = _
  simp only [decodeCtlJ, h1, h2]
  rfl
theorem lpset (n : LoopNo) (c : Reg) (off : BitVec 17) : Statement (.lpset n c off) := by
  refine statement_of (fun l => wordJ l 11 (n.code ++ c ++ off)) (fun _ => rfl) fun l hw => ?_
  have h1 : @fld 23 (n.code ++ c ++ off) 0 17 = off := (fld_last (n.code ++ c) (off))
  have h2 : @fld 23 (n.code ++ c ++ off) 17 5 = c := (fld_append_high (n.code ++ c) (off) 17 5 (by decide)).trans ((fld_last (n.code) (c)))
  have h3 : @fld 23 (n.code ++ c ++ off) 22 1 = n.code := (fld_append_high (n.code ++ c) (off) 22 1 (by decide)).trans ((fld_append_high (n.code) (c) 5 1 (by decide)).trans ((fld_self (n.code))))
  refine (decode_ctlJ _ _ _ (by decide)).trans ?_
  show decodeCtlJ 11 (n.code ++ c ++ off) = _
  simp only [decodeCtlJ, h1, h2, h3, LoopNo.ofCode_code]
  exact guardWf_of hw
theorem lpseti (n : LoopNo) (count : BitVec 10) (off : BitVec 12) : Statement (.lpseti n count off) := by
  refine statement_of (fun l => wordJ l 12 (n.code ++ count ++ off)) (fun _ => rfl) fun l hw => ?_
  have h1 : @fld 23 (n.code ++ count ++ off) 0 12 = off := (fld_last (n.code ++ count) (off))
  have h2 : @fld 23 (n.code ++ count ++ off) 12 10 = count := (fld_append_high (n.code ++ count) (off) 12 10 (by decide)).trans ((fld_last (n.code) (count)))
  have h3 : @fld 23 (n.code ++ count ++ off) 22 1 = n.code := (fld_append_high (n.code ++ count) (off) 22 1 (by decide)).trans ((fld_append_high (n.code) (count) 10 1 (by decide)).trans ((fld_self (n.code))))
  refine (decode_ctlJ _ _ _ (by decide)).trans ?_
  show decodeCtlJ 12 (n.code ++ count ++ off) = _
  simp only [decodeCtlJ, h1, h2, h3, LoopNo.ofCode_code]
  exact guardWf_of hw
theorem lpoff (n : LoopNo) : Statement (.lpoff n) := by
  refine statement_of (fun l => wordJ l 13 (n.code ++ 0#22)) (fun _ => rfl) fun l hw => ?_
  have h1 : @fld 23 (n.code ++ 0#22) 0 22 = 0#22 := (fld_last (n.code) (0#22))
  have h2 : @fld 23 (n.code ++ 0#22) 22 1 = n.code := (fld_append_high (n.code) (0#22) 22 1 (by decide)).trans ((fld_self (n.code)))
  refine (decode_ctlJ _ _ _ (by decide)).trans ?_
  show decodeCtlJ 13 (n.code ++ 0#22) = _
  simp only [decodeCtlJ, h1, h2, LoopNo.ofCode_code]
  rfl
theorem put (a : Reg) (b : Reg) (n : Cnt) : Statement (.put a b n) := by
  refine statement_of (fun l => wordR l 6 0 0 a b (0#1 ++ n)) (fun _ => rfl) fun l hw => ?_
  have h1 : @fld 7 (0#1 ++ n) 0 6 = n := (fld_last (0#1) (n))
  have h2 : @fld 7 (0#1 ++ n) 6 1 = 0#1 := (fld_append_high (0#1) (n) 6 1 (by decide)).trans ((fld_self (0#1)))
  refine (decode_eng ..).trans ?_
  show decodeEng 0 0 a b (0#1 ++ n) = _
  simp only [decodeEng, h1, h2]
  rfl
theorem putb (a : Reg) (b : Reg) (d : Reg) (n : Cnt) : Statement (.putb a b d n) := by
  refine statement_of (fun l => wordR l 6 1 d a b (0#1 ++ n)) (fun _ => rfl) fun l hw => ?_
  have h1 : @fld 7 (0#1 ++ n) 0 6 = n := (fld_last (0#1) (n))
  have h2 : @fld 7 (0#1 ++ n) 6 1 = 0#1 := (fld_append_high (0#1) (n) 6 1 (by decide)).trans ((fld_self (0#1)))
  refine (decode_eng ..).trans ?_
  show decodeEng 1 d a b (0#1 ++ n) = _
  simp only [decodeEng, h1, h2]
  rfl
theorem cntrd (d : Reg) (n : Cnt) : Statement (.cntrd d n) := by
  refine statement_of (fun l => wordR l 6 2 d 0 0 (0#1 ++ n)) (fun _ => rfl) fun l hw => ?_
  have h1 : @fld 7 (0#1 ++ n) 0 6 = n := (fld_last (0#1) (n))
  have h2 : @fld 7 (0#1 ++ n) 6 1 = 0#1 := (fld_append_high (0#1) (n) 6 1 (by decide)).trans ((fld_self (0#1)))
  refine (decode_eng ..).trans ?_
  show decodeEng 2 d 0 0 (0#1 ++ n) = _
  simp only [decodeEng, h1, h2]
  rfl
theorem cntset (rel : Bool) (n : Cnt) (b : Reg) : Statement (.cntset rel n b) := by
  refine statement_of (fun l => wordR l 6 3 0 0 b (BitVec.ofBool rel ++ n)) (fun _ => rfl) fun l hw => ?_
  have h1 : @fld 7 (BitVec.ofBool rel ++ n) 0 6 = n := (fld_last (BitVec.ofBool rel) (n))
  have h2 : @fld 7 (BitVec.ofBool rel ++ n) 6 1 = BitVec.ofBool rel := (fld_append_high (BitVec.ofBool rel) (n) 6 1 (by decide)).trans ((fld_self (BitVec.ofBool rel)))
  refine (decode_eng ..).trans ?_
  show decodeEng 3 0 0 b (BitVec.ofBool rel ++ n) = _
  simp only [decodeEng, h1, h2, ofBool_one]
  rfl
theorem cntadd (rel : Bool) (d : Reg) (b : Reg) (n : Cnt) : Statement (.cntadd rel d b n) := by
  refine statement_of (fun l => wordR l 6 4 d 0 b (BitVec.ofBool rel ++ n)) (fun _ => rfl) fun l hw => ?_
  have h1 : @fld 7 (BitVec.ofBool rel ++ n) 0 6 = n := (fld_last (BitVec.ofBool rel) (n))
  have h2 : @fld 7 (BitVec.ofBool rel ++ n) 6 1 = BitVec.ofBool rel := (fld_append_high (BitVec.ofBool rel) (n) 6 1 (by decide)).trans ((fld_self (BitVec.ofBool rel)))
  refine (decode_eng ..).trans ?_
  show decodeEng 4 d 0 b (BitVec.ofBool rel ++ n) = _
  simp only [decodeEng, h1, h2, ofBool_one]
  rfl
theorem waitc (d : Reg) (b : Reg) (n : Cnt) : Statement (.waitc d b n) := by
  refine statement_of (fun l => wordR l 6 5 d 0 b (0#1 ++ n)) (fun _ => rfl) fun l hw => ?_
  have h1 : @fld 7 (0#1 ++ n) 0 6 = n := (fld_last (0#1) (n))
  have h2 : @fld 7 (0#1 ++ n) 6 1 = 0#1 := (fld_append_high (0#1) (n) 6 1 (by decide)).trans ((fld_self (0#1)))
  refine (decode_eng ..).trans ?_
  show decodeEng 5 d 0 b (0#1 ++ n) = _
  simp only [decodeEng, h1, h2]
  rfl
theorem deq (d : Reg) : Statement (.deq d) := by
  refine statement_of (fun l => wordR l 6 6 d 0 0 0) (fun _ => rfl) fun l hw => ?_
  refine (decode_eng ..).trans ?_
  show decodeEng 6 d 0 0 0 = _
  simp only [decodeEng]
  exact guardWf_of hw
theorem peek (d : Reg) : Statement (.peek d) := by
  refine statement_of (fun l => wordR l 6 7 d 0 0 0) (fun _ => rfl) fun l hw => ?_
  refine (decode_eng ..).trans ?_
  show decodeEng 7 d 0 0 0 = _
  simp only [decodeEng]
  rfl
theorem barcfg (m : BarMode) (a : Reg) (n : BarNo) : Statement (.barcfg m a n) := by
  refine statement_of (fun l => wordR l 6 9 0 a 0 (0#2 ++ m.code ++ n)) (fun _ => rfl) fun l hw => ?_
  have h1 : @fld 7 (0#2 ++ m.code ++ n) 0 4 = n := (fld_last (0#2 ++ m.code) (n))
  have h2 : @fld 7 (0#2 ++ m.code ++ n) 4 1 = m.code := (fld_append_high (0#2 ++ m.code) (n) 4 1 (by decide)).trans ((fld_last (0#2) (m.code)))
  have h3 : @fld 7 (0#2 ++ m.code ++ n) 5 2 = 0#2 := (fld_append_high (0#2 ++ m.code) (n) 5 2 (by decide)).trans ((fld_append_high (0#2) (m.code) 1 2 (by decide)).trans ((fld_self (0#2))))
  refine (decode_eng ..).trans ?_
  show decodeEng 9 0 a 0 (0#2 ++ m.code ++ n) = _
  simp only [decodeEng, h1, h2, h3, BarMode.ofCode_code]
  rfl
theorem bararr (d : Reg) (n : BarNo) : Statement (.bararr d n) := by
  refine statement_of (fun l => wordR l 6 10 d 0 0 (0#3 ++ n)) (fun _ => rfl) fun l hw => ?_
  have h1 : @fld 7 (0#3 ++ n) 0 4 = n := (fld_last (0#3) (n))
  have h2 : @fld 7 (0#3 ++ n) 4 3 = 0#3 := (fld_append_high (0#3) (n) 4 3 (by decide)).trans ((fld_self (0#3)))
  refine (decode_eng ..).trans ?_
  show decodeEng 10 d 0 0 (0#3 ++ n) = _
  simp only [decodeEng, h1, h2]
  rfl
theorem barwait (a : Reg) (n : BarNo) : Statement (.barwait a n) := by
  refine statement_of (fun l => wordR l 6 11 0 a 0 (0#3 ++ n)) (fun _ => rfl) fun l hw => ?_
  have h1 : @fld 7 (0#3 ++ n) 0 4 = n := (fld_last (0#3) (n))
  have h2 : @fld 7 (0#3 ++ n) 4 3 = 0#3 := (fld_append_high (0#3) (n) 4 3 (by decide)).trans ((fld_self (0#3)))
  refine (decode_eng ..).trans ?_
  show decodeEng 11 0 a 0 (0#3 ++ n) = _
  simp only [decodeEng, h1, h2]
  rfl
theorem phase (d : Reg) (a : Reg) : Statement (.phase d a) := by
  refine statement_of (fun l => wordR l 6 12 d a 0 0) (fun _ => rfl) fun l hw => ?_
  refine (decode_eng ..).trans ?_
  show decodeEng 12 d a 0 0 = _
  simp only [decodeEng]
  rfl
theorem launch (d : Reg) (a : Reg) : Statement (.launch d a) := by
  refine statement_of (fun l => wordR l 6 13 d a 0 0) (fun _ => rfl) fun l hw => ?_
  refine (decode_eng ..).trans ?_
  show decodeEng 13 d a 0 0 = _
  simp only [decodeEng]
  rfl
theorem lcancel (d : Reg) (a : Reg) (lvl : BitVec 2) : Statement (.lcancel d a lvl) := by
  refine statement_of (fun l => wordR l 6 14 d a 0 (0#5 ++ lvl)) (fun _ => rfl) fun l hw => ?_
  have h1 : @fld 7 (0#5 ++ lvl) 0 2 = lvl := (fld_last (0#5) (lvl))
  have h2 : @fld 7 (0#5 ++ lvl) 2 5 = 0#5 := (fld_append_high (0#5) (lvl) 2 5 (by decide)).trans ((fld_self (0#5)))
  refine (decode_eng ..).trans ?_
  show decodeEng 14 d a 0 (0#5 ++ lvl) = _
  simp only [decodeEng, h1, h2]
  rfl
theorem lcount (d : Reg) (a : Reg) (lvl : BitVec 2) : Statement (.lcount d a lvl) := by
  refine statement_of (fun l => wordR l 6 15 d a 0 (0#5 ++ lvl)) (fun _ => rfl) fun l hw => ?_
  have h1 : @fld 7 (0#5 ++ lvl) 0 2 = lvl := (fld_last (0#5) (lvl))
  have h2 : @fld 7 (0#5 ++ lvl) 2 5 = 0#5 := (fld_append_high (0#5) (lvl) 2 5 (by decide)).trans ((fld_self (0#5)))
  refine (decode_eng ..).trans ?_
  show decodeEng 15 d a 0 (0#5 ++ lvl) = _
  simp only [decodeEng, h1, h2]
  rfl
theorem nap (m : BitVec 3) : Statement (.nap m) := by
  refine statement_of (fun l => wordR l 6 17 0 0 0 (0#4 ++ m)) (fun _ => rfl) fun l hw => ?_
  have h1 : @fld 7 (0#4 ++ m) 0 3 = m := (fld_last (0#4) (m))
  have h2 : @fld 7 (0#4 ++ m) 3 4 = 0#4 := (fld_append_high (0#4) (m) 3 4 (by decide)).trans ((fld_self (0#4)))
  refine (decode_eng ..).trans ?_
  show decodeEng 17 0 0 0 (0#4 ++ m) = _
  simp only [decodeEng, h1, h2]
  exact guardWf_of hw
theorem cpy (d : Reg) (a : Reg) : Statement (.cpy d a) := by
  refine statement_of (fun l => wordR l 6 18 d a 0 0) (fun _ => rfl) fun l hw => ?_
  refine (decode_eng ..).trans ?_
  show decodeEng 18 d a 0 0 = _
  simp only [decodeEng]
  exact guardWf_of hw
theorem cpys (d : Reg) (a : Reg) : Statement (.cpys d a) := by
  refine statement_of (fun l => wordR l 6 19 d a 0 0) (fun _ => rfl) fun l hw => ?_
  refine (decode_eng ..).trans ?_
  show decodeEng 19 d a 0 0 = _
  simp only [decodeEng]
  rfl
theorem cpyk (d : Reg) (a : Reg) : Statement (.cpyk d a) := by
  refine statement_of (fun l => wordR l 6 20 d a 0 0) (fun _ => rfl) fun l hw => ?_
  refine (decode_eng ..).trans ?_
  show decodeEng 20 d a 0 0 = _
  simp only [decodeEng]
  rfl
theorem migr (tier : Tier) (die : BitVec 2) (d : Reg) (a : Reg) (b : Reg) : Statement (.migr tier die d a b) := by
  refine statement_of (fun l => wordR l 6 21 d a b (0#3 ++ die ++ tier.code)) (fun _ => rfl) fun l hw => ?_
  have h1 : @fld 7 (0#3 ++ die ++ tier.code) 0 2 = tier.code := (fld_last (0#3 ++ die) (tier.code))
  have h2 : @fld 7 (0#3 ++ die ++ tier.code) 2 2 = die := (fld_append_high (0#3 ++ die) (tier.code) 2 2 (by decide)).trans ((fld_last (0#3) (die)))
  have h3 : @fld 7 (0#3 ++ die ++ tier.code) 4 3 = 0#3 := (fld_append_high (0#3 ++ die) (tier.code) 4 3 (by decide)).trans ((fld_append_high (0#3) (die) 2 3 (by decide)).trans ((fld_self (0#3))))
  refine (decode_eng ..).trans ?_
  show decodeEng 21 d a b (0#3 ++ die ++ tier.code) = _
  simp only [decodeEng, h1, h2, h3, Tier.ofCode_code]
  exact guardWf_of hw
theorem repl (d : Reg) (a : Reg) (b : Reg) (m : BitVec 4) : Statement (.repl d a b m) := by
  refine statement_of (fun l => wordR l 6 22 d a b (0#3 ++ m)) (fun _ => rfl) fun l hw => ?_
  have h1 : @fld 7 (0#3 ++ m) 0 4 = m := (fld_last (0#3) (m))
  have h2 : @fld 7 (0#3 ++ m) 4 3 = 0#3 := (fld_append_high (0#3) (m) 4 3 (by decide)).trans ((fld_self (0#3)))
  refine (decode_eng ..).trans ?_
  show decodeEng 22 d a b (0#3 ++ m) = _
  simp only [decodeEng, h1, h2]
  rfl
theorem strcfg (p : PortNo) (v : Reg) (a : Reg) : Statement (.strcfg p v a) := by
  refine statement_of (fun l => wordR l 6 23 v a 0 (0#5 ++ p)) (fun _ => rfl) fun l hw => ?_
  have h1 : @fld 7 (0#5 ++ p) 0 2 = p := (fld_last (0#5) (p))
  have h2 : @fld 7 (0#5 ++ p) 2 5 = 0#5 := (fld_append_high (0#5) (p) 2 5 (by decide)).trans ((fld_self (0#5)))
  refine (decode_eng ..).trans ?_
  show decodeEng 23 v a 0 (0#5 ++ p) = _
  simp only [decodeEng, h1, h2]
  exact guardWf_of hw
theorem strgo (p : PortNo) : Statement (.strgo p) := by
  refine statement_of (fun l => wordR l 6 24 0 0 0 (0#5 ++ p)) (fun _ => rfl) fun l hw => ?_
  have h1 : @fld 7 (0#5 ++ p) 0 2 = p := (fld_last (0#5) (p))
  have h2 : @fld 7 (0#5 ++ p) 2 5 = 0#5 := (fld_append_high (0#5) (p) 2 5 (by decide)).trans ((fld_self (0#5)))
  refine (decode_eng ..).trans ?_
  show decodeEng 24 0 0 0 (0#5 ++ p) = _
  simp only [decodeEng, h1, h2]
  rfl
theorem strstop (p : PortNo) : Statement (.strstop p) := by
  refine statement_of (fun l => wordR l 6 25 0 0 0 (0#5 ++ p)) (fun _ => rfl) fun l hw => ?_
  have h1 : @fld 7 (0#5 ++ p) 0 2 = p := (fld_last (0#5) (p))
  have h2 : @fld 7 (0#5 ++ p) 2 5 = 0#5 := (fld_append_high (0#5) (p) 2 5 (by decide)).trans ((fld_self (0#5)))
  refine (decode_eng ..).trans ?_
  show decodeEng 25 0 0 0 (0#5 ++ p) = _
  simp only [decodeEng, h1, h2]
  rfl
theorem tcfg (k : Tile) (a : Reg) : Statement (.tcfg k a) := by
  refine statement_of (fun l => wordR l 6 26 (0#1 ++ k) a 0 0) (fun _ => rfl) fun l hw => ?_
  have h1 : @fld 5 (0#1 ++ k) 0 4 = k := (fld_last (0#1) (k))
  have h2 : @fld 5 (0#1 ++ k) 4 1 = 0#1 := (fld_append_high (0#1) (k) 4 1 (by decide)).trans ((fld_self (0#1)))
  refine (decode_eng ..).trans ?_
  show decodeEng 26 (0#1 ++ k) a 0 0 = _
  simp only [decodeEng, h1, h2]
  rfl
theorem trdc (d : Reg) (r : TileOrAcc) : Statement (.trdc d r) := by
  refine statement_of (fun l => wordR l 6 27 d r.code 0 (0#6 ++ r.flag)) (fun _ => rfl) fun l hw => ?_
  cases r with
  | tile k =>
    have h1 : @fld 7 (0#6 ++ 0#1) 0 1 = 0#1 := by decide
    have h2 : @fld 7 (0#6 ++ 0#1) 1 6 = 0#6 := by decide
    have h3 : @fld 5 (0#1 ++ k) 0 4 = k := fld_last (0#1) k
    have h4 : @fld 5 (0#1 ++ k) 4 1 = 0#1 := (fld_append_high (0#1) k 4 1 (by decide)).trans (fld_self (0#1))
    refine (decode_eng ..).trans ?_
    show decodeEng 27 d (0#1 ++ k) 0 (0#6 ++ 0#1) = _
    simp only [decodeEng, h1, h2, h3, h4]
    rfl
  | acc a =>
    have h1 : @fld 7 (0#6 ++ 1#1) 0 1 = 1#1 := by decide
    have h2 : @fld 7 (0#6 ++ 1#1) 1 6 = 0#6 := by decide
    have h3 : @fld 5 (0#3 ++ a) 0 2 = a := fld_last (0#3) a
    have h4 : @fld 5 (0#3 ++ a) 2 3 = 0#3 := (fld_append_high (0#3) a 2 3 (by decide)).trans (fld_self (0#3))
    refine (decode_eng ..).trans ?_
    show decodeEng 27 d (0#3 ++ a) 0 (0#6 ++ 1#1) = _
    simp only [decodeEng, h1, h2, h3, h4]
    rfl
theorem tld (k : Tile) (a : Reg) (b : Reg) : Statement (.tld k a b) := by
  refine statement_of (fun l => wordR l 6 28 (0#1 ++ k) a b 0) (fun _ => rfl) fun l hw => ?_
  have h1 : @fld 5 (0#1 ++ k) 0 4 = k := (fld_last (0#1) (k))
  have h2 : @fld 5 (0#1 ++ k) 4 1 = 0#1 := (fld_append_high (0#1) (k) 4 1 (by decide)).trans ((fld_self (0#1)))
  refine (decode_eng ..).trans ?_
  show decodeEng 28 (0#1 ++ k) a b 0 = _
  simp only [decodeEng, h1, h2]
  rfl
theorem tldk (d : Reg) (k : Tile) (a : Reg) : Statement (.tldk d k a) := by
  refine statement_of (fun l => wordR l 6 29 d a 0 (0#3 ++ k)) (fun _ => rfl) fun l hw => ?_
  have h1 : @fld 7 (0#3 ++ k) 0 4 = k := (fld_last (0#3) (k))
  have h2 : @fld 7 (0#3 ++ k) 4 3 = 0#3 := (fld_append_high (0#3) (k) 4 3 (by decide)).trans ((fld_self (0#3)))
  refine (decode_eng ..).trans ?_
  show decodeEng 29 d a 0 (0#3 ++ k) = _
  simp only [decodeEng, h1, h2]
  rfl
theorem tst (k : Tile) (a : Reg) (b : Reg) : Statement (.tst k a b) := by
  refine statement_of (fun l => wordR l 6 30 (0#1 ++ k) a b 0) (fun _ => rfl) fun l hw => ?_
  have h1 : @fld 5 (0#1 ++ k) 0 4 = k := (fld_last (0#1) (k))
  have h2 : @fld 5 (0#1 ++ k) 4 1 = 0#1 := (fld_append_high (0#1) (k) 4 1 (by decide)).trans ((fld_self (0#1)))
  refine (decode_eng ..).trans ?_
  show decodeEng 30 (0#1 ++ k) a b 0 = _
  simp only [decodeEng, h1, h2]
  rfl
theorem tz (k : Tile) : Statement (.tz k) := by
  refine statement_of (fun l => wordR l 6 31 (0#1 ++ k) 0 0 0) (fun _ => rfl) fun l hw => ?_
  have h1 : @fld 5 (0#1 ++ k) 0 4 = k := (fld_last (0#1) (k))
  have h2 : @fld 5 (0#1 ++ k) 4 1 = 0#1 := (fld_append_high (0#1) (k) 4 1 (by decide)).trans ((fld_self (0#1)))
  refine (decode_eng ..).trans ?_
  show decodeEng 31 (0#1 ++ k) 0 0 0 = _
  simp only [decodeEng, h1, h2]
  rfl
theorem tscl (k : Tile) (a : Reg) (b : Reg) : Statement (.tscl k a b) := by
  refine statement_of (fun l => wordR l 6 32 (0#1 ++ k) a b 0) (fun _ => rfl) fun l hw => ?_
  have h1 : @fld 5 (0#1 ++ k) 0 4 = k := (fld_last (0#1) (k))
  have h2 : @fld 5 (0#1 ++ k) 4 1 = 0#1 := (fld_append_high (0#1) (k) 4 1 (by decide)).trans ((fld_self (0#1)))
  refine (decode_eng ..).trans ?_
  show decodeEng 32 (0#1 ++ k) a b 0 = _
  simp only [decodeEng, h1, h2]
  rfl
theorem mma (ta : Bool) (tb : Bool) (rm : RM) (ad : Acc) (ka : Tile) (kb : Tile) : Statement (.mma ta tb rm ad ka kb) := by
  refine statement_of (fun l => wordR l 6 33 (0#3 ++ ad) (0#1 ++ ka) (0#1 ++ kb) (0#2 ++ rm.code ++ BitVec.ofBool tb ++ BitVec.ofBool ta)) (fun _ => rfl) fun l hw => ?_
  have h1 : @fld 5 (0#3 ++ ad) 0 2 = ad := (fld_last (0#3) (ad))
  have h2 : @fld 5 (0#3 ++ ad) 2 3 = 0#3 := (fld_append_high (0#3) (ad) 2 3 (by decide)).trans ((fld_self (0#3)))
  have h3 : @fld 5 (0#1 ++ ka) 0 4 = ka := (fld_last (0#1) (ka))
  have h4 : @fld 5 (0#1 ++ ka) 4 1 = 0#1 := (fld_append_high (0#1) (ka) 4 1 (by decide)).trans ((fld_self (0#1)))
  have h5 : @fld 5 (0#1 ++ kb) 0 4 = kb := (fld_last (0#1) (kb))
  have h6 : @fld 5 (0#1 ++ kb) 4 1 = 0#1 := (fld_append_high (0#1) (kb) 4 1 (by decide)).trans ((fld_self (0#1)))
  have h7 : @fld 7 (0#2 ++ rm.code ++ BitVec.ofBool tb ++ BitVec.ofBool ta) 0 1 = BitVec.ofBool ta := (fld_last (0#2 ++ rm.code ++ BitVec.ofBool tb) (BitVec.ofBool ta))
  have h8 : @fld 7 (0#2 ++ rm.code ++ BitVec.ofBool tb ++ BitVec.ofBool ta) 1 1 = BitVec.ofBool tb := (fld_append_high (0#2 ++ rm.code ++ BitVec.ofBool tb) (BitVec.ofBool ta) 1 1 (by decide)).trans ((fld_last (0#2 ++ rm.code) (BitVec.ofBool tb)))
  have h9 : @fld 7 (0#2 ++ rm.code ++ BitVec.ofBool tb ++ BitVec.ofBool ta) 2 3 = rm.code := (fld_append_high (0#2 ++ rm.code ++ BitVec.ofBool tb) (BitVec.ofBool ta) 2 3 (by decide)).trans ((fld_append_high (0#2 ++ rm.code) (BitVec.ofBool tb) 1 3 (by decide)).trans ((fld_last (0#2) (rm.code))))
  have h10 : @fld 7 (0#2 ++ rm.code ++ BitVec.ofBool tb ++ BitVec.ofBool ta) 5 2 = 0#2 := (fld_append_high (0#2 ++ rm.code ++ BitVec.ofBool tb) (BitVec.ofBool ta) 5 2 (by decide)).trans ((fld_append_high (0#2 ++ rm.code) (BitVec.ofBool tb) 4 2 (by decide)).trans ((fld_append_high (0#2) (rm.code) 3 2 (by decide)).trans ((fld_self (0#2)))))
  refine (decode_eng ..).trans ?_
  show decodeEng 33 (0#3 ++ ad) (0#1 ++ ka) (0#1 ++ kb) (0#2 ++ rm.code ++ BitVec.ofBool tb ++ BitVec.ofBool ta) = _
  simp only [decodeEng, h1, h2, h3, h4, h5, h6, h7, h8, h9, h10, RM.ofCode_code, ofBool_one]
  rfl
theorem acz (ad : Acc) (a : Reg) : Statement (.acz ad a) := by
  refine statement_of (fun l => wordR l 6 34 (0#3 ++ ad) a 0 0) (fun _ => rfl) fun l hw => ?_
  have h1 : @fld 5 (0#3 ++ ad) 0 2 = ad := (fld_last (0#3) (ad))
  have h2 : @fld 5 (0#3 ++ ad) 2 3 = 0#3 := (fld_append_high (0#3) (ad) 2 3 (by decide)).trans ((fld_self (0#3)))
  refine (decode_eng ..).trans ?_
  show decodeEng 34 (0#3 ++ ad) a 0 0 = _
  simp only [decodeEng, h1, h2]
  rfl
theorem acld (ad : Acc) (a : Reg) (b : Reg) : Statement (.acld ad a b) := by
  refine statement_of (fun l => wordR l 6 35 (0#3 ++ ad) a b 0) (fun _ => rfl) fun l hw => ?_
  have h1 : @fld 5 (0#3 ++ ad) 0 2 = ad := (fld_last (0#3) (ad))
  have h2 : @fld 5 (0#3 ++ ad) 2 3 = 0#3 := (fld_append_high (0#3) (ad) 2 3 (by decide)).trans ((fld_self (0#3)))
  refine (decode_eng ..).trans ?_
  show decodeEng 35 (0#3 ++ ad) a b 0 = _
  simp only [decodeEng, h1, h2]
  rfl
theorem acst (ad : Acc) (a : Reg) (b : Reg) : Statement (.acst ad a b) := by
  refine statement_of (fun l => wordR l 6 36 (0#3 ++ ad) a b 0) (fun _ => rfl) fun l hw => ?_
  have h1 : @fld 5 (0#3 ++ ad) 0 2 = ad := (fld_last (0#3) (ad))
  have h2 : @fld 5 (0#3 ++ ad) 2 3 = 0#3 := (fld_append_high (0#3) (ad) 2 3 (by decide)).trans ((fld_self (0#3)))
  refine (decode_eng ..).trans ?_
  show decodeEng 36 (0#3 ++ ad) a b 0 = _
  simp only [decodeEng, h1, h2]
  rfl
theorem accv (rm : RM) (sat : Bool) (k : Tile) (aa : Acc) : Statement (.accv rm sat k aa) := by
  refine statement_of (fun l => wordR l 6 37 (0#1 ++ k) (0#3 ++ aa) 0 (0#3 ++ BitVec.ofBool sat ++ rm.code)) (fun _ => rfl) fun l hw => ?_
  have h1 : @fld 5 (0#1 ++ k) 0 4 = k := (fld_last (0#1) (k))
  have h2 : @fld 5 (0#1 ++ k) 4 1 = 0#1 := (fld_append_high (0#1) (k) 4 1 (by decide)).trans ((fld_self (0#1)))
  have h3 : @fld 5 (0#3 ++ aa) 0 2 = aa := (fld_last (0#3) (aa))
  have h4 : @fld 5 (0#3 ++ aa) 2 3 = 0#3 := (fld_append_high (0#3) (aa) 2 3 (by decide)).trans ((fld_self (0#3)))
  have h5 : @fld 7 (0#3 ++ BitVec.ofBool sat ++ rm.code) 0 3 = rm.code := (fld_last (0#3 ++ BitVec.ofBool sat) (rm.code))
  have h6 : @fld 7 (0#3 ++ BitVec.ofBool sat ++ rm.code) 3 1 = BitVec.ofBool sat := (fld_append_high (0#3 ++ BitVec.ofBool sat) (rm.code) 3 1 (by decide)).trans ((fld_last (0#3) (BitVec.ofBool sat)))
  have h7 : @fld 7 (0#3 ++ BitVec.ofBool sat ++ rm.code) 4 3 = 0#3 := (fld_append_high (0#3 ++ BitVec.ofBool sat) (rm.code) 4 3 (by decide)).trans ((fld_append_high (0#3) (BitVec.ofBool sat) 1 3 (by decide)).trans ((fld_self (0#3))))
  refine (decode_eng ..).trans ?_
  show decodeEng 37 (0#1 ++ k) (0#3 ++ aa) 0 (0#3 ++ BitVec.ofBool sat ++ rm.code) = _
  simp only [decodeEng, h1, h2, h3, h4, h5, h6, h7, RM.ofCode_code, ofBool_one]
  rfl
theorem qcfg (q : QReg) (a : Reg) : Statement (.qcfg q a) := by
  refine statement_of (fun l => wordR l 6 39 (0#4 ++ q) a 0 0) (fun _ => rfl) fun l hw => ?_
  have h1 : @fld 5 (0#4 ++ q) 0 1 = q := (fld_last (0#4) (q))
  have h2 : @fld 5 (0#4 ++ q) 1 4 = 0#4 := (fld_append_high (0#4) (q) 1 4 (by decide)).trans ((fld_self (0#4)))
  refine (decode_eng ..).trans ?_
  show decodeEng 39 (0#4 ++ q) a 0 0 = _
  simp only [decodeEng, h1, h2]
  rfl
theorem qz (q : QReg) : Statement (.qz q) := by
  refine statement_of (fun l => wordR l 6 40 (0#4 ++ q) 0 0 0) (fun _ => rfl) fun l hw => ?_
  have h1 : @fld 5 (0#4 ++ q) 0 1 = q := (fld_last (0#4) (q))
  have h2 : @fld 5 (0#4 ++ q) 1 4 = 0#4 := (fld_append_high (0#4) (q) 1 4 (by decide)).trans ((fld_self (0#4)))
  refine (decode_eng ..).trans ?_
  show decodeEng 40 (0#4 ++ q) 0 0 0 = _
  simp only [decodeEng, h1, h2]
  rfl
theorem qapp (rm : RM) (q : QReg) (k : Tile) (b : Reg) (col : BitVec 4) : Statement (.qapp rm q k b col) := by
  refine statement_of (fun l => wordR l 6 41 (0#4 ++ q) (0#1 ++ k) b (rm.code ++ col)) (fun _ => rfl) fun l hw => ?_
  have h1 : @fld 5 (0#4 ++ q) 0 1 = q := (fld_last (0#4) (q))
  have h2 : @fld 5 (0#4 ++ q) 1 4 = 0#4 := (fld_append_high (0#4) (q) 1 4 (by decide)).trans ((fld_self (0#4)))
  have h3 : @fld 5 (0#1 ++ k) 0 4 = k := (fld_last (0#1) (k))
  have h4 : @fld 5 (0#1 ++ k) 4 1 = 0#1 := (fld_append_high (0#1) (k) 4 1 (by decide)).trans ((fld_self (0#1)))
  have h5 : @fld 7 (rm.code ++ col) 0 4 = col := (fld_last (rm.code) (col))
  have h6 : @fld 7 (rm.code ++ col) 4 3 = rm.code := (fld_append_high (rm.code) (col) 4 3 (by decide)).trans ((fld_self (rm.code)))
  refine (decode_eng ..).trans ?_
  show decodeEng 41 (0#4 ++ q) (0#1 ++ k) b (rm.code ++ col) = _
  simp only [decodeEng, h1, h2, h3, h4, h5, h6, RM.ofCode_code]
  rfl
theorem qapl (t : Bool) (rm : RM) (ad : Acc) (q : QReg) : Statement (.qapl t rm ad q) := by
  refine statement_of (fun l => wordR l 6 42 (0#3 ++ ad) (0#4 ++ q) 0 (0#3 ++ rm.code ++ BitVec.ofBool t)) (fun _ => rfl) fun l hw => ?_
  have h1 : @fld 5 (0#3 ++ ad) 0 2 = ad := (fld_last (0#3) (ad))
  have h2 : @fld 5 (0#3 ++ ad) 2 3 = 0#3 := (fld_append_high (0#3) (ad) 2 3 (by decide)).trans ((fld_self (0#3)))
  have h3 : @fld 5 (0#4 ++ q) 0 1 = q := (fld_last (0#4) (q))
  have h4 : @fld 5 (0#4 ++ q) 1 4 = 0#4 := (fld_append_high (0#4) (q) 1 4 (by decide)).trans ((fld_self (0#4)))
  have h5 : @fld 7 (0#3 ++ rm.code ++ BitVec.ofBool t) 0 1 = BitVec.ofBool t := (fld_last (0#3 ++ rm.code) (BitVec.ofBool t))
  have h6 : @fld 7 (0#3 ++ rm.code ++ BitVec.ofBool t) 1 3 = rm.code := (fld_append_high (0#3 ++ rm.code) (BitVec.ofBool t) 1 3 (by decide)).trans ((fld_last (0#3) (rm.code)))
  have h7 : @fld 7 (0#3 ++ rm.code ++ BitVec.ofBool t) 4 3 = 0#3 := (fld_append_high (0#3 ++ rm.code) (BitVec.ofBool t) 4 3 (by decide)).trans ((fld_append_high (0#3) (rm.code) 3 3 (by decide)).trans ((fld_self (0#3))))
  refine (decode_eng ..).trans ?_
  show decodeEng 42 (0#3 ++ ad) (0#4 ++ q) 0 (0#3 ++ rm.code ++ BitVec.ofBool t) = _
  simp only [decodeEng, h1, h2, h3, h4, h5, h6, h7, RM.ofCode_code, ofBool_one]
  rfl
theorem qapr (t : Bool) (rm : RM) (ad : Acc) (q : QReg) : Statement (.qapr t rm ad q) := by
  refine statement_of (fun l => wordR l 6 43 (0#3 ++ ad) (0#4 ++ q) 0 (0#3 ++ rm.code ++ BitVec.ofBool t)) (fun _ => rfl) fun l hw => ?_
  have h1 : @fld 5 (0#3 ++ ad) 0 2 = ad := (fld_last (0#3) (ad))
  have h2 : @fld 5 (0#3 ++ ad) 2 3 = 0#3 := (fld_append_high (0#3) (ad) 2 3 (by decide)).trans ((fld_self (0#3)))
  have h3 : @fld 5 (0#4 ++ q) 0 1 = q := (fld_last (0#4) (q))
  have h4 : @fld 5 (0#4 ++ q) 1 4 = 0#4 := (fld_append_high (0#4) (q) 1 4 (by decide)).trans ((fld_self (0#4)))
  have h5 : @fld 7 (0#3 ++ rm.code ++ BitVec.ofBool t) 0 1 = BitVec.ofBool t := (fld_last (0#3 ++ rm.code) (BitVec.ofBool t))
  have h6 : @fld 7 (0#3 ++ rm.code ++ BitVec.ofBool t) 1 3 = rm.code := (fld_append_high (0#3 ++ rm.code) (BitVec.ofBool t) 1 3 (by decide)).trans ((fld_last (0#3) (rm.code)))
  have h7 : @fld 7 (0#3 ++ rm.code ++ BitVec.ofBool t) 4 3 = 0#3 := (fld_append_high (0#3 ++ rm.code) (BitVec.ofBool t) 4 3 (by decide)).trans ((fld_append_high (0#3) (rm.code) 3 3 (by decide)).trans ((fld_self (0#3))))
  refine (decode_eng ..).trans ?_
  show decodeEng 43 (0#3 ++ ad) (0#4 ++ q) 0 (0#3 ++ rm.code ++ BitVec.ofBool t) = _
  simp only [decodeEng, h1, h2, h3, h4, h5, h6, h7, RM.ofCode_code, ofBool_one]
  rfl
theorem qfold (rm : RM) (q : QReg) : Statement (.qfold rm q) := by
  refine statement_of (fun l => wordR l 6 44 (0#4 ++ q) 0 0 (0#4 ++ rm.code)) (fun _ => rfl) fun l hw => ?_
  have h1 : @fld 5 (0#4 ++ q) 0 1 = q := (fld_last (0#4) (q))
  have h2 : @fld 5 (0#4 ++ q) 1 4 = 0#4 := (fld_append_high (0#4) (q) 1 4 (by decide)).trans ((fld_self (0#4)))
  have h3 : @fld 7 (0#4 ++ rm.code) 0 3 = rm.code := (fld_last (0#4) (rm.code))
  have h4 : @fld 7 (0#4 ++ rm.code) 3 4 = 0#4 := (fld_append_high (0#4) (rm.code) 3 4 (by decide)).trans ((fld_self (0#4)))
  refine (decode_eng ..).trans ?_
  show decodeEng 44 (0#4 ++ q) 0 0 (0#4 ++ rm.code) = _
  simp only [decodeEng, h1, h2, h3, h4, RM.ofCode_code]
  rfl
theorem qrd (d : Reg) (q : QReg) : Statement (.qrd d q) := by
  refine statement_of (fun l => wordR l 6 45 d (0#4 ++ q) 0 0) (fun _ => rfl) fun l hw => ?_
  have h1 : @fld 5 (0#4 ++ q) 0 1 = q := (fld_last (0#4) (q))
  have h2 : @fld 5 (0#4 ++ q) 1 4 = 0#4 := (fld_append_high (0#4) (q) 1 4 (by decide)).trans ((fld_self (0#4)))
  refine (decode_eng ..).trans ?_
  show decodeEng 45 d (0#4 ++ q) 0 0 = _
  simp only [decodeEng, h1, h2]
  rfl
theorem qld (q : QReg) (a : Reg) : Statement (.qld q a) := by
  refine statement_of (fun l => wordR l 6 46 (0#4 ++ q) a 0 0) (fun _ => rfl) fun l hw => ?_
  have h1 : @fld 5 (0#4 ++ q) 0 1 = q := (fld_last (0#4) (q))
  have h2 : @fld 5 (0#4 ++ q) 1 4 = 0#4 := (fld_append_high (0#4) (q) 1 4 (by decide)).trans ((fld_self (0#4)))
  refine (decode_eng ..).trans ?_
  show decodeEng 46 (0#4 ++ q) a 0 0 = _
  simp only [decodeEng, h1, h2]
  rfl
theorem qst (q : QReg) (a : Reg) : Statement (.qst q a) := by
  refine statement_of (fun l => wordR l 6 47 (0#4 ++ q) a 0 0) (fun _ => rfl) fun l hw => ?_
  have h1 : @fld 5 (0#4 ++ q) 0 1 = q := (fld_last (0#4) (q))
  have h2 : @fld 5 (0#4 ++ q) 1 4 = 0#4 := (fld_append_high (0#4) (q) 1 4 (by decide)).trans ((fld_self (0#4)))
  refine (decode_eng ..).trans ?_
  show decodeEng 47 (0#4 ++ q) a 0 0 = _
  simp only [decodeEng, h1, h2]
  rfl
theorem qform (rm : RM) (q : QReg) (a : Reg) (b : Reg) : Statement (.qform rm q a b) := by
  refine statement_of (fun l => wordR l 6 48 (0#4 ++ q) a b (0#4 ++ rm.code)) (fun _ => rfl) fun l hw => ?_
  have h1 : @fld 5 (0#4 ++ q) 0 1 = q := (fld_last (0#4) (q))
  have h2 : @fld 5 (0#4 ++ q) 1 4 = 0#4 := (fld_append_high (0#4) (q) 1 4 (by decide)).trans ((fld_self (0#4)))
  have h3 : @fld 7 (0#4 ++ rm.code) 0 3 = rm.code := (fld_last (0#4) (rm.code))
  have h4 : @fld 7 (0#4 ++ rm.code) 3 4 = 0#4 := (fld_append_high (0#4) (rm.code) 3 4 (by decide)).trans ((fld_self (0#4)))
  refine (decode_eng ..).trans ?_
  show decodeEng 48 (0#4 ++ q) a b (0#4 ++ rm.code) = _
  simp only [decodeEng, h1, h2, h3, h4, RM.ofCode_code]
  rfl
theorem fmtp (f1 : Fmt) (f2 : Fmt) (fd : Fmt) : Statement (.fmtp f1 f2 fd) := by
  refine statement_of (fun l => wordI l 7 1 0 0 (fd.code ++ f2.code ++ f1.code)) (fun _ => rfl) fun l hw => ?_
  have h1 : @fld 12 (fd.code ++ f2.code ++ f1.code) 0 4 = f1.code := (fld_last (fd.code ++ f2.code) (f1.code))
  have h2 : @fld 12 (fd.code ++ f2.code ++ f1.code) 4 4 = f2.code := (fld_append_high (fd.code ++ f2.code) (f1.code) 4 4 (by decide)).trans ((fld_last (fd.code) (f2.code)))
  have h3 : @fld 12 (fd.code ++ f2.code ++ f1.code) 8 4 = fd.code := (fld_append_high (fd.code ++ f2.code) (f1.code) 8 4 (by decide)).trans ((fld_append_high (fd.code) (f2.code) 4 4 (by decide)).trans ((fld_self (fd.code))))
  refine (decode_sysS _ _ _ _ _ (by decide)).trans ?_
  show decodeSysS 1 0 0 (fd.code ++ f2.code ++ f1.code) = _
  simp only [decodeSysS, h1, h2, h3, Fmt.ofCode_code]
  rfl
theorem trap (n : BitVec 12) : Statement (.trap n) := by
  refine statement_of (fun l => wordI l 7 2 0 0 n) (fun _ => rfl) fun l hw => ?_
  refine (decode_sysS _ _ _ _ _ (by decide)).trans ?_
  show decodeSysS 2 0 0 n = _
  simp only [decodeSysS]
  rfl
theorem ebrk (n : BitVec 12) : Statement (.ebrk n) := by
  refine statement_of (fun l => wordI l 7 4 0 0 n) (fun _ => rfl) fun l hw => ?_
  refine (decode_sysS _ _ _ _ _ (by decide)).trans ?_
  show decodeSysS 4 0 0 n = _
  simp only [decodeSysS]
  rfl
theorem csrr (d : Reg) (csr : BitVec 12) : Statement (.csrr d csr) := by
  refine statement_of (fun l => wordI l 7 5 d 0 csr) (fun _ => rfl) fun l hw => ?_
  refine (decode_sysS _ _ _ _ _ (by decide)).trans ?_
  show decodeSysS 5 d 0 csr = _
  simp only [decodeSysS]
  rfl
theorem csrw (d : Reg) (csr : BitVec 12) (a : Reg) : Statement (.csrw d csr a) := by
  refine statement_of (fun l => wordI l 7 6 d a csr) (fun _ => rfl) fun l hw => ?_
  refine (decode_sysS _ _ _ _ _ (by decide)).trans ?_
  show decodeSysS 6 d a csr = _
  simp only [decodeSysS]
theorem csrs (d : Reg) (csr : BitVec 12) (a : Reg) : Statement (.csrs d csr a) := by
  refine statement_of (fun l => wordI l 7 7 d a csr) (fun _ => rfl) fun l hw => ?_
  refine (decode_sysS _ _ _ _ _ (by decide)).trans ?_
  show decodeSysS 7 d a csr = _
  simp only [decodeSysS]
theorem csrc (d : Reg) (csr : BitVec 12) (a : Reg) : Statement (.csrc d csr a) := by
  refine statement_of (fun l => wordI l 7 8 d a csr) (fun _ => rfl) fun l hw => ?_
  refine (decode_sysS _ _ _ _ _ (by decide)).trans ?_
  show decodeSysS 8 d a csr = _
  simp only [decodeSysS]
theorem ilock (d : Reg) (a : Reg) (nM1 : BitVec 8) : Statement (.ilock d a nM1) := by
  refine statement_of (fun l => wordI l 7 10 d a (0#4 ++ nM1)) (fun _ => rfl) fun l hw => ?_
  have h1 : @fld 12 (0#4 ++ nM1) 0 8 = nM1 := (fld_last (0#4) (nM1))
  have h2 : @fld 12 (0#4 ++ nM1) 8 4 = 0#4 := (fld_append_high (0#4) (nM1) 8 4 (by decide)).trans ((fld_self (0#4)))
  refine (decode_sysS _ _ _ _ _ (by decide)).trans ?_
  show decodeSysS 10 d a (0#4 ++ nM1) = _
  simp only [decodeSysS, h1, h2]
  rfl
theorem iunlk (d : Reg) (a : Reg) (nM1 : BitVec 8) : Statement (.iunlk d a nM1) := by
  refine statement_of (fun l => wordI l 7 11 d a (0#4 ++ nM1)) (fun _ => rfl) fun l hw => ?_
  have h1 : @fld 12 (0#4 ++ nM1) 0 8 = nM1 := (fld_last (0#4) (nM1))
  have h2 : @fld 12 (0#4 ++ nM1) 8 4 = 0#4 := (fld_append_high (0#4) (nM1) 8 4 (by decide)).trans ((fld_self (0#4)))
  refine (decode_sysS _ _ _ _ _ (by decide)).trans ?_
  show decodeSysS 11 d a (0#4 ++ nM1) = _
  simp only [decodeSysS, h1, h2]
  rfl
theorem grant (d : Reg) (a : Reg) (b : Reg) (rights : BitVec 4) : Statement (.grant d a b rights) := by
  refine statement_of (fun l => wordR l 7 12 d a b (0#3 ++ rights)) (fun _ => rfl) fun l hw => ?_
  have h1 : @fld 7 (0#3 ++ rights) 0 4 = rights := (fld_last (0#3) (rights))
  have h2 : @fld 7 (0#3 ++ rights) 4 3 = 0#3 := (fld_append_high (0#3) (rights) 4 3 (by decide)).trans ((fld_self (0#3)))
  refine (decode_sysE _ _ _ _ _ _ (by decide)).trans ?_
  show decodeSysE 12 d a b (0#3 ++ rights) = _
  simp only [decodeSysE, h1, h2]
  exact guardWf_of hw
theorem revoke (d : Reg) (a : Reg) (b : Reg) : Statement (.revoke d a b) := by
  refine statement_of (fun l => wordR l 7 13 d a b 0) (fun _ => rfl) fun l hw => ?_
  refine (decode_sysE _ _ _ _ _ _ (by decide)).trans ?_
  show decodeSysE 13 d a b 0 = _
  simp only [decodeSysE]
  rfl
theorem free (d : Reg) (a : Reg) (b : Reg) : Statement (.free d a b) := by
  refine statement_of (fun l => wordR l 7 14 d a b 0) (fun _ => rfl) fun l hw => ?_
  refine (decode_sysE _ _ _ _ _ _ (by decide)).trans ?_
  show decodeSysE 14 d a b 0 = _
  simp only [decodeSysE]
  exact guardWf_of hw
theorem rprobe (d : Reg) (a : Reg) : Statement (.rprobe d a) := by
  refine statement_of (fun l => wordR l 7 15 d a 0 0) (fun _ => rfl) fun l hw => ?_
  refine (decode_sysE _ _ _ _ _ _ (by decide)).trans ?_
  show decodeSysE 15 d a 0 0 = _
  simp only [decodeSysE]
  rfl
theorem unassignedOpcode (word : BitVec 32) : Statement (.unassignedOpcode word) := no_word fun _ => rfl
theorem ret : Statement .ret := by
  refine statement_of (fun l => wordJ l 8 0) (fun _ => rfl) fun l hw => ?_
  refine (decode_ctlJ _ _ _ (by decide)).trans ?_
  show decodeCtlJ 8 0 = _
  simp only [decodeCtlJ]
  rfl
theorem done : Statement .done := by
  refine statement_of (fun l => wordJ l 14 0) (fun _ => rfl) fun l hw => ?_
  refine (decode_ctlJ _ _ _ (by decide)).trans ?_
  show decodeCtlJ 14 0 = _
  simp only [decodeCtlJ]
  rfl
theorem cbar : Statement .cbar := by
  refine statement_of (fun l => wordR l 6 8 0 0 0 0) (fun _ => rfl) fun l hw => ?_
  refine (decode_eng ..).trans ?_
  show decodeEng 8 0 0 0 0 = _
  simp only [decodeEng]
  rfl
theorem yield : Statement .yield := by
  refine statement_of (fun l => wordR l 6 16 0 0 0 0) (fun _ => rfl) fun l hw => ?_
  refine (decode_eng ..).trans ?_
  show decodeEng 16 0 0 0 0 = _
  simp only [decodeEng]
  rfl
theorem msync : Statement .msync := by
  refine statement_of (fun l => wordR l 6 38 0 0 0 0) (fun _ => rfl) fun l hw => ?_
  refine (decode_eng ..).trans ?_
  show decodeEng 38 0 0 0 0 = _
  simp only [decodeEng]
  rfl
theorem nop : Statement .nop := by
  refine statement_of (fun l => wordI l 7 0 0 0 0) (fun _ => rfl) fun l hw => ?_
  refine (decode_sysS _ _ _ _ _ (by decide)).trans ?_
  show decodeSysS 0 0 0 0 = _
  simp only [decodeSysS]
  rfl
theorem rett : Statement .rett := by
  refine statement_of (fun l => wordI l 7 3 0 0 0) (fun _ => rfl) fun l hw => ?_
  refine (decode_sysS _ _ _ _ _ (by decide)).trans ?_
  show decodeSysS 3 0 0 0 = _
  simp only [decodeSysS]
  rfl
theorem ifence : Statement .ifence := by
  refine statement_of (fun l => wordI l 7 9 0 0 0) (fun _ => rfl) fun l hw => ?_
  refine (decode_sysS _ _ _ _ _ (by decide)).trans ?_
  show decodeSysS 9 0 0 0 = _
  simp only [decodeSysS]
  rfl
theorem deferredTrap : Statement .deferredTrap := no_word fun _ => rfl
theorem engineAccept : Statement .engineAccept := no_word fun _ => rfl
theorem vectorOpComplete : Statement .vectorOpComplete := no_word fun _ => rfl
theorem matrixService : Statement .matrixService := no_word fun _ => rfl
theorem matrixOpComplete : Statement .matrixOpComplete := no_word fun _ => rfl
theorem copyLine : Statement .copyLine := no_word fun _ => rfl
theorem copyEnd : Statement .copyEnd := no_word fun _ => rfl
theorem putDelivery : Statement .putDelivery := no_word fun _ => rfl
theorem waitcSatisfied : Statement .waitcSatisfied := no_word fun _ => rfl
theorem deqWake : Statement .deqWake := no_word fun _ => rfl
theorem crewBarrierComplete : Statement .crewBarrierComplete := no_word fun _ => rfl
theorem barwaitWake : Statement .barwaitWake := no_word fun _ => rfl
theorem phaseComplete : Statement .phaseComplete := no_word fun _ => rfl
theorem napWake : Statement .napWake := no_word fun _ => rfl
theorem msyncComplete : Statement .msyncComplete := no_word fun _ => rfl
theorem lcancelComplete : Statement .lcancelComplete := no_word fun _ => rfl
theorem cpykComplete : Statement .cpykComplete := no_word fun _ => rfl
theorem freeResult : Statement .freeResult := no_word fun _ => rfl
theorem grantPerformed : Statement .grantPerformed := no_word fun _ => rfl
theorem revocationCut : Statement .revocationCut := no_word fun _ => rfl
theorem coreCut : Statement .coreCut := no_word fun _ => rfl
theorem cutAcknowledge : Statement .cutAcknowledge := no_word fun _ => rfl
theorem revokeDone : Statement .revokeDone := no_word fun _ => rfl
theorem migrationLineCopy : Statement .migrationLineCopy := no_word fun _ => rfl
theorem migrDone : Statement .migrDone := no_word fun _ => rfl
theorem replDone : Statement .replDone := no_word fun _ => rfl
theorem sequencerWrite : Statement .sequencerWrite := no_word fun _ => rfl
theorem sealedBufferMove : Statement .sealedBufferMove := no_word fun _ => rfl
theorem faultRecord : Statement .faultRecord := no_word fun _ => rfl
theorem dispatch : Statement .dispatch := no_word fun _ => rfl
theorem crewDone : Statement .crewDone := no_word fun _ => rfl
theorem launchComplete : Statement .launchComplete := no_word fun _ => rfl
theorem dependenceTest : Statement .dependenceTest := no_word fun _ => rfl
theorem promotion : Statement .promotion := no_word fun _ => rfl
theorem coreReservation : Statement .coreReservation := no_word fun _ => rfl
theorem watchdogExpiry : Statement .watchdogExpiry := no_word fun _ => rfl
theorem leaderChange : Statement .leaderChange := no_word fun _ => rfl
theorem graceExpiry : Statement .graceExpiry := no_word fun _ => rfl
theorem drainEnd : Statement .drainEnd := no_word fun _ => rfl
theorem functionLevelReset : Statement .functionLevelReset := no_word fun _ => rfl
theorem coldReset : Statement .coldReset := no_word fun _ => rfl
theorem sensorAlarm : Statement .sensorAlarm := no_word fun _ => rfl
theorem tamperMeshBroken : Statement .tamperMeshBroken := no_word fun _ => rfl
theorem threadRegisterError : Statement .threadRegisterError := no_word fun _ => rfl
theorem engineRegisterError : Statement .engineRegisterError := no_word fun _ => rfl
theorem icacheError : Statement .icacheError := no_word fun _ => rfl
theorem correctedError : Statement .correctedError := no_word fun _ => rfl
theorem instructionFill : Statement .instructionFill := no_word fun _ => rfl
theorem textKeySwitch : Statement .textKeySwitch := no_word fun _ => rfl
theorem flitReceive : Statement .flitReceive := no_word fun _ => rfl
theorem sublinkRekey : Statement .sublinkRekey := no_word fun _ => rfl
theorem expanderLinkDown : Statement .expanderLinkDown := no_word fun _ => rfl
theorem powerSample : Statement .powerSample := no_word fun _ => rfl
theorem identify : Statement .identify := no_word fun _ => rfl
theorem attest : Statement .attest := no_word fun _ => rfl
theorem ctxCreate : Statement .ctxCreate := no_word fun _ => rfl
theorem ctxCreateRootEntry : Statement .ctxCreateRootEntry := no_word fun _ => rfl
theorem ctxCreateRemoveRoot : Statement .ctxCreateRemoveRoot := no_word fun _ => rfl
theorem ctxDestroy : Statement .ctxDestroy := no_word fun _ => rfl
theorem jobStart : Statement .jobStart := no_word fun _ => rfl
theorem jobCancel : Statement .jobCancel := no_word fun _ => rfl
theorem preempt : Statement .preempt := no_word fun _ => rfl
theorem restore : Statement .restore := no_word fun _ => rfl
theorem checkpoint : Statement .checkpoint := no_word fun _ => rfl
theorem checkpointRecover : Statement .checkpointRecover := no_word fun _ => rfl
theorem setQos : Statement .setQos := no_word fun _ => rfl
theorem setQosConfigRecord : Statement .setQosConfigRecord := no_word fun _ => rfl
theorem dirtyLogCfg : Statement .dirtyLogCfg := no_word fun _ => rfl
theorem readCounter : Statement .readCounter := no_word fun _ => rfl
theorem rasLog : Statement .rasLog := no_word fun _ => rfl
theorem keyUpdate : Statement .keyUpdate := no_word fun _ => rfl
theorem keyUpdateAllowList : Statement .keyUpdateAllowList := no_word fun _ => rfl
theorem getVersion : Statement .getVersion := no_word fun _ => rfl
theorem getCapabilities : Statement .getCapabilities := no_word fun _ => rfl
theorem negotiateAlgorithms : Statement .negotiateAlgorithms := no_word fun _ => rfl
theorem getDigests : Statement .getDigests := no_word fun _ => rfl
theorem getCertificate : Statement .getCertificate := no_word fun _ => rfl
theorem challenge : Statement .challenge := no_word fun _ => rfl
theorem getMeasurements : Statement .getMeasurements := no_word fun _ => rfl
theorem keyExchange : Statement .keyExchange := no_word fun _ => rfl
theorem finish : Statement .finish := no_word fun _ => rfl
theorem spdmKeyUpdate : Statement .spdmKeyUpdate := no_word fun _ => rfl
theorem heartbeat : Statement .heartbeat := no_word fun _ => rfl
theorem endSession : Statement .endSession := no_word fun _ => rfl
theorem lockInterfaceRequest : Statement .lockInterfaceRequest := no_word fun _ => rfl
theorem getDeviceInterfaceReport : Statement .getDeviceInterfaceReport := no_word fun _ => rfl
theorem getDeviceInterfaceState : Statement .getDeviceInterfaceState := no_word fun _ => rfl
theorem startInterfaceRequest : Statement .startInterfaceRequest := no_word fun _ => rfl
theorem stopInterfaceRequest : Statement .stopInterfaceRequest := no_word fun _ => rfl
theorem resolve : Statement .resolve := no_word fun _ => rfl
theorem reject : Statement .reject := no_word fun _ => rfl
theorem fqstRead : Statement .fqstRead := no_word fun _ => rfl
theorem dirtyLogReset : Statement .dirtyLogReset := no_word fun _ => rfl
theorem dlconsWrite : Statement .dlconsWrite := no_word fun _ => rfl
theorem tlbi : Statement .tlbi := no_word fun _ => rfl
theorem invalidationDone : Statement .invalidationDone := no_word fun _ => rfl
theorem apertureAccess : Statement .apertureAccess := no_word fun _ => rfl
theorem registerWrite : Statement .registerWrite := no_word fun _ => rfl
theorem bandwidthWindowEnd : Statement .bandwidthWindowEnd := no_word fun _ => rfl
theorem interfaceError : Statement .interfaceError := no_word fun _ => rfl
theorem memoryManagerMove : Statement .memoryManagerMove := no_word fun _ => rfl
theorem streamFetchAhead : Statement .streamFetchAhead := no_word fun _ => rfl

end Sys2Proof.Laws.Encoding
end

