-- ==== Sys2Proof/Tests/Slice0.lean ====
section
/-! SUPPORT. The model's own tests: ill-formed terms refused, words written out from the spec's encodings, results of single steps worked
out from the spec's rules by hand, and, for every obligation with hypotheses, a witness: concrete states and operands that meet the
hypotheses of each clause together, at the values where clauses meet. -/

namespace Sys2Proof.Tests

open Sys2Proof.Machine

set_option Elab.async false
set_option maxRecDepth 4000

/-! ### Ill-formed terms are refused (spec/03_encoding.md R86; R99, R109, R147, R165, R195, R196, R233, R241) -/

theorem test_wf_bfx : (Instr.bfx 1 2 60 4).wf = false ∧ (Instr.bfx 1 2 60 3).wf = true := by decide
theorem test_wf_bfi : (Instr.bfi 1 2 1 63).wf = false ∧ (Instr.bfi 1 2 0 63).wf = true := by decide
theorem test_wf_ldaq : (Instr.ldaq .w64 .rel .clu 1 2).wf = false ∧ (Instr.ldaq .w64 .sc .clu 1 2).wf = true := by decide
theorem test_wf_strl : (Instr.strl .w64 .acq .clu 1 2).wf = false ∧ (Instr.strl .w64 .rel .clu 1 2).wf = true := by decide
theorem test_wf_fence : (Instr.fence .rlx .core).wf = false ∧ (Instr.fence .sc .sys).wf = true := by decide
theorem test_wf_lpset : (Instr.lpset .l0 1 3).wf = false ∧ (Instr.lpset .l0 1 2).wf = true := by decide
theorem test_wf_lpseti : (Instr.lpseti .l1 1 1).wf = false ∧ (Instr.lpseti .l1 1 0).wf = true := by decide
theorem test_wf_deq : (Instr.deq 0).wf = false ∧ (Instr.deq 13).wf = false ∧ (Instr.deq 12).wf = true := by decide
theorem test_wf_nap : (Instr.nap 0).wf = false ∧ (Instr.nap 1).wf = true := by decide
theorem test_wf_cpy : (Instr.cpy 1 21).wf = false ∧ (Instr.cpy 1 20).wf = true := by decide
theorem test_wf_migr : (Instr.migr .exp 1 1 2 3).wf = false ∧ (Instr.migr .hbm 1 1 2 3).wf = true := by decide
theorem test_wf_strcfg : (Instr.strcfg 0 1 29).wf = false ∧ (Instr.strcfg 0 1 28).wf = true := by decide
theorem test_wf_grant : (Instr.grant 1 2 3 0).wf = false ∧ (Instr.grant 1 2 3 8).wf = true := by decide
theorem test_wf_free : (Instr.free 0 1 2).wf = false ∧ (Instr.free 3 1 2).wf = false ∧ (Instr.free 2 1 2).wf = true := by decide
theorem test_wf_ev : ({ c := 1536 } : Ev).wf = false ∧ ({ sl := 16 } : Ev).wf = false ∧ ({ c := 1535, sl := 15, fn := 32 } : Ev).wf = true := by decide

/-! ### Words of the spec's encodings (spec/03_encoding.md R73 to R92, and the examples of the instruction chapters) -/

theorem test_word_int : decode 0x800A6380 = .ok (.add 5 6 7) ∧ decode 0x900A00F8 = .ok (.addi 5 0 248) ∧
    decode 0x910A5030 = .ok (.slli 5 5 48) := ⟨rfl, rfl, rfl⟩
theorem test_word_ctl : decode 0xD0941FFC = .ok (.bne 5 0 0x1FFC) ∧ decode 0xD6403002 = .ok (.lpseti .l1 3 2) := ⟨rfl, rfl⟩
theorem test_word_fp : decode 0xAC204221 = .ok (.fma .w64 .rne 4 1 1 2) ∧ decode 0x244A6002 = .ok (.fcvt .w32 .rne true 5 6) ∧
    decode 0x70400511 = .ok (.fmtp .fp32 .fp32 .e4m3) := ⟨rfl, rfl, rfl⟩
theorem test_word_vec : decode 0xB5051040 = .ok (.vrsum .w32 .rne 5 4 4) := rfl
theorem test_word_mem : decode 0xC28A6002 = .ok (.std 5 6 2) ∧ decode 0xC40A6241 = .ok (.ldaq .w64 .acq .clu 5 6) ∧
    decode 0xC48E96D1 = .ok (.amoadd .w64 .ar .dev 7 8 9) ∧ decode 0xC7400900 = .ok (.fence .sc .sys) ∧
    decode 0xC8033002 = .ok (.vld 3 6 2) := ⟨rfl, rfl, rfl, rfl, rfl⟩
theorem test_word_sync : decode 0xE0542A81 = .ok (.putb 2 21 10 1) ∧ decode 0xE14C0385 = .ok (.waitc 6 7 5) ∧
    decode 0xE1980000 = .ok (.deq 12) ∧ decode 0xE28A0003 = .ok (.bararr 5 3) := ⟨rfl, rfl, rfl, rfl⟩
theorem test_word_work : decode 0xE34A6000 = .ok (.launch 5 6) ∧ decode 0xE4000000 = .ok .yield ∧
    decode 0xE4AA8000 = .ok (.cpy 21 8) ∧ decode 0xE5C8A000 = .ok (.strcfg 0 4 10) := ⟨rfl, rfl, rfl, rfl⟩
theorem test_word_matrix : decode 0xE6829000 = .ok (.tcfg 1 9) ∧ decode 0xE9026200 = .ok (.acst 1 6 4) ∧
    decode 0xEA401080 = .ok (.qapp .rne 0 1 1 0) ∧ decode 0xE9800000 = .ok .msync := ⟨rfl, rfl, rfl, rfl⟩
theorem test_word_sys : decode 0xF181600A = .ok (.csrw 0 10 22) ∧ decode 0xF3145381 = .ok (.grant 10 5 7 1) ∧
    decode 0xF0C00000 = .ok .rett ∧ decode 0xF0000000 = .ok .nop := ⟨rfl, rfl, rfl, rfl⟩
theorem test_word_unassigned : decode 0xFFFFFFFF = .error .unassigned := rfl
/-- A nonzero reserved bit of NOP is refused by name (R86). -/
theorem test_word_reserved : (decode 0xF0000001).isOk = false := by decide +kernel

/-! ### A thread to step (log 20) -/

/-- The state an outcome answers. -/
def nextOf : Out → State
  | .next s => s
  | _ => {}

/-- The outcome is a next state. -/
def isNext : Out → Bool
  | .next _ => true
  | _ => false

theorem next_of {o : Out} (h : isNext o = true) : o = .next (nextOf o) := by
  cases o <;> simp_all [isNext, nextOf]

/-- The state an operation passes with. -/
def stateOf {α : Type} : Res α → State
  | .ok s _ => s
  | _ => {}

/-- The value an operation passes with. -/
def valueOf {α : Type} : Res α → Option α
  | .ok _ x => some x
  | _ => none

theorem ok_of {α : Type} {r : Res α} {x : α} (h : valueOf r = some x) : r = .ok (stateOf r) x := by
  cases r <;> simp_all [valueOf, stateOf]

/-- The fault an outcome stops with. -/
def faultOf : Out → Option Fault
  | .fault f => some f
  | _ => none

theorem fault_of {o : Out} {f : Fault} (h : faultOf o = some f) : o = .fault f := by
  cases o <;> simp_all [faultOf]

/-- A thread of owner 1 with a lone NOP at its pc. -/
def at0 : State := State.reset.place 0xF0000000

/-- General registers written. -/
def withG (s : State) (l : List (Reg × Word)) : State := l.foldl (fun s e => s.setG e.1 e.2) s
/-- Floating registers written. -/
def withF (s : State) (l : List (Reg × Word)) : State := l.foldl (fun s e => s.setF e.1 e.2) s

/-- The general register that an instruction leaves. -/
def gAfter (i : Instr) (s : State) (r : Reg) : Word := (nextOf (exec i s)).g r
/-- The trap that an instruction takes. -/
def trapOf (i : Instr) (s : State) : Option TrapInfo := (nextOf (exec i s)).iss.trap

/-- A word reads as an instruction. -/
def reads (e : BitVec 32 × Instr) : Bool :=
  match decode e.1 with
  | .ok i => i == e.2
  | .error _ => false

/-! One word for every row of the spec's table with an encoding: the row's fixed bits, L = 1, and a different number in every field,
placed as the row places it. -/

theorem test_words_int_r_1 : ([
    (0x800A6380, .add 5 6 7), (0x804A6380, .sub 5 6 7), (0x808A6380, .and 5 6 7),
    (0x80CA6380, .or 5 6 7), (0x810A6380, .xor 5 6 7), (0x814A6380, .andn 5 6 7),
    (0x818A6380, .sll 5 6 7), (0x81CA6380, .srl 5 6 7), (0x820A6380, .sra 5 6 7),
    (0x824A6380, .rol 5 6 7), (0x828A6380, .ror 5 6 7), (0x82CA6380, .mul 5 6 7),
    (0x830A6380, .mulh 5 6 7), (0x834A6380, .mulhu 5 6 7), (0x838A6380, .div 5 6 7),
    (0x83CA6380, .divu 5 6 7), (0x840A6380, .rem 5 6 7), (0x844A6380, .remu 5 6 7),
    (0x848A6380, .min 5 6 7), (0x84CA6380, .max 5 6 7)] : List (BitVec 32 × Instr)).all reads = true := by decide +kernel

theorem test_words_int_r_2 : ([
    (0x850A6380, .minu 5 6 7), (0x854A6380, .maxu 5 6 7), (0x858A6380, .seq 5 6 7),
    (0x85CA6380, .slt 5 6 7), (0x860A6380, .sltu 5 6 7), (0x864A6380, .sel 5 6 7),
    (0x868A6000, .clz 5 6), (0x86CA6000, .ctz 5 6), (0x870A6000, .popc 5 6),
    (0x874A6000, .brev 5 6), (0x878A6000, .bswap 5 6), (0x87CA6380, .addw 5 6 7),
    (0x880A6380, .subw 5 6 7), (0x884A6380, .mulw 5 6 7), (0x888A6380, .sllw 5 6 7),
    (0x88CA6380, .srlw 5 6 7), (0x890A6380, .sraw 5 6 7), (0x894A63B0, .shadd 5 6 7 3),
    (0x898A6380, .addv 5 6 7), (0x89CA6380, .subv 5 6 7)] : List (BitVec 32 × Instr)).all reads = true := by decide +kernel

theorem test_words_int_r_3 : ([
    (0x8A0A6380, .xya 5 6 7), (0x8A4A6380, .xyr 5 6 7), (0x8A4A0381, .xyrSelf 5 7),
    (0x8A8A6380, .agep 5 6 7), (0x8ACA6000, .agex 5 6)] : List (BitVec 32 × Instr)).all reads = true := by decide +kernel

theorem test_words_int_i : ([
    (0x900A62BC, .addi 5 6 700), (0x904A62BC, .andi 5 6 700), (0x908A62BC, .ori 5 6 700),
    (0x90CA62BC, .xori 5 6 700), (0x910A6003, .slli 5 6 3), (0x914A6003, .srli 5 6 3),
    (0x918A6003, .srai 5 6 3), (0x91CA62BC, .seqi 5 6 700), (0x920A62BC, .slti 5 6 700),
    (0x924A62BC, .sltui 5 6 700), (0x928A62BC, .addwi 5 6 700), (0x92CA6245, .bfx 5 6 5 9),
    (0x930A6245, .bfi 5 6 5 9), (0x934A02BC, .lui 5 700), (0x938A02BC, .apc 5 700)] : List (BitVec 32 × Instr)).all reads = true := by decide +kernel

theorem test_words_fp_1 : ([
    (0xA00A63B1, .fadd .w64 .rup 5 6 7), (0xA04A63B1, .fsub .w64 .rup 5 6 7), (0xA08A63B1, .fmul .w64 .rup 5 6 7),
    (0xA0CA63B1, .fdiv .w64 .rup 5 6 7), (0xA10A6031, .fsqrt .w64 .rup 5 6), (0xA14A63B1, .fmin .w64 .rup 5 6 7),
    (0xA18A63B1, .fmax .w64 .rup 5 6 7), (0xA1CA63B1, .fminm .w64 .rup 5 6 7), (0xA20A63B1, .fmaxm .w64 .rup 5 6 7),
    (0xA24A63B1, .feq .w64 .rup 5 6 7), (0xA28A63B1, .flt .w64 .rup 5 6 7), (0xA2CA63B1, .fle .w64 .rup 5 6 7),
    (0xA30A6031, .fclass .w64 .rup 5 6), (0xA34A63B1, .fsgn .w64 .rup 5 6 7), (0xA38A63B1, .fsgnn .w64 .rup 5 6 7),
    (0xA3CA63B1, .fsgnx .w64 .rup 5 6 7), (0xA40A6033, .frint .w64 .rup true 5 6), (0xA44A6033, .fcvt .w64 .rup true 5 6),
    (0xA48A6031, .fcvti .w64 .rup 5 6), (0xA4CA6031, .fcvtf .w64 .rup 5 6)] : List (BitVec 32 × Instr)).all reads = true := by decide +kernel

theorem test_words_fp_2 : ([
    (0xA50A6031, .fmvg .w64 .rup 5 6), (0xA54A6031, .fmvf .w64 .rup 5 6), (0xA58A63B1, .fscale .w64 .rup 5 6 7),
    (0xA5CA6031, .fexp .w64 .rup 5 6), (0xA60A6031, .fexp2 .w64 .rup 5 6), (0xA64A6031, .flog .w64 .rup 5 6),
    (0xA68A6031, .flog2 .w64 .rup 5 6), (0xA6CA6031, .frcp .w64 .rup 5 6), (0xA70A6031, .frsq .w64 .rup 5 6),
    (0xA74A6031, .fsin .w64 .rup 5 6), (0xA78A6031, .fcos .w64 .rup 5 6), (0xA7CA6031, .ftanh .w64 .rup 5 6),
    (0xA80A6031, .ferf .w64 .rup 5 6), (0xAC298E87, .fma .w64 .rup 5 6 7 8), (0xAD298E87, .fms .w64 .rup 5 6 7 8),
    (0xAE298E87, .fnma .w64 .rup 5 6 7 8), (0xAF298E87, .fnms .w64 .rup 5 6 7 8)] : List (BitVec 32 × Instr)).all reads = true := by decide +kernel

theorem test_words_vec_1 : ([
    (0xB0218A37, .vadd .w64 .rup 33 34 35), (0xB0618A37, .vsub .w64 .rup 33 34 35), (0xB0A18A37, .vmul .w64 .rup 33 34 35),
    (0xB0E18A37, .vfma .w64 .rup 33 34 35), (0xB1218A37, .vfms .w64 .rup 33 34 35), (0xB1618A37, .vdiv .w64 .rup 33 34 35),
    (0xB1A18807, .vsqrt .w64 .rup 33 34), (0xB1E18A37, .vmin .w64 .rup 33 34 35), (0xB2218A37, .vmax .w64 .rup 33 34 35),
    (0xB2618A37, .vand .w64 .rup 33 34 35), (0xB2A18A37, .vor .w64 .rup 33 34 35), (0xB2E18A37, .vxor .w64 .rup 33 34 35),
    (0xB3218A37, .vsll .w64 .rup 33 34 35), (0xB3618A37, .vsrl .w64 .rup 33 34 35), (0xB3A18A37, .vsra .w64 .rup 33 34 35),
    (0xB3E18A37, .vcmpeq .w64 .rup 33 34 35), (0xB4218A37, .vcmplt .w64 .rup 33 34 35), (0xB4618A37, .vcmple .w64 .rup 33 34 35),
    (0xB4A18A37, .vsel .w64 .rup 33 34 35), (0xB4E188D7, .vcvt .w64 .rup true 33 34 6)] : List (BitVec 32 × Instr)).all reads = true := by decide +kernel

theorem test_words_vec_2 : ([
    (0xB5218A37, .vrsum .w64 .rup 33 34 35), (0xB5618A37, .vrmax .w64 .rup 33 34 35), (0xB5A18A37, .vrmin .w64 .rup 33 34 35),
    (0xB5E18A37, .vdot .w64 .rup 33 34 35), (0xB6219007, .vbcst .w64 .rup 33 (.f 4)), (0xB66488B7, .vext .w64 .rup (.f 4) 34 11),
    (0xB6A190B7, .vins .w64 .rup 33 (.f 4) 11), (0xB6E18A37, .vperm .w64 .rup 33 34 35), (0xB7218807, .vmov .w64 .rup 33 34),
    (0xB7618887, .vfn .w64 .rup 33 34 .tanh)] : List (BitVec 32 × Instr)).all reads = true := by decide +kernel

theorem test_words_mem_1 : ([
    (0xC0127003, .ldb 9 7 3), (0xC0527003, .ldbu 9 7 3), (0xC0927003, .ldh 9 7 3),
    (0xC0D27003, .ldhu 9 7 3), (0xC1127003, .ldw 9 7 3), (0xC1527003, .ldwu 9 7 3),
    (0xC1927003, .ldd 9 7 3), (0xC1D27003, .stb 9 7 3), (0xC2127003, .sth 9 7 3),
    (0xC2527003, .stw 9 7 3), (0xC2927003, .std 9 7 3), (0xC2D27003, .fldw 9 7 3),
    (0xC3127003, .fldd 9 7 3), (0xC3527003, .fstw 9 7 3), (0xC3927003, .fstd 9 7 3),
    (0xC3C27003, .pref .wr 7 3), (0xC41268C1, .ldaq .w64 .sc .dev 9 6), (0xC45264C1, .strl .w64 .rel .dev 9 6),
    (0xC49266CF, .amoadd .w64 .ar .dev 9 7 6), (0xC4D266CF, .amoand .w64 .ar .dev 9 7 6)] : List (BitVec 32 × Instr)).all reads = true := by decide +kernel

theorem test_words_mem_2 : ([
    (0xC51266CF, .amoor .w64 .ar .dev 9 7 6), (0xC55266CF, .amoxor .w64 .ar .dev 9 7 6), (0xC59266CF, .amomin .w64 .ar .dev 9 7 6),
    (0xC5D266CF, .amomax .w64 .ar .dev 9 7 6), (0xC61266CF, .amominu .w64 .ar .dev 9 7 6), (0xC65266CF, .amomaxu .w64 .ar .dev 9 7 6),
    (0xC69266CF, .amoswp .w64 .ar .dev 9 7 6), (0xC6D266CF, .amocas .w64 .ar .dev 9 7 6), (0xC71266CF, .amofadd .w64 .ar .dev 9 7 6),
    (0xC74006C0, .fence .ar .dev), (0xC78060C0, .cflush .dev 6), (0xC7C060C0, .cinv .dev 6),
    (0xC8243803, .vld 36 7 3), (0xC8643803, .vst 36 7 3), (0xC8A43A82, .vlds .w 36 7 10),
    (0xC8E43A82, .vsts .w 36 7 10), (0xC9243A82, .vgth .w 36 7 10), (0xC9643A82, .vsct .w 36 7 10)] : List (BitVec 32 × Instr)).all reads = true := by decide +kernel

theorem test_words_ctl : ([
    (0xD018E003, .beq 6 7 3), (0xD098E003, .bne 6 7 3), (0xD118E003, .blt 6 7 3),
    (0xD198E003, .bge 6 7 3), (0xD218E003, .bltu 6 7 3), (0xD298E003, .bgeu 6 7 3),
    (0xD3000003, .jmp 3), (0xD3800003, .call 3), (0xD4000000, .ret),
    (0xD498E000, .jtab 6 7), (0xD5012345, .lpad 74565), (0xD5D00004, .lpset .l1 8 4),
    (0xD6421004, .lpseti .l1 33 4), (0xD6C00000, .lpoff .l1), (0xD7000000, .done)] : List (BitVec 32 × Instr)).all reads = true := by decide +kernel

theorem test_words_eng_1 : ([
    (0xE000638D, .put 6 7 13), (0xE04A638D, .putb 6 7 5 13), (0xE08A000D, .cntrd 5 13),
    (0xE0C003CD, .cntset true 13 7), (0xE10A03CD, .cntadd true 5 7 13), (0xE14A038D, .waitc 5 7 13),
    (0xE1880000, .deq 4), (0xE1CA0000, .peek 5), (0xE2000000, .cbar),
    (0xE240601D, .barcfg .strict 6 13), (0xE28A000D, .bararr 5 13), (0xE2C0600D, .barwait 6 13),
    (0xE30A6000, .phase 5 6), (0xE34A6000, .launch 5 6), (0xE38A6002, .lcancel 5 6 2),
    (0xE3CA6002, .lcount 5 6 2), (0xE4000000, .yield), (0xE4400002, .nap 2),
    (0xE48A6000, .cpy 5 6), (0xE4CA6000, .cpys 5 6)] : List (BitVec 32 × Instr)).all reads = true := by decide +kernel

theorem test_words_eng_2 : ([
    (0xE50A6000, .cpyk 5 6), (0xE54A6384, .migr .hbm 1 5 6 7), (0xE58A6382, .repl 5 6 7 2),
    (0xE5D26003, .strcfg 3 9 6), (0xE6000003, .strgo 3), (0xE6400003, .strstop 3),
    (0xE6946000, .tcfg 10 6), (0xE6CA3001, .trdc 5 (.acc 3)), (0xE7146380, .tld 10 6 7),
    (0xE74A600A, .tldk 5 10 6), (0xE7946380, .tst 10 6 7), (0xE7D40000, .tz 10),
    (0xE8146380, .tscl 10 6 7), (0xE844B60D, .mma true false .rup 2 11 12), (0xE8846000, .acz 2 6),
    (0xE8C46380, .acld 2 6 7), (0xE9046380, .acst 2 6 7), (0xE954300B, .accv .rup true 10 3),
    (0xE9800000, .msync), (0xE9C26000, .qcfg 1 6)] : List (BitVec 32 × Instr)).all reads = true := by decide +kernel

theorem test_words_eng_3 : ([
    (0xEA020000, .qz 1), (0xEA42A3B9, .qapp .rup 1 10 7 9), (0xEA841007, .qapl true .rup 2 1),
    (0xEAC41007, .qapr true .rup 2 1), (0xEB020003, .qfold .rup 1), (0xEB4A1000, .qrd 5 1),
    (0xEB826000, .qld 1 6), (0xEBC26000, .qst 1 6), (0xEC026383, .qform .rup 1 6 7)] : List (BitVec 32 × Instr)).all reads = true := by decide +kernel

theorem test_words_sys : ([
    (0xF0000000, .nop), (0xF0400185, .fmtp .e4m3 .e2m1 .fp32), (0xF080000D, .trap 13),
    (0xF0C00000, .rett), (0xF100000D, .ebrk 13), (0xF14A0023, .csrr 5 35),
    (0xF18A6023, .csrw 5 35 6), (0xF1CA6023, .csrs 5 35 6), (0xF20A6023, .csrc 5 35 6),
    (0xF2400000, .ifence), (0xF28A6007, .ilock 5 6 7), (0xF2CA6007, .iunlk 5 6 7),
    (0xF30A6385, .grant 5 6 7 5), (0xF34A6380, .revoke 5 6 7), (0xF3886380, .free 4 6 7),
    (0xF3CA6000, .rprobe 5 6)] : List (BitVec 32 × Instr)).all reads = true := by decide +kernel

/-! ### Integer instructions (results worked out by hand from R95 to R100) -/

/-- g1 = -7, g2 = 3, g3 = 2^63, g4 = 2^63 - 1, g6 = 2^63 + 5, g7 = all ones. -/
def ints : State := withG at0 [(1, -7), (2, 3), (3, 0x8000_0000_0000_0000), (4, 0x7FFF_FFFF_FFFF_FFFF), (6, 0x8000_0000_0000_0005), (7, -1)]

theorem test_add_wraps : gAfter (.add 5 7 2) ints 5 = 2 ∧ gAfter (.add 0 7 2) ints 0 = 0 := by decide +kernel
theorem test_sub_shifts : gAfter (.sub 5 2 1) ints 5 = 10 ∧ gAfter (.sra 5 3 2) ints 5 = 0xF000_0000_0000_0000 ∧
    gAfter (.srl 5 3 2) ints 5 = 0x1000_0000_0000_0000 ∧ gAfter (.sll 5 6 2) ints 5 = 0x28 ∧ gAfter (.rol 5 6 2) ints 5 = 0x2C ∧
    gAfter (.ror 5 6 2) ints 5 = 0xB000_0000_0000_0000 ∧ gAfter (.sll 5 2 7) ints 5 = 0x8000_0000_0000_0000 := by decide +kernel
theorem test_products : gAfter (.mul 5 1 2) ints 5 = -21 ∧ gAfter (.mulh 5 1 2) ints 5 = -1 ∧ gAfter (.mulhu 5 1 2) ints 5 = 2 := by decide +kernel
theorem test_compare : gAfter (.slt 5 1 2) ints 5 = 1 ∧ gAfter (.sltu 5 1 2) ints 5 = 0 ∧ gAfter (.min 5 1 2) ints 5 = -7 ∧
    gAfter (.minu 5 1 2) ints 5 = 3 ∧ gAfter (.sel 7 1 2) ints 7 = -7 ∧ gAfter (.sel 5 1 2) ints 5 = 3 := by decide +kernel
theorem test_counts : gAfter (.clz 5 2) ints 5 = 62 ∧ gAfter (.clz 5 0) ints 5 = 64 ∧ gAfter (.ctz 5 3) ints 5 = 63 ∧ gAfter (.popc 5 6) ints 5 = 3 ∧
    gAfter (.brev 5 6) ints 5 = 0xA000_0000_0000_0001 ∧ gAfter (.bswap 5 2) ints 5 = 0x0300_0000_0000_0000 := by decide +kernel
/-- Divisors of zero, the one overflow, and truncation toward zero (R96). -/
theorem test_divide : gAfter (.div 5 1 0) ints 5 = -1 ∧ gAfter (.div 5 3 7) ints 5 = 0x8000_0000_0000_0000 ∧ gAfter (.rem 5 3 7) ints 5 = 0 ∧
    gAfter (.div 5 1 2) ints 5 = -2 ∧ gAfter (.rem 5 1 2) ints 5 = -1 ∧ gAfter (.remu 5 2 0) ints 5 = 3 := by decide +kernel
theorem test_words : gAfter (.addw 5 4 2) ints 5 = 2 ∧ gAfter (.subw 5 0 2) ints 5 = -3 ∧ gAfter (.sraw 5 6 2) ints 5 = 0 ∧
    gAfter (.srlw 5 1 2) ints 5 = 0x1FFF_FFFF := by decide +kernel
/-- The largest sum goes through; one more overflows, with g0 as destination too (R98). -/
theorem test_addv : gAfter (.addv 5 4 0) ints 5 = 0x7FFF_FFFF_FFFF_FFFF ∧
    trapOf (.addv 0 4 4) ints = some { cause := 7, taddr := 0, tval := 0xFFFF_FFFF_FFFF_FFFE } ∧
    trapOf (.subv 5 3 2) ints = some { cause := 7, taddr := 0, tval := 0x7FFF_FFFF_FFFF_FFFD } := by decide +kernel
/-- Fields of bit-field instructions that end at bit 63 (R99); the hypothesis of ImmediatesAndPointers. -/
theorem witness_bit_fields : (Instr.bfx 5 6 60 3).wf = true ∧ (Instr.bfi 5 2 60 3).wf = true ∧ gAfter (.bfx 5 6 60 3) ints 5 = 8 ∧
    gAfter (.bfi 4 2 60 3) ints 4 = 0x3FFF_FFFF_FFFF_FFFF := by decide +kernel
/-- Coordinates and offsets at and beyond their ends (R100). -/
theorem test_xya : gAfter (.xya 5 2 1) (withG at0 [(1, 0x3FFFF), (2, 0x0017_003F)]) 5 = 0x00F8_3FB8_0003_FFFF ∧
    trapOf (.xya 5 2 1) (withG at0 [(2, 0x0018_003F)]) = some { cause := 0x12 } ∧
    trapOf (.xyr 5 2 1) (withG at0 [(1, 0x40000)]) = some { cause := 0x12 } ∧
    gAfter (.xyr 5 2 1) (withG at0 [(2, -1)]) 5 = 0x00F8_7FB8_0000_0000 := by decide +kernel
theorem test_immediates : gAfter (.addi 5 2 0xFFD) ints 5 = 0 ∧ gAfter (.sltui 5 2 0xFFF) ints 5 = 1 ∧ gAfter (.lui 5 0x1FFFF) ints 5 = -4096 ∧
    gAfter (.slli 5 2 63) ints 5 = 0x8000_0000_0000_0000 ∧
    gAfter (.apc 5 1) { ints with iss := { addr := 0xAB00_0000_0010_0004 } } 5 = 0xAB00_0000_0010_1004 := by decide +kernel

/-! ### Control flow -/

/-- A thread with both loops set: bodies 0x100200 to 0x100208 (loop 0) and 0x100208 (loop 1). -/
def inLoops (la0 la1 : Bool) (lc0 lc1 : Word) : Thread :=
  ({ at0.th with loops := { lc0, ls0 := 0x100200, le0 := 0x100208, lc1, ls1 := 0x100208, le1 := 0x100208 } }.setLa .l0 la0).setLa .l1 la1

theorem test_branches : (nextOf (exec (.bne 2 1 0x1FFF) { ints with iss := { addr := 0x100000 } })).iss.disp = .xfer 0xFFFFC ∧
    (nextOf (exec (.bltu 1 2 1) { ints with iss := { addr := 0x100000 } })).iss.disp = .seq ∧
    (nextOf (exec (.bge 3 1 1) ints)).iss.disp = .seq ∧ trapOf .ret (withG at0 [(1, 0x100002)]) = some { cause := 9 } := by decide +kernel
/-- The hypotheses of each clause of Loops on the choice of the next PC, both counts at 1 and at 2 (R111). -/
theorem witness_loops :
    (let t := inLoops true true 2 2;
      t.la .l1 = true ∧ 0x100210 = t.loops.le1 + 8 ∧ 1 < t.loops.lc1.toNat ∧ (t.advance .seq 0x100210).pc = 0x100208) ∧
    (let t := inLoops true true 2 1;
      t.la .l1 = true ∧ 0x100210 = t.loops.le1 + 8 ∧ t.loops.lc1.toNat ≤ 1 ∧ t.la .l0 = true ∧ 0x100210 = t.loops.le0 + 8 ∧
      1 < t.loops.lc0.toNat ∧ (t.advance .seq 0x100210).pc = 0x100200) ∧
    (let t := inLoops true true 1 1;
      t.la .l1 = true ∧ 0x100210 = t.loops.le1 + 8 ∧ t.loops.lc1.toNat ≤ 1 ∧ t.la .l0 = true ∧ 0x100210 = t.loops.le0 + 8 ∧
      t.loops.lc0.toNat ≤ 1 ∧ (t.advance .seq 0x100210).pc = 0x100210) ∧
    (let t := inLoops false true 1 1;
      t.la .l1 = true ∧ 0x100210 = t.loops.le1 + 8 ∧ t.loops.lc1.toNat ≤ 1 ∧ ¬(t.la .l0 = true ∧ 0x100210 = t.loops.le0 + 8)) ∧
    (let t := inLoops true false 2 1;
      ¬(t.la .l1 = true ∧ 0x100210 = t.loops.le1 + 8) ∧ (t.la .l0 = true ∧ 0x100210 = t.loops.le0 + 8) ∧ 1 < t.loops.lc0.toNat) ∧
    (let t := inLoops true false 1 1;
      ¬(t.la .l1 = true ∧ 0x100210 = t.loops.le1 + 8) ∧ (t.la .l0 = true ∧ 0x100210 = t.loops.le0 + 8) ∧ t.loops.lc0.toNat ≤ 1) ∧
    (let t := inLoops true true 1 1;
      ¬(t.la .l1 = true ∧ 0x100208 = t.loops.le1 + 8) ∧ ¬(t.la .l0 = true ∧ 0x100208 = t.loops.le0 + 8)) := by decide +kernel
/-- LPSETI with its step ending at a body of one bundle, with an inner body whose last bundle lies one past the outer's, and with a step
that does not end at a bundle (R109, R110). -/
theorem witness_loop_setup :
    (Instr.lpseti .l1 3 4).wf = true ∧ (Instr.lpset .l1 2 2).wf = true ∧
    (nextOf (exec (.lpseti .l1 3 0) ((at0.setTh (inLoops true false 2 0)).begin 0xD6403000 false 0x100200 0x100208))).th.loops.lc1 = 3 ∧
    trapOf (.lpseti .l1 3 2) ((at0.setTh (inLoops true false 2 0)).begin 0xD6403002 false 0x100200 0x100208) = some { cause := 0x0C } ∧
    trapOf (.lpseti .l1 3 2) (at0.begin 0xD6403002 false 0x100000 0x100004) =
      some { cause := 2, taddr := 0x100000, tval := 0xD6403002 } := by decide +kernel
/-- LPOFF.1 in the last bundle of loop 1 alone: the hypotheses of LoopOffR112's last clause (R112). -/
theorem witness_loop_off :
    (let s := at0.setTh (inLoops false true 2 2);
      let t := nextOf (exec (.lpoff .l1) s);
      0x100210 = s.th.loops.le .l1 + 8 ∧ t.th.la .l0 = false ∧ (t.th.advance .seq 0x100210).pc = 0x100210) := by decide +kernel

/-- A table at 0x2000 of one entry, the label of its header, and the word at 0x3000 (R106); g5 points to it, g6 is the index. -/
def tabled (label entry : Nat) (word : BitVec 32) (index : Word) : State :=
  let s := { at0 with mem := ((at0.mem.setLe 0x2000 8 (label * 2 ^ 32 + 1)).setLe 0x2008 4 entry).setBytes 0x3000 (bytesOfWord word) }
  withG s [(5, 0x2000), (6, index)]

/-- The hypotheses of JTAB's clauses: a misaligned table, one with another age, an index at the count, a reserved header bit, a misaligned
target, a landing with its label and one without (R107). -/
theorem witness_jtab :
    trapOf (.jtab 5 6) (withG at0 [(5, 0x2004)]) = some { cause := 0x10, taddr := 0x2004, tval := 1 } ∧
    trapOf (.jtab 5 6) (withG at0 [(5, 0x0100_0000_0000_2000)]) = some { cause := 0x15, taddr := 0x0100_0000_0000_2000, tval := 1 } ∧
    trapOf (.jtab 5 6) (tabled 0x12345 0x400 0xD5012345 1) = some { cause := 0x0A, tval := 1 } ∧
    trapOf (.jtab 5 6) (tabled 0x112345 0x400 0xD5012345 0) = some { cause := 0x0A, tval := 0 } ∧
    trapOf (.jtab 5 6) (tabled 0x12345 0x401 0xD5012345 0) = some { cause := 0x0B, taddr := 0x3004, tval := 0 } ∧
    (nextOf (exec (.jtab 5 6) (tabled 0x12345 0x400 0xD5012345 0))).iss.disp = .xfer 0x3000 ∧
    trapOf (.jtab 5 6) (tabled 0x12345 0x400 0xD5012344 0) = some { cause := 0x0B, taddr := 0x3000, tval := 0xD5012344 } := by decide +kernel
/-- JTAB's two table reads and its landing fetch, each waiting on a page that is not mapped; the second read and the fetch past the
scratchpad's end (R107, R297). -/
theorem witness_jtab_stops :
    (let waits (s : State) : Option Word := match (nextOf (exec (.jtab 5 6) s)).th.wait with
        | .fault p _ _ => some p
        | _ => none;
      let near (m : Mem) (p : Word) : State := withG (at0.setCore 0 { at0.core 0 with spad := m }) [(5, p)];
      waits (withG at0 [(5, 0x10000000)]) = some 0x10000000 ∧
      waits (withG { at0 with mem := at0.mem.setLe 0x0FFFFFF8 8 1 } [(5, 0x0FFFFFF8)]) = some 0x10000000 ∧
      waits (tabled 0 0x3FFF800 0xD5000000 0) = some 0x10000000 ∧
      trapOf (.jtab 5 6) (near (Mem.setLe [] 0x3FFF8 8 1) 0x00F8_0000_0003_FFF8) = some { cause := 0x12, taddr := 0x00F8_0000_0004_0000, tval := 1 } ∧
      trapOf (.jtab 5 6) (near ((Mem.setLe [] 0 8 1).setLe 8 4 0x10000) 0x00F8_0000_0000_0000) =
        some { cause := 0x112, taddr := 0x00F8_0000_0004_0000, tval := 1 }) := by decide +kernel
/-- The hypotheses of JTAB's last clause: a table and its landing in the thread's own scratchpad (R106, R203). -/
theorem witness_jtab_near :
    (let spad := ((Mem.setLe [] 0 8 (0x12345 * 2 ^ 32 + 1)).setLe 8 4 0x42).setLe 0x108 4 0xD5012345;
     let s := withG (at0.setCore 0 { at0.core 0 with spad }) [(5, 0x00F8_0000_0000_0000)];
      s.spadTarget 0 0x00F8_0000_0000_0000 = some (0, 0) ∧ s.spadTarget 0 0x00F8_0000_0000_0008 = some (0, 8) ∧
      (0x00F8_0000_0000_0000 : Word) + 4 * BitVec.ofInt 64 (BitVec.ofNat 32 ((s.core 0).spad.le 8 4)).toInt = 0x00F8_0000_0000_0108 ∧
      s.spadTarget 0 0x00F8_0000_0000_0100 = some (0, 0x100) ∧ s.cpu.icache = [] ∧ s.cpu.unfenced = [] ∧ (s.ctx (s.ownerOf 0)).prot = false ∧
      decode (BitVec.ofNat 32 ((s.core 0).spad.le (0x100 + 8) 4)) = .ok (.lpad 0x12345) ∧ (s.core 0).spadPoison = [] ∧
      (nextOf (exec (.jtab 5 6) s)).iss.disp = .xfer 0x00F8_0000_0000_0108) := by decide +kernel

/-- FMTP with a prefix pending and without one (R87, R88). -/
theorem witness_fmtp : (at0.setTh (at0.th.setPrefix true 0)).th.pp = true ∧ at0.th.pp = false ∧
    (nextOf (exec (.fmtp .e4m3 .e2m1 .fp32) at0)).th.pf = 0x185 ∧
    trapOf (.fmtp .e4m3 .e2m1 .fp32) ((at0.setTh (at0.th.setPrefix true 0)).begin 0xF0400185 false 0x100000 0x100004) =
      some { cause := 3, taddr := 0x100000, tval := 0xF0400185 } := by decide +kernel

/-- DONE with a vector operation of the thread under way, and with none (R115, R223). -/
theorem witness_done : (let s := at0.setTh { at0.th with queue := [.vec { pc := 0 }] };
      s.cpu.vecBusy 0 = true ∧ (nextOf (exec .done s)).th.wait = .ending ∧ (nextOf (exec .done s)).th.live = true) ∧
    at0.cpu.vecBusy 0 = false ∧ (nextOf (exec .done at0)).th.live = false := by decide +kernel

/-! ### Words, steps and pairs -/

/-- The hypotheses of DecodeOfEncode and EncodeOfDecode at the ends of L, with the highest operands. -/
theorem witness_encode : (Instr.bfi 31 31 60 3).wf = true ∧ encode 0 (.bfi 31 31 60 3) = some 0x133FF0FC ∧ encode 1 (.bfi 31 31 60 3) = some 0x933FF0FC ∧
    decode 0x133FF0FC = .ok (.bfi 31 31 60 3) := ⟨rfl, rfl, rfl, rfl⟩

/-- at0 with the second 256 MiB of region 0 mapped to where local memory has a hole (R295), and a word at its pc. -/
def holed (w : BitVec 32) : State :=
  let s := { at0 with
    mem := (at0.mem.setLe 0x10008008 8 (2 ^ 63 + 2 ^ 62 + 2 ^ 59 + 2 ^ 58 + hbmBytes / 2 ^ 15)).setBytes placeAt (bytesOfWord w)
    ctxs := Map.put at0.ctxs 1 { placeCtx with rights := [{ base := 0, len := 2 ^ 23, age := 0, rights := 0xF, gid := 1 }] } }
  withG s [(6, 0x1000_0000)]

/-- The hypotheses of StepRunsDecoded that are the same for each of its two clauses, for the word w of an instruction i. -/
def StepsTo (s : State) (w : BitVec 32) (i : Instr) : Prop :=
  let s0 := { s.lead with iss := {} };
  let r := s0.fetchWord s0.cur.1 s0.th.sLevel s0.th.pc;
  let s1 := stateOf r;
  s.turns = [] ∧ s.owed = none ∧ s.firstStep s.dueSteps = none ∧ s.enginesBusy = false ∧ s.goesOn = true ∧
    s.lead.reportDue s.lead.cur.1 s.lead.cur.2 = false ∧ r = .ok s1 w ∧ w.getLsbD 31 = true ∧ decode w = .ok i ∧
    (s1.begin w false s1.th.pc (s1.th.pc + 4)).illegal i = false ∧ (s1.begin w false s1.th.pc (s1.th.pc + 4)).prefixFault i = none

/-- The state in which StepRunsDecoded runs exec. -/
def begun (s : State) (w : BitVec 32) : State :=
  let s0 := { s.lead with iss := {} };
  let s1 := stateOf (s0.fetchWord s0.cur.1 s0.th.sLevel s0.th.pc);
  s1.begin w false s1.th.pc (s1.th.pc + 4)

theorem witness_step_next : StepsTo at0 0xF0000000 .nop ∧ isNext (exec .nop (begun at0 0xF0000000)) = true :=
  ⟨⟨rfl, by decide +kernel, by decide +kernel, by decide +kernel, by decide +kernel, by decide +kernel, ok_of (by decide +kernel), rfl, rfl,
    by decide +kernel, by decide +kernel⟩, by decide +kernel⟩
/-- The memory of at0 is canonical, and step answers a next state there: the hypotheses of MemoryCanonical. -/
theorem witness_memory : at0.memOk ∧ ∃ t, step at0 = .next t :=
  ⟨by rw [State.memOk]; decide +kernel, by rw [step, next_of (o := at0.move) (by decide +kernel)]; exact ⟨_, rfl⟩⟩
/-- LDD g5 from where local memory has a hole: the hypotheses of the fault clause of StepRunsDecoded. -/
theorem witness_step_fault : StepsTo (holed 0xC18A6000) 0xC18A6000 (.ldd 5 6 0) ∧
    exec (.ldd 5 6 0) (begun (holed 0xC18A6000) 0xC18A6000) = .fault (.unpopulated hbmBytes) :=
  ⟨⟨rfl, by decide +kernel, by decide +kernel, by decide +kernel, by decide +kernel, by decide +kernel, ok_of (by decide +kernel), rfl, rfl,
    by decide +kernel, by decide +kernel⟩, fault_of (by decide +kernel)⟩

/-- The checks of a pair (R67 to R69): a floating word in slot C, a load in slot A, an unassigned word in slot C, a read-only CSR written
in slot C, a lone RETT outside a handler, L = 1 and an unassigned word in slot A, a pending prefix that slot C does not admit, both slots writing g5, an
FMTP before an integer instruction and before one that does not admit its formats, a lone word that does not admit the pending prefix. -/
theorem witness_pair_checks : at0.th.wait = .none ∧ slotC 0x20000000 = false ∧
    (slotC 0x000A6380 = true ∧ slotA 0x418A6000 = false) ∧
    (slotC 0x7180A030 = true ∧ decode 0x7180A030 = .ok (.csrw 0 0x030 10) ∧
      (at0.begin 0x7180A030 false at0.th.pc (at0.th.pc + 8)).illegal (.csrw 0 0x030 10) = true ∧
      decode 0xF0C00000 = .ok .rett ∧ (at0.begin 0xF0C00000 false at0.th.pc (at0.th.pc + 4)).illegal .rett = true) ∧
    ((at0.begin 0x000A6380 false at0.th.pc (at0.th.pc + 8)).illegal (.add 5 6 7) = false ∧ slotA 0x800A6380 = true ∧
      (0x800A6380 : BitVec 32).getLsbD 31 = true ∧ slotA 0x1F800000 = true ∧ (decode 0x1F800000).isOk = false ∧
      (at0.setTh (at0.th.setPrefix true 0x185)).pending = some 0x185 ∧ (0x000A0000 : BitVec 32).getLsbD 31 = false) ∧
    (slotC 0x5F800000 = true ∧ slotA 0x000A6380 = true ∧ (decode 0x5F800000).isOk = false) ∧
    (decode 0x000A6380 = .ok (.add 5 6 7) ∧ decode 0x000A0000 = .ok (.add 5 0 0) ∧ slotA 0x000A0000 = true ∧ fmtpOf (.add 5 6 7) = none ∧
      at0.pending = none ∧ at0.th.conflict (.add 5 6 7) (.add 5 0 0) = true) ∧
    (decode 0x70400185 = .ok (.fmtp .e4m3 .e2m1 .fp32) ∧ slotC 0x70400185 = true ∧ fmtpOf (.fmtp .e4m3 .e2m1 .fp32) = some 0x185 ∧
      (at0.begin 0x70400185 false at0.th.pc (at0.th.pc + 8)).illegal (.fmtp .e4m3 .e2m1 .fp32) = false ∧ pfxRule (.add 5 0 0) = none ∧
      (nextOf (at0.runPair 0x70400185 0x000A0000)).iss.trap = some { cause := 3, taddr := 0x100004, tval := 0x1000A0000 } ∧
      fmtpOf (.fmtp .e4m3 .e2m1 .int8) = some 0x985 ∧ (pfxRule (.fcvt .w32 .rne true 5 6)).map (·.admits 0x985) = some false ∧
      (nextOf (at0.runPair 0x70400985 0x244A6002)).iss.trap = some { cause := 3, taddr := 0x100004, tval := 0x1244A6002 }) ∧
    (let s := at0.setTh (at0.th.setPrefix true 0x185);
      s.pending = some 0x185 ∧ decode 0x800A6380 = .ok (.add 5 6 7) ∧ (s.begin 0x800A6380 false s.th.pc (s.th.pc + 4)).illegal (.add 5 6 7) = false ∧
      (nextOf (s.runLone 0x800A6380)).iss.trap = some { cause := 3, taddr := 0x100000, tval := 0x800A6380 }) := by decide +kernel

/-- The state in which slot A of a pair runs. -/
def inSlotA (s : State) (c : Instr) (wa : BitVec 32) : State :=
  ((nextOf (exec c s)).setTh (s.th.forSlotA (nextOf (exec c s)).th none)).begin wa true (s.th.pc + 4) (s.th.pc + 8)

/-- Each way a pair runs (R70 to R72): slot C traps; neither traps (both read g6 as it was); slot A traps; slot A waits for its queue. -/
theorem witness_pair_runs :
    (let s := withG at0 [(1, 2), (4, 0x7FFF_FFFF_FFFF_FFFF), (6, 9)];
      fmtpOf .ret = none ∧ afterStep .ret = false ∧ isNext (exec .ret s) = true ∧ (nextOf (exec .ret s)).iss.trap ≠ none ∧
      fmtpOf (.addi 6 6 1) = none ∧ afterStep (.addi 6 6 1) = false ∧ isNext (exec (.addi 6 6 1) s) = true ∧
      (nextOf (exec (.addi 6 6 1) s)).iss.trap = none ∧ (nextOf (exec (.addi 6 6 1) s)).iss.disp ≠ .stay ∧
      (let q := exec (.add 7 6 0) (inSlotA s (.addi 6 6 1) 0x000E6000);
        isNext q = true ∧ (nextOf q).iss.trap = none ∧ (nextOf q).iss.disp ≠ .stay ∧ (nextOf q).g 7 = 9) ∧
      (let q := exec (.addv 7 4 4) (inSlotA s (.addi 6 6 1) 0x098E4200);
        isNext q = true ∧ (nextOf q).iss.trap.isSome = true ∧ s.th.wait = .none) ∧
      (let s := s.setTh { s.th with queue := [.vec { pc := 0 }, .vec { pc := 0 }] };
        let q := exec (.vmov .w64 .rne 1 2) (inSlotA s (.addi 6 6 1) 0x37810100);
        isNext q = true ∧ (nextOf q).iss.trap = none ∧ (nextOf q).iss.disp = .stay ∧ (nextOf q).th.wait = .queueFull)) := by decide +kernel

/-! ### Floating point -/

/-- The floating register that an instruction leaves, and the flags. -/
def fAfter (i : Instr) (s : State) (r : Reg) : Word × BitVec 6 := ((nextOf (exec i s)).f r, (nextOf (exec i s)).th.fflags)

/-- f1 = 2^23 × ulp past 1 (R123's example), f2 its negative counterpart, f3 = 1, f4 = 3, f5 = 2, f6 = −1, f7 = 0 in FP64. -/
def floats : State := withF at0 [(1, 0x3FF0000002000000), (2, 0xBFF0000004000000), (3, 0x3FF0000000000000), (4, 0x4008000000000000),
  (5, 0x4000000000000000), (6, 0xBFF0000000000000), (7, 0)]
/-- f1 the largest FP32 number, f2 the smallest subnormal, f3 a signalling NaN, f4 a quiet one, f5 = −0, f6 = +0, f7 = 2.5, f8 = +∞. -/
def singles : State := withF at0 [(1, 0x7F7FFFFF), (2, 1), (3, 0x7F800001), (4, 0xFFC00000), (5, 0x80000000), (6, 0), (7, 0x40200000), (8, 0x7F800000)]

/-- The example of R123: the product's low part survives the one rounding. -/
theorem test_fma_example : fAfter (.fma .w64 .rne 8 1 1 2) floats 8 = (0x3C90000000000000, 0) := by decide +kernel
theorem test_div_sqrt : fAfter (.fdiv .w64 .rne 8 3 4) floats 8 = (0x3FD5555555555555, 1) ∧ fAfter (.fdiv .w64 .rup 8 3 4) floats 8 = (0x3FD5555555555556, 1) ∧
    fAfter (.fsqrt .w64 .rne 8 5) floats 8 = (0x3FF6A09E667F3BCD, 1) ∧ fAfter (.fsqrt .w64 .rne 8 6) floats 8 = (0x7FF8000000000000, 16) ∧
    fAfter (.fdiv .w64 .rne 8 6 7) floats 8 = (0xFFF0000000000000, 8) ∧ fAfter (.fdiv .w64 .rne 8 7 7) floats 8 = (0x7FF8000000000000, 16) := by decide +kernel
/-- Overflow by the mode, an exact difference of zero by the mode, underflow (R47, R48, R51). -/
theorem test_overflow : fAfter (.fadd .w32 .rne 9 1 1) singles 9 = (0x7F800000, 5) ∧ fAfter (.fadd .w32 .rtz 9 1 1) singles 9 = (0x7F7FFFFF, 5) ∧
    fAfter (.fsub .w32 .rdn 9 1 1) singles 9 = (0x80000000, 0) ∧ fAfter (.fmul .w32 .rup 9 2 2) singles 9 = (1, 3) ∧
    fAfter (.fsub .w32 .rne 9 8 8) singles 9 = (0x7FC00000, 16) := by decide +kernel
/-- An enabled flag traps precisely (R120); one that is not enabled does not. -/
theorem witness_fpx : (let s := floats.setTh { floats.th with fenable := 1 };
    trapOf (.fdiv .w64 .rne 8 3 4) s = some { cause := 8, tval := 1 } ∧ trapOf (.fadd .w64 .rne 8 3 4) s = none) := by decide +kernel

/-- The hypotheses of ExactResults at m = 1, at m = 2^64 − 1 and at m = 0. -/
theorem witness_exact :
    (let x : Xr := { neg := true, m := 1, e := -3 }; let y : Xr := { m := 7, e := 2 };
      x.st = false ∧ y.st = false ∧ x.m ≠ 0 ∧ y.m ≠ 0 ∧ x.neg = true) ∧
    (let x : Xr := { m := 2 ^ 64 - 1, e := 5 }; x.st = false ∧ 0 < x.m ∧ x.m < 2 ^ 64 ∧ x.neg = false) ∧
    (let x : Xr := { neg := true, e := 4 }; x.st = false ∧ x.m = 0) := by decide +kernel
/-- The hypotheses of Rounding: a unit at the number's own and above it, with ties, by every mode; a number at, and past, the largest
value of FP32. -/
theorem witness_rounding :
    (let x : Xr := { m := 5, e := 0 }; x.st = false ∧ (0 : Int) ≤ x.e ∧ roundAt .rne 1 x 0 = (5, false) ∧ x.e < 1 ∧
      roundAt .rne 1 x 1 = (2, true) ∧ roundAt .rna 1 x 1 = (3, true) ∧ roundAt .rtz 1 x 1 = (2, true) ∧ roundAt .rdn 1 x 1 = (2, true) ∧
      roundAt .rup 1 x 1 = (3, true) ∧ roundAt .rsr 0x7FFFFF x 1 = (2, true) ∧ roundAt .rsr 0x800000 x 1 = (3, true)) ∧
    (let F : FmtP := ⟨8, 23, 127, true⟩;
      roundNum .fp32 F .rne false { m := 2 ^ 24 - 1, e := 104 } {} = (0x7F7FFFFF, {}) ∧
      roundNum .fp32 F .rne false { m := 2 ^ 25 - 1, e := 103 } {} = (0x7F800000, { flags := 5 }) ∧
      roundNum .fp32 F .rne false { m := 2 ^ 26 - 3, e := 102 } {} = (0x7F7FFFFF, { flags := 1 })) := by decide +kernel
/-- The hypotheses of MinMaxCompare: zeros of both signs, one NaN on either side, two. -/
theorem witness_minmax :
    fAfter (.fmin .w32 .rne 9 6 5) singles 9 = (0x80000000, 0) ∧ fAfter (.fmax .w32 .rne 9 5 6) singles 9 = (0, 0) ∧
    fAfter (.fmin .w32 .rne 9 3 7) singles 9 = (0x40200000, 16) ∧ fAfter (.fminm .w32 .rne 9 7 4) singles 9 = (0x7FC00000, 0) ∧
    fAfter (.fmax .w32 .rne 9 3 4) singles 9 = (0x7FC00000, 16) ∧
    gAfter (.feq .w32 .rne 9 5 6) singles 9 = 1 ∧ gAfter (.fle .w32 .rne 9 1 8) singles 9 = 1 ∧ gAfter (.flt .w32 .rne 9 4 7) singles 9 = 0 ∧
    (nextOf (exec (.flt .w32 .rne 9 4 7) singles)).th.fflags = 16 := by decide +kernel
theorem test_class_sign : gAfter (.fclass .w32 .rne 9 2) singles 9 = 32 ∧ gAfter (.fclass .w32 .rne 9 3) singles 9 = 256 ∧
    gAfter (.fclass .w32 .rne 9 5) singles 9 = 8 ∧ fAfter (.fsgnn .w32 .rne 9 7 6) singles 9 = (0xC0200000, 0) ∧
    gAfter (.fmvg .w32 .rne 9 4) singles 9 = 0xFFC00000 := by decide +kernel

/-- A thread with a prefix pending (R87). -/
def prefixed (s : State) (f1 f2 fd : Fmt) : State := s.setTh (s.th.setPrefix true (fd.code ++ f2.code ++ f1.code))

/-- The hypotheses of Conversion: no prefix, a prefix that each form admits, one that it does not; integers at, and one past, their
bounds; NaNs and infinities into formats without them (R52, R53, R130, R131). -/
theorem witness_conversion :
    at0.th.pp = false ∧ (prefixed at0 .fp32 .fp32 .e4m3).th.pp = true ∧
    pfFmt1 (prefixed at0 .fp32 .fp32 .e4m3).th.pf = .fp32 ∧ pfFmtD (prefixed at0 .fp32 .fp32 .e4m3).th.pf = .e4m3 ∧
    fAfter (.fcvt .w32 .rne true 9 8) (prefixed singles .fp32 .fp32 .e4m3) 9 = (0x7E, 36) ∧
    fAfter (.fcvt .w32 .rne false 9 8) (prefixed singles .fp32 .fp32 .e2m1) 9 = (7, 16) ∧
    gAfter (.fcvti .w32 .rne 9 7) (prefixed singles .fp32 .fp32 .int8) 9 = 2 ∧
    fAfter (.fcvtf .w32 .rne 9 1) (prefixed (withG singles [(1, 0xFF)]) .int8 .fp32 .fp32) 9 = (0xBF800000, 0) ∧
    (trapOf (.fcvti .w32 .rne 9 7) (prefixed singles .fp32 .fp32 .e4m3)).map (·.cause) = some 3 ∧
    (trapOf (.fcvt .w32 .rne false 9 7) (prefixed singles .int8 .fp32 .e4m3)).map (·.cause) = some 3 ∧
    (trapOf (.fcvtf .w32 .rne 9 7) (prefixed singles .fp32 .fp32 .e4m3)).map (·.cause) = some 3 ∧
    convertInt .int8 .rne (.num { m := 127 }) {} = (127, {}) ∧ convertInt .int8 .rne (.num { m := 128 }) {} = (127, { flags := 33 }) ∧
    convertInt .int8 .rne (.num { neg := true, m := 129 }) {} = (-128, { flags := 33 }) := by decide +kernel
/-- Operands of FRINT and FSCALE that are numbers, and ones that are not. -/
theorem witness_round_scale :
    (∃ y, valFp .fp32 ⟨8, 23, 127, true⟩ 0x40200000 = .num y) ∧ (∀ y, valFp .fp32 ⟨8, 23, 127, true⟩ 0x7F800000 ≠ .num y) ∧
    fAfter (.frint .w32 .rne true 9 7) singles 9 = (0x40000000, 1) ∧ fAfter (.frint .w32 .rne false 9 8) singles 9 = (0x7F800000, 0) ∧
    fAfter (.fscale .w32 .rne 9 7 1) (withG singles [(1, -1)]) 9 = (0x3FA00000, 0) ∧
    fAfter (.fscale .w32 .rne 9 8 1) (withG singles [(1, -1)]) 9 = (0x7F800000, 0) :=
  ⟨⟨_, rfl⟩, fun y h => by simp [valFp] at h, by decide +kernel⟩
/-- The hypotheses of Transcendentals: a signalling NaN, a zero, a negative number, an inexact and an exact result. -/
theorem witness_transcendentals :
    Fmt.val .fp32 0x7F800001 = .nan true false ∧ Fmt.val .fp32 0x80000000 = .num { neg := true, e := -149 } ∧
    (∃ x, Fmt.val .fp32 0xC0200000 = .num x ∧ x.m ≠ 0 ∧ x.neg = true) ∧
    (∃ x, Fmt.val .fp32 0x40200000 = .num x ∧ x.m ≠ 0 ∧ (roundAt .rtz 1 (transcTrue .exp2 x) (FmtP.quantum ⟨8, 23, 127, true⟩ (transcTrue .exp2 x))).2 = true) ∧
    fAfter (.fexp2 .w32 .rne 9 1) (withF at0 [(1, 0x40400000)]) 9 = (0x41000000, 0) ∧
    fAfter (.flog2 .w32 .rne 9 1) (withF at0 [(1, 0)]) 9 = (0xFF800000, 8) ∧
    fAfter (.frcp .w32 .rne 9 1) (withF at0 [(1, 0x40400000)]) 9 = (0x3EAAAAAB, 1) :=
  ⟨by decide +kernel, by decide +kernel, ⟨_, rfl, by decide +kernel⟩, ⟨_, rfl, by decide +kernel⟩, by decide +kernel, by decide +kernel, by decide +kernel⟩
/-- The hypotheses of the statements' completions: no trap enabled, for a conversion with no prefix and with one, and a transcendental. -/
theorem witness_fp_completes : at0.th.fenable = 0 ∧ at0.th.pp = false ∧ (prefixed at0 .fp32 .fp32 .e4m3).th.pp = true ∧
    (prefixed at0 .fp32 .fp32 .e4m3).th.fenable = 0 ∧ fAfter (.fcvt .w32 .rne false 9 5) floats 9 = (0x40000000, 0) ∧
    fAfter (.frint .w64 .rne false 9 4) floats 9 = (0x4008000000000000, 0) := by decide +kernel
/-- The hypotheses of Conversion on finite numbers, at the largest of each format and past it: kept, saturated, E4M3's NaN, the largest of
a format without either, an infinity or the largest by the mode (R48, R52). -/
theorem witness_finite_conversion :
    (let c (f : Fmt) (p : FmtP) (rm : RM) (sat : Bool) (m : Nat) (e : Int) := convertFp f p rm sat (.num { m, e }) {};
      Fmt.fp .e4m3 = some ⟨4, 3, 7, false⟩ ∧ Fmt.fp .e3m2 = some ⟨3, 2, 3, false⟩ ∧ Fmt.fp .e5m2 = some ⟨5, 2, 15, true⟩ ∧
      c .e4m3 ⟨4, 3, 7, false⟩ .rne false 7 6 = (0x7E, {}) ∧ c .e4m3 ⟨4, 3, 7, false⟩ .rne true 15 5 = (0x7E, { flags := 37 }) ∧
      c .e4m3 ⟨4, 3, 7, false⟩ .rne false 15 5 = (0x7F, { flags := 5 }) ∧
      c .e3m2 ⟨3, 2, 3, false⟩ .rne false 7 2 = (0x1F, {}) ∧ c .e3m2 ⟨3, 2, 3, false⟩ .rne false 1 5 = (0x1F, { flags := 17 }) ∧
      c .e5m2 ⟨5, 2, 15, true⟩ .rne false 1 16 = (0x7C, { flags := 5 }) ∧ c .e5m2 ⟨5, 2, 15, true⟩ .rtz false 1 16 = (0x7B, { flags := 5 })) := by
  decide +kernel
/-- The hypotheses of Transcendentals on its special and exact rows: infinities of both signs, a power of two for EXP2, LOG2 and RSQ, 1 for
the logarithm (R138). -/
theorem witness_transc_exact :
    Fmt.val .fp32 0x7F800000 = .inf false ∧ Fmt.val .fp32 0xFF800000 = .inf true ∧
    fAfter (.ftanh .w32 .rne 9 1) (withF at0 [(1, 0xFF800000)]) 9 = (0xBF800000, 0) ∧ fAfter (.fsin .w32 .rne 9 8) singles 9 = (0x7FC00000, 16) ∧
    fAfter (.flog2 .w32 .rne 9 1) (withF at0 [(1, 0x3E000000)]) 9 = (0xC0400000, 0) ∧
    fAfter (.frsq .w32 .rne 9 1) (withF at0 [(1, 0x3E800000)]) 9 = (0x40000000, 0) ∧
    fAfter (.flog .w32 .rne 9 1) (withF at0 [(1, 0x3F800000)]) 9 = (0, 0) := by decide +kernel
/-- The hypotheses of Transcendentals on two operands: neighbours whose exponentials lie between the same two numbers of FP32 (R137). -/
theorem witness_monotonic :
    (let x : Xr := { m := 0x800001, e := -59 }; let y : Xr := { m := 0x800002, e := -59 }; let p : FmtP := ⟨8, 23, 127, true⟩;
      Fmt.val .fp32 0x2D800001 = .num x ∧ Fmt.val .fp32 0x2D800002 = .num y ∧ TFn.piece .exp x = TFn.piece .exp y ∧
      (transcTrue .exp x).neg = (transcTrue .exp y).neg ∧ p.quantum (transcTrue .exp y) = p.quantum (transcTrue .exp x) ∧
      roundAt .rtz 1 (transcTrue .exp y) (p.quantum (transcTrue .exp x)) = roundAt .rtz 1 (transcTrue .exp x) (p.quantum (transcTrue .exp x)) ∧
      (roundAt .rtz 1 (transcTrue .exp x) (p.quantum (transcTrue .exp x))).2 = true ∧
      operandPlace p 0x2D800001 ≤ operandPlace p 0x2D800002) := by decide +kernel

/-! ### Memory -/

/-- The trap of an operation. -/
def trapIn {α : Type} : Res α → Option TrapInfo
  | .trap _ i => some i
  | _ => none

/-- The wait of an operation. -/
def waitIn {α : Type} : Res α → Option Wait
  | .wait _ w => some w
  | _ => none

/-- at0 with the 64 KiB page at 0x10000000 mapped by a leaf with V, LF, D, A and more bits, and one rights entry over it. -/
def mapped (more : Nat) (frame : Nat) (r : List REntry) : State :=
  { at0 with
    mem := (at0.mem.setLe 0x10008008 8 (2 ^ 63 + 0x10010000 / 2 ^ 15)).setLe 0x10010000 8
      (2 ^ 63 + 2 ^ 62 + 2 ^ 59 + 2 ^ 58 + more + frame / 2 ^ 15)
    dev := { at0.dev with mxbase := 0x2000_0000, mxlim := 0x3000_0000 }
    ctxs := Map.put at0.ctxs 1 { placeCtx with rights := r ++ placeCtx.rights } }

/-- A rights entry over the page of mapped. -/
def pageRights (rights : BitVec 4) (dm : Bool) (age : BitVec 8) : List REntry := [{ base := 2 ^ 22, len := 1024, age, rights, dm, gid := 2 }]

/-- The hypotheses of AccessChecks on pointers, at the ends of the regions: reserved, the device register window, the scratchpad window. -/
theorem witness_access_windows :
    trapIn (at0.check (at0.req 0x00E0_0000_0000_0000 8 true false)) = some { cause := 0x11, taddr := 0x00E0_0000_0000_0000, tval := 1 } ∧
    trapIn (at0.check (at0.req 0x00FF_0000_0000_0000 8 false true)) = some { cause := 0x11, taddr := 0x00FF_0000_0000_0000, tval := 2 } ∧
    trapIn (at0.check (at0.req 0x00FC_0000_0000_0000 8 true false)) = some { cause := 0x04, taddr := 0x00FC_0000_0000_0000, tval := 1 } ∧
    (let q := { at0.req 0x00FC_0000_0000_0FF8 8 true false with sLevel := true };
      (trapIn (at0.check q)).map (·.cause) = some 0x11 ∧ (trapIn (at0.check { q with devOk := true, wr := true })).map (·.cause) = some 0x11 ∧
      (trapIn (at0.check { q with devOk := true, p := 0x00FC_0000_0000_1000 })).map (·.cause) = some 0x11 ∧
      (trapIn (at0.check { q with devOk := true, p := 0x00FC_0000_0000_0FFC })).map (·.cause) = some 0x10 ∧
      valueOf (at0.check { q with devOk := true }) = some (.dev 0xFF8)) ∧
    (trapIn (at0.check (at0.req 0x00F8_0000_0000_0004 8 true false))).map (·.cause) = some 0x10 ∧
    (trapIn (at0.check (at0.req 0x00F8_C000_0000_0000 8 true false))).map (·.cause) = some 0x12 ∧
    valueOf (at0.check (at0.req 0x00F8_0000_0003_FFF8 8 true false)) = some (.spad 0 0x3FFF8) := by decide +kernel
/-- The hypotheses of AccessChecks in global space: misaligned at its last byte, not mapped, an alias block, host memory, no rights entry, a
dormant one, another age, a missing right, and a check that passes. -/
theorem witness_access_global :
    (trapIn (at0.check (at0.req 0x00DF_FFFF_FFFF_FFFF 8 true false))).map (·.cause) = some 0x10 ∧
    (waitIn (at0.check (at0.req 0x1000_0000 8 true false))).isSome = true ∧
    (let q (s : State) (amo : Option Bool) (p : Word) := s.check { s.req p 8 true true with amo };
      trapIn (q (mapped (2 ^ 61) 0x2000_0000 (pageRights 0xF false 0)) (some true) 0x1000_0000) =
        some { cause := 0x17, taddr := 0x1000_0000, tval := 3 } ∧
      (trapIn (q (mapped 0 hostBase (pageRights 0xF false 0)) (some false) 0x1000_0000)).map (·.cause) = some 0x18 ∧
      (trapIn (q (mapped 0 0 []) none 0x1000_0000)).map (·.cause) = some 0x14 ∧
      (trapIn (q (mapped 0 0 (pageRights 0xF true 0)) none 0x1000_0000)).map (·.cause) = some 0x15 ∧
      (trapIn (q (mapped 0 0 (pageRights 0xF false 0)) none 0x0100_0000_1000_0000)).map (·.cause) = some 0x15 ∧
      (trapIn (q (mapped 0 0 (pageRights 1 false 0)) none 0x1000_0000)).map (·.cause) = some 0x14 ∧
      (valueOf (q (mapped 0 0x40000 (pageRights 3 false 0)) none 0x1000_FFF8)).map (fun t => match t with | .glob _ _ spa => spa | _ => 0) =
        some 0x4FFF8) := by decide +kernel
/-- The hypotheses of ScratchpadWindow at the highest coordinates and offset; core 0 alone is the context's. -/
theorem witness_spad_window : (63 < 64 ∧ 31 < 32 ∧ 3 < 4 ∧ 2 ^ 17 - 1 < 2 ^ 17 ∧ 2 ^ 18 - 1 < 2 ^ 18 ∧ 255 < 256) ∧
    at0.spadTarget 0 0xFFF8_8000_0003_FFFF = some (0, 0x3FFFF) ∧ at0.spadTarget 0 0x00F8_8100_0000_0000 = none ∧
    at0.spadTarget 0 0x00F8_0000_0004_0000 = none ∧ at0.spadTarget 0 0x00F8_00C0_0000_0000 = none := by decide +kernel

/-- at0 with a scratchpad whose first bytes are 0xF0 to 0xF7; g6 points to them, g7 is 2. -/
def spadded : State := withG (at0.spadWrite 0 0 [0xF0, 0xF1, 0xF2, 0xF3, 0xF4, 0xF5, 0xF6, 0xF7]) [(6, 0x00F8_0000_0000_0000), (7, 2)]

/-- The hypotheses of Loads and Stores: aligned, leading to core 0, no poison, the scratchpad canonical; with negative displacements. -/
theorem witness_loads_stores : spadded.spadTarget 0 (spadded.g 6) = some (0, 0) ∧ (spadded.core 0).spadPoison = [] ∧ (spadded.core 0).spad.wf = true ∧
    gAfter (.ldb 5 6 1) spadded 5 = 0xFFFF_FFFF_FFFF_FFF1 ∧ gAfter (.ldhu 5 6 3) spadded 5 = 0xF7F6 ∧ gAfter (.ldw 5 6 1) spadded 5 = 0xFFFF_FFFF_F7F6_F5F4 ∧
    gAfter (.ldd 5 7 0xFFF) (withG spadded [(7, 0x00F8_0000_0000_0008)]) 5 = 0xF7F6_F5F4_F3F2_F1F0 ∧
    (nextOf (exec (.fldw 5 6 0) spadded)).f 5 = 0xF3F2_F1F0 ∧
    ((nextOf (exec (.sth 7 6 1) spadded)).core 0).spad.le 0 8 = 0xF7F6_F5F4_0002_F1F0 := by decide +kernel
/-- A load that passes, traps, waits and stops: the hypotheses of the four outcomes that Loads speaks of. -/
theorem witness_load_outcomes : valueOf (at0.readMem 0x2000 8 false) = some [0, 0, 0, 0, 0, 0, 0, 0] ∧
    (trapIn (at0.readMem 0x2004 8 false)).isSome = true ∧ (waitIn (at0.readMem 0x1000_0000 8 false)).isSome = true ∧
    faultOf (exec (.ldd 5 6 0) (holed 0)) = some (.unpopulated hbmBytes) ∧
    valueOf (at0.writeMem 0x2000 [1]) = some () ∧ (trapIn (at0.writeMem 0x2001 [1, 2])).isSome = true ∧
    (waitIn (at0.writeMem 0x1000_0000 [1])).isSome = true := by decide +kernel
/-- The hypotheses of StoresEnterTheCache: a leaf of the device's HBM that the function reaches, with room, no dirty log; a peer without
a sub-link, whose store is lost. -/
theorem witness_store_cached : pteMX (2 ^ 63 + 2 ^ 62) = false ∧ pteRP (2 ^ 63 + 2 ^ 62) = false ∧ at0.holeAt 1 0x3000 = false ∧
    at0.ownerOf 0 = 1 ∧ at0.lost 1 0x3000 = false ∧ at0.lost 1 (2 ^ 45 + 0x3000) = true ∧ at0.holeAt 1 (2 ^ 45 + 0x3000) = false ∧
    at0.hasRoom 0 0xC0 = true ∧ pteMX (2 ^ 63 + 2 ^ 62 + 2 ^ 61) = true ∧
    (at0.fnc (at0.ctx (at0.ownerOf 0)).fn).dlEn = false ∧
    l1Bytes ((nextOf (exec (.stw 7 6 0) (withG at0 [(6, 0x3000), (7, 0x1234)]))).core 0).l1 0x3000 4 = some [0x34, 0x12, 0, 0] := by decide +kernel

/-- at0 after a store of a word at 0x3000. -/
def stored4 : State := nextOf (exec (.stw 7 6 0) (withG at0 [(6, 0x3000), (7, 0x1234)]))

/-- The hypotheses of what a global load reads: every byte held, the line held in part only, not held at all, its home poisoned. -/
theorem witness_global_load : stored4.holeAt 1 0x3000 = false ∧ 0x3000 % 64 + 8 ≤ 64 ∧
    l1Bytes (stored4.core 0).l1 0x3000 4 = some [0x34, 0x12, 0, 0] ∧ l1Bytes (stored4.core 0).l1 0x3000 8 = none ∧
    stored4.bandwidthOk 0 0x3000 64 = true ∧ stored4.hasRoom 0 0xC0 = true ∧ stored4.readPoison 0 0x3000 = false ∧
    { stored4 with poison := [0xC0] }.readPoison 0 0x3000 = true ∧
    gAfter (.ldd 5 6 0) { stored4 with mem := stored4.mem.setLe 0x3000 8 0x8877665544332211 } 5 = 0x8877665500001234 := by decide +kernel
/-- The hypotheses of WriteBacks: a dirty line, a leaf that is no alias, nothing that withholds the write; the bytes after it. -/
theorem witness_write_back : stored4.mem.wf = true ∧ (((stored4.core 0).l1.filter (fun b => b.va / 64 == 0xC0 && b.dirty)).map (·.va)).Nodup ∧
    ((stored4.core 0).l1.filter (fun b => b.va / 64 == 0xC0 && b.dirty)).length = 4 ∧
    (let w := stored4.walk 0 0x3000 true
     (match w.2 with | .leaf e l => (w.1.sealedIn (leafSpa e l 0x3000)).isNone | _ => false) = true ∧
     (match w.1.leafOf 0x3000 with | some (_, e, l) => !pteMX e && leafSpa e l 0x3000 == 0x3000 | none => false) = true ∧
     w.1.bandwidthOk 0 0x3000 64 = true ∧ w.1.homeUp 0 0x3000 = true ∧ w.1.replicaLines 0xC0 = []) ∧
    (stored4.writeBackLine 0 0xC0).mem.le 0x3000 8 = 0x1234 := by decide +kernel

/-- BF16 values whose largest has the magnitude 1000, and E4M3 lanes behind an alias page whose scales stand at 0x2000_0000's place. -/
def mxVals : List Nat := 0x447A :: 0x4040 :: List.replicate 30 0
/-- at0 with the alias area's registers set, and a block of mxVals written through the alias. -/
def mxed : State :=
  let s := { at0 with dev := { at0.dev with mxbase := 0x2000_0000, mxlim := 0x3000_0000, mxscale := 0x3000_0000 } }
  s.mxWrite 1 0x2000_0000 (offsets 0 (mxVals.flatMap (leBytes 2)))
/-- The hypotheses of AliasWrites and AliasReads: 32 values, no element in the scale's place, a canonical memory; element and scale after
it, a part that is not the block, and the value a load then reads (R62's example; the largest saturates, once). -/
theorem witness_alias : mxed.mem.wf = true ∧ mxVals.length = 32 ∧ (∀ v ∈ mxVals, v < 65536) ∧ mxed.mxScaleAt 0x2000_0000 = 0x3000_0000 ∧
    0 + 1 < 32 ∧ 0 < 31 ∧ 31 + 1 = 32 ∧ mxed.mem.get 0x3000_0000 = 128 ∧ mxed.mem.get 0x2000_0000 = 0x7E ∧ (mxed.ctx 1).aliasSat = 1 ∧
    (mxed.readHome 1 0 0x1000_0000 (2 ^ 63 + 2 ^ 62 + 2 ^ 61) 0x2000_0000 4).2.1 = [0x60, 0x44, 0x40, 0x40] := by decide +kernel
/-- The values where AliasReads' and AliasWrites' clauses meet: the largest element under the largest scale, 1 under it; the quantisation
at 448, above 464 and at infinity, of a NaN and of zero. -/
theorem witness_alias_values : mxReadElem 254 0x7E = (0x7F80, true) ∧ mxReadElem 254 0x38 = (0x7F00, false) ∧ mxReadElem 255 0 = (0x7FC0, false) ∧
    mxReadElem 127 0xFF = (0xFFC0, false) ∧ mxWriteElem 127 0x43E0 = (0x7E, false) ∧ mxWriteElem 127 0x43E9 = (0x7E, true) ∧
    mxWriteElem 127 0xC3E8 = (0xFE, false) ∧ mxWriteElem 127 0xFF80 = (0xFE, true) ∧ mxWriteElem 127 0xFFC0 = (0xFF, false) ∧
    mxWriteElem 127 0x8000 = (0x80, false) ∧ mxScaleFor (List.replicate 32 0) = 3 := by decide +kernel
/-- The hypotheses of OrderedAndAtomic, and results of each form (R148, R149): the expected value found and not found. -/
theorem witness_atomics : spadded.g 6 = 0x00F8_0000_0000_0000 ∧
    valueOf (spadded.relPart .sc .dev) = some () ∧ valueOf (spadded.scBefore .sc .dev) = some () ∧
    (stateOf (spadded.scBefore .sc .dev)).spadTarget 0 ((stateOf (spadded.scBefore .sc .dev)).g 6) = some (0, 0) ∧
    ((stateOf (spadded.relPart .sc .dev)).core 0).spadPoison = [] ∧
    gAfter (.ldaq .w32 .sc .dev 5 6) spadded 5 = 0xFFFF_FFFF_F3F2_F1F0 ∧
    gAfter (.amoadd .w32 .ar .dev 5 7 6) spadded 5 = 0xFFFF_FFFF_F3F2_F1F0 ∧
    ((nextOf (exec (.amoadd .w32 .ar .dev 5 7 6) spadded)).core 0).spad.le 0 8 = 0xF7F6_F5F4_F3F2_F1F2 ∧
    ((nextOf (exec (.amomax .w32 .rlx .clu 5 7 6) spadded)).core 0).spad.le 0 4 = 2 ∧
    ((nextOf (exec (.amomaxu .w32 .rlx .clu 5 7 6) spadded)).core 0).spad.le 0 4 = 0xF3F2_F1F0 ∧
    ((nextOf (exec (.amocas .w32 .rlx .clu 5 7 6) (withG spadded [(5, 0xF3F2_F1F0)]))).core 0).spad.le 0 4 = 2 ∧
    ((nextOf (exec (.amocas .w32 .rlx .clu 5 7 6) (withG spadded [(5, 0xF3F2_F1F1)]))).core 0).spad.le 0 4 = 0xF3F2_F1F0 := by decide +kernel
/-- The hypotheses of FencesAndMaintenance: nothing dirty, nothing waits for the sequencer, room for a line, a window pointer, a global one
whose check passes; a line that stays dirty because its page is not mapped any more, so that the release waits. -/
theorem witness_maintenance : at0.hub.seqQ = [] ∧ (∀ b ∈ at0.cpu.l1, b.dirty = false) ∧ at0.hasRoom 0 0xC0 = true ∧ Ord.rel ∈ [Ord.rel, .ar, .sc] ∧ (0x00F8_0000_0000_0000 : Word).toNat / 2 ^ 48 % 256 = 0xF8 ∧
    (0x00FC_0000_0000_0000 : Word).toNat / 2 ^ 48 % 256 = 0xFC ∧
    (valueOf (at0.check { at0.req 0x3000 1 true false with devOk := true })).isSome = true ∧
    (let s := nextOf (exec (.stw 7 6 0) (withG at0 [(6, 0x3000), (7, 0x1234)]));
      s.mem.le 0x3000 4 = 0 ∧ (nextOf (exec (.cflush .dev 6) s)).mem.le 0x3000 4 = 0x1234 ∧
      l1Find ((nextOf (exec (.cinv .dev 6) s)).core 0).l1 0x3000 = none) ∧
    waitIn ({ stored4 with mem := stored4.mem.setLe 0x10008000 8 0 }.relPart .rel .dev) = some .flush := by decide +kernel

/-! ### Vectors, engines, streams -/

/-- at0 with a window of 16 vector registers, v1 = sixteen FP32 ones, v2 = the numbers 0 to 15 in FP32's places as integers, g6 in the
scratchpad. -/
def windowed : State :=
  let t := { at0.th with id := { at0.th.id with w := 16 } }
  let t := (t.setVr 1 (ofVLanes .fp32 (List.replicate 16 0x3F800000))).setVr 2 (ofVLanes .int32 (List.range 16))
  withG (at0.setTh t) [(6, 0x00F8_0000_0000_0000), (7, 8)]

/-- The vector operation at the tail of the current thread's queue. -/
def queued (i : Instr) (s : State) : Option VecOp :=
  match (nextOf (exec i s)).th.queue.getLast? with
  | some (.vec v) => some v
  | _ => none

/-- The FP32 lanes that a queued operation will write. -/
def lanesOf (i : Instr) (s : State) : List Nat :=
  match (queued i s).bind (·.vd) with
  | some (_, x) => (List.range 16).map (lane 32 x)
  | none => []

/-- Two operations in the queue: it is full (R222). -/
def fullQueue : State := windowed.setTh { windowed.th with queue := [.vec { pc := 0 }, .vec { pc := 0 }] }

/-- The hypotheses of VectorIssue: a prefix that is admitted, the register at the window's end, the last lane and one past it, the queue at
its length and one below. -/
theorem witness_vector_issue :
    (prefixed windowed .fp16 .fp16 .fp16).th.pp = true ∧ ruleArith.admits (prefixed windowed .fp16 .fp16 .fp16).th.pf = true ∧
    trapOf (.vadd .w32 .rne 3 1 16) windowed = some { cause := 0x0D } ∧ windowed.th.boundTo 15 = none ∧
    (queued (.vadd .w32 .rne 15 1 1) windowed).isSome = true ∧ (queued (.vins .w32 .rne 3 (.f 5) 15) windowed).isSome = true ∧ (queued (.vext .w32 .rne (.g 5) 1 15) windowed).isSome = true ∧
    (trapOf (.vext .w32 .rne (.g 5) 1 16) windowed).map (·.cause) = some 1 ∧
    windowed.th.queue.length < 2 ∧ 2 ≤ fullQueue.th.queue.length ∧
    (nextOf (exec (.vadd .w32 .rne 3 1 1) fullQueue)).th.wait = .queueFull := by decide +kernel
theorem test_vector_lanes : lanesOf (.vadd .w32 .rne 3 1 1) windowed = List.replicate 16 0x40000000 ∧
    lanesOf (.vrsum .w32 .rne 3 1 1) windowed = 0x41800000 :: List.replicate 15 0 ∧
    lanesOf (.vperm .w32 .rne 3 2 2) windowed = List.range 16 ∧
    (lanesOf (.vsel .w32 .rne 2 1 2) windowed).take 2 = [0, 0x3F800000] ∧
    (queued (.vext .w32 .rne (.g 5) 2 15) windowed).bind (·.gd) = some (5, 15) ∧
    (lanesOf (.vcmple .w32 .rne 3 2 1) windowed) = List.replicate 16 0xFFFFFFFF := by decide +kernel
/-- The hypotheses of VectorLanes: the last lane, both kinds of format, the highest operand of a shift. -/
theorem witness_vector_lanes : Fmt.isFp .fp32 = true ∧ Fmt.isFp .int8 = false ∧ 15 < fmtLanes .fp32 ∧ 0xFF < 2 ^ Fmt.bits .int8 ∧
    (shiftLane .int8 (sraBits .int8) [0xFF, 7] {}).1 = 0xFF := by decide +kernel
/-- The hypotheses of VectorMemory: registers free, lanes that pass, a lane that traps (the second, misaligned), and the value read. -/
theorem witness_vector_memory :
    (3 < windowed.th.id.w ∧ windowed.th.boundTo 3 = none ∧ windowed.th.queue.length < 2) ∧
    (let r := windowed.checkLanes false 4 0 ((List.range 16).map (fun i => windowed.g 6 + BitVec.ofNat 64 i * 8));
      (valueOf r).isSome = true ∧ (valueOf ((stateOf r).readLanes 0 4 ((valueOf r).getD []))).isSome = true ∧
      (stateOf r).writesReady ((valueOf r).getD []) = none) ∧
    (trapIn (windowed.checkLanes false 4 0 ((List.range 16).map (fun i => windowed.g 6 + BitVec.ofNat 64 i * 2)))).isSome = true ∧
    ([windowed.g 6, windowed.g 6 + 15 * 8].all (fun p => p.toNat / 2 ^ 48 % 256 == 0xF8 && p.toNat % 4 == 0 &&
      (windowed.spadTarget 0 p).any (fun e => !(windowed.core 0).spadPoison.contains (e.2 / 64)))) = true ∧
    (let s := windowed.spadWrite 0 0 (leBytes 4 9 ++ leBytes 4 8 ++ leBytes 4 7);
      (lanesOf (.vld 3 6 0) s).take 4 = [9, 8, 7, 0] ∧
      ((queued (.vsts .w 1 6 7) s).map (·.stores)).bind (·[1]?) = some (.spad 0 8, [0, 0, 0x80, 0x3F], 0x00F8_0000_0000_0008) ∧
      (lanesOf (.vlds .w 3 6 7) s).take 2 = [9, 7] ∧ (lanesOf (.vgth .b 3 6 2) s).take 3 = [9, 8, 7]) := by decide +kernel

/-- A device state with a core replaced. -/
def withCore (s : State) (f : Core → Core) : State := s.setCore 0 (f (s.core 0))

/-- Slot 0's queue with one entry. -/
def queueing (q : QOp) : State := windowed.setTh { windowed.th with queue := [q] }

/-- The hypotheses of EnginesAcceptAndComplete: an empty queue, each kind of entry at its head with its engine free, no operation and one
accepted, its context on a job; its flags enabled and not, the reports at one below their bound; one that stores to a scratchpad; the last one, and the last but
one, of a thread whose DONE waits. -/
theorem witness_engines :
    ((at0.core at0.ev.c).thread at0.ev.sl).queue = [] ∧
    (let k := (queueing (.vec { pc := 0 })).core 0; (k.nextServed .vec).map (·.1) = some 0 ∧ k.vx = []) ∧
    (let k := (queueing (.mat { pc := 0, kind := .tz 0 })).core 0; (k.nextServed .mat).map (·.1) = some 0 ∧ k.mx = []) ∧
    (Map.find? ((queueing (.copy { pc := 0, words := [], count := 1 })).core 0).cps 0 = none) ∧ (at0.core 0).vx = [] ∧
    (let v : VecOp := { pc := 8, vd := some (3, 7), flags := 1, enabled := 1 };
      let s := withCore (windowed.setTh { windowed.th with reports := [{}, {}, {}] }) (fun k => { k with vx := [(0, v)] });
      (s.th.live = true ∧ s.th.reports.length < 4 ∧ v.flags &&& v.enabled ≠ 0 ∧ v.flags &&& 2 = 0) ∧
      (let t := (nextOf (exec .vectorOpComplete s)).th;
        t.vr 3 = 7 ∧ t.fflags = 1 ∧ t.reports.getLast? = some { cause := 0x208, taddr := 1, tval := 8 })) ∧
    (let v : VecOp := { pc := 8, stores := [(.spad 0 8, [1, 2], 0x00F8_0000_0000_0008)] };
      ((nextOf (exec .vectorOpComplete (withCore windowed (fun k => { k with vx := [(0, v)] })))).core 0).spad.le 8 2 = 0x201) ∧
    (let s (q : List QOp) := withCore (windowed.setTh { windowed.th with wait := .ending, queue := q }) (fun k => { k with vx := [(0, { pc := 8 })] });
      { (s []).core 0 with vx := [] }.vecBusy 0 = false ∧ (nextOf (exec .vectorOpComplete (s []))).th.live = false ∧
      { (s [.vec { pc := 4 }]).core 0 with vx := [] }.vecBusy 0 = true ∧
      (nextOf (exec .vectorOpComplete (s [.vec { pc := 4 }]))).th.wait = .ending) ∧
    (let s := queueing (.vec { pc := 0 });
      let s := { s with ctxs := Map.put s.ctxs 1 { s.ctx 1 with job := some { sched := 0, progress := 9, expired := true } } };
      ((nextOf (exec .engineAccept s)).ctx 1).job.map (fun j => (j.progress, j.expired)) = some (0, false)) ∧
    (let info : TrapInfo := { cause := 5, tval := 7 };
      let s (q : List QOp) := withCore (windowed.setTh { windowed.th with
        wait := .trapping info 0x40, queue := q, tr := { windowed.th.tr with uvec := 0x200000, tvec := 0x300000 } })
        (fun k => { k with vx := [(0, { pc := 8 })] });
      (s []).th.inTrap = false ∧ { (s []).core 0 with vx := [] }.vecBusy 0 = false ∧ (nextOf (exec .vectorOpComplete (s []))).th.tr.tpc = 0x40 ∧
      { (s [.vec { pc := 4 }]).core 0 with vx := [] }.vecBusy 0 = true ∧
      (nextOf (exec .vectorOpComplete (s [.vec { pc := 4 }]))).th.wait = .trapping info 0x40) := by decide +kernel

/-- Descriptor registers g8 to g11 of a read walk over 32 four-byte elements in the scratchpad (R234), with C0 and S0 as given. -/
def walking (c0 s0 : Word) : State :=
  withG (windowed.spadWrite 0 0 (leBytes 4 5 ++ leBytes 4 6)) [(8, 0x00F8_0000_0000_0000), (9, 0x0002_0001_0001_0000 ||| c0), (10, s0), (11, 0)]

/-- A thread whose port 0 is bound to v3. -/
def boundPort : State := nextOf (exec (.strcfg 0 3 8) (walking 32 4))

/-- The hypotheses of Streams: a register at the window's end, ports in each state, a descriptor that is invalid and one that is valid,
a running read stream with elements left, and the piece and the element that its check and its read give, an element of a later piece
among them; a running write stream and what it pushes. -/
theorem witness_streams :
    trapOf (.strcfg 0 16 8) (walking 32 4) = some { cause := 0x0D } ∧ trapOf (.strcfg 0 15 8) (walking 32 4) = none ∧
    trapOf (.strcfg 0 4 8) boundPort = some { cause := 0x35, tval := 1 } ∧ trapOf (.strcfg 1 3 8) boundPort = some { cause := 0x35, tval := 2 } ∧
    trapOf (.strcfg 0 3 8) (walking 0 4) = some { cause := 0x35, tval := 3 } ∧ trapOf (.strcfg 0 3 8) (walking 32 2) = some { cause := 0x35, tval := 3 } ∧
    (boundPort.port 0).st = .bound ∧ (boundPort.port 0).left = 32 ∧ trapOf (.strgo 1) boundPort = some { cause := 0x35, tval := 4 } ∧
    trapOf (.strstop 1) boundPort = some { cause := 0x35, tval := 4 } ∧
    (let s := nextOf (exec (.strgo 0) boundPort);
      let q := s.port 0;
      let el := s.checkPiece 0 0 q.pieceElems;
      q.st = .running ∧ q.isWrite = false ∧ q.left ≠ 0 ∧ s.th.boundTo 3 = some 0 ∧ s.th.boundTo 4 = none ∧ s.th.pp = false ∧
      (valueOf el).isSome = true ∧
      ((valueOf ((stateOf el).readPiece 0 q ((valueOf el).getD []))).map (·.2)) = some [] ∧
      (stateOf ((stateOf el).readPiece 0 q ((valueOf el).getD []))).th = s.th ∧
      (lanesOf (.vmov .w32 .rne 4 3) s).take 2 = [5, 6] ∧ ((nextOf (exec (.vmov .w32 .rne 4 3) s)).port 0).left = 16 ∧
      q.pieceElems.find? (fun e => (Map.find? q.ahead e.1).isNone) = some (0, 0x00F8_0000_0000_0000) ∧
      (valueOf (s.check (s.req 0x00F8_0000_0000_0000 4 true false))).isSome = true ∧
      (valueOf (s.load 0 (.spad 0 0) 4)).map (·.2) = some false ∧
      (let s := { s with ev := { s.ev with k := 20 } };
        20 < q.total ∧ q.next = 0 ∧ Map.find? q.ahead 20 = none ∧
        (Map.find? ((nextOf (exec .streamFetchAhead s)).port 0).ahead 20).isSome = true)) ∧
    (let s := nextOf (exec (.strgo 0) (nextOf (exec (.strcfg 0 3 8) (walking (0x0004_0000_0000_0000 ||| 32) 4))));
      let q := s.port 0;
      let el := s.checkPiece 0 0 q.pieceElems;
      q.st = .running ∧ q.isWrite = true ∧ q.left ≠ 0 ∧ s.th.boundTo 3 = some 0 ∧ s.th.boundTo 1 = none ∧ (valueOf el).isSome = true ∧
      (stateOf el).writesReady (((valueOf el).getD []).map (fun x => x.2)) = none ∧ (stateOf el).th = s.th ∧
      ((queued (.vmov .w32 .rne 3 1) s).map (·.stores.length)) = some 16) := by decide +kernel

/-- boundPort with its port running. -/
def reading : State := nextOf (exec (.strgo 0) boundPort)
/-- A running write stream on v3. -/
def pushing : State := nextOf (exec (.strgo 0) (nextOf (exec (.strcfg 0 3 8) (walking (0x0004_0000_0000_0000 ||| 32) 4))))

/-- An element of a read stream past the scratchpad, which STREAM_FETCH_AHEAD leaves (R237). -/
theorem witness_fetch_ahead_trap :
    (let s := nextOf (exec (.strgo 0) (nextOf (exec (.strcfg 0 3 8) (walking 32 0x4000))));
      let s := { s with ev := { s.ev with k := 20 } };
      (s.port 0).st = .running ∧ 20 < (s.port 0).total ∧ Map.find? (s.port 0).ahead 20 = none ∧
      (trapIn (s.check (s.req ((s.port 0).elem 20) 4 true false))).isSome = true ∧
      Map.find? ((nextOf (exec .streamFetchAhead s)).port 0).ahead 20 = none) := by decide +kernel
/-- The hypotheses of Streams on operands: a destination bound for reading, a source bound for writing, a port that does not run, one with
no element left; a source that takes its piece, a destination that pushes, and VST and VLD on bound registers (R236 to R238). -/
theorem witness_stream_operands :
    trapOf (.vadd .w32 .rne 3 1 2) reading = some { cause := 0x35, tval := 6 } ∧ trapOf (.vst 3 6 0) pushing = some { cause := 0x35, tval := 6 } ∧
    trapOf (.vadd .w32 .rne 4 1 3) boundPort = some { cause := 0x35, tval := 7 } ∧
    (let s := reading.setTh { reading.th with ports := reading.th.ports.set 0 { reading.port 0 with left := 0 } };
      trapOf (.vsct .w 1 6 3) s = some { cause := 0x35, tval := 5 } ∧ trapOf (.vfma .w32 .rne 4 3 1) s = some { cause := 0x35, tval := 5 }) ∧
    (let r := reading.checkPiece 0 0 (reading.port 0).pieceElems;
      let r2 := (stateOf r).readPiece 0 (reading.port 0) ((valueOf r).getD []);
      (valueOf r2).map (·.2) = some [] ∧ (stateOf r2).th = reading.th ∧
      (lanesOf (.vperm .w32 .rne 4 2 3) reading).take 2 = [5, 6] ∧ (lanesOf (.vor .w32 .rne 4 3 3) reading).take 2 = [5, 6] ∧
      ((nextOf (exec (.vor .w32 .rne 4 3 3) reading)).port 0).left = 16 ∧
      (lanesOf (.vor .w32 .rne 4 3 3) ((stateOf r2).setTh { reading.th.setVr 3 (((valueOf r2).map (·.1)).getD 0) with ports := .replicate 4 {} })).take 2 = [5, 6] ∧
      (stateOf r2).spadTarget 0 0x00F8_0000_0000_0000 = some (0, 0) ∧
      ((queued (.vst 3 6 0) reading).map (·.stores.map (fun x => (x.1, x.2.1.take 8)))) = some [(.spad 0 0, [5, 0, 0, 0, 6, 0, 0, 0])]) ∧
    (let r := pushing.checkPiece 0 0 (pushing.port 0).pieceElems;
      (valueOf r).isSome = true ∧ (stateOf r).writesReady (((valueOf r).getD []).map (fun z => z.2)) = none ∧ (stateOf r).th = pushing.th ∧
      (lanesOf (.vadd .w32 .rne 3 1 1) ((stateOf r).setTh { pushing.th with ports := .replicate 4 {} })).take 1 = [0x40000000] ∧
      ((queued (.vadd .w32 .rne 3 1 1) pushing).map (fun v => (v.vd.isSome, (v.stores.map (fun x => (x.1, x.2.1))).take 2))) =
        some (false, [(.spad 0 0, [0, 0, 0, 0x40]), (.spad 0 4, [0, 0, 0, 0x40])]) ∧
      ((stateOf r).core 0).spadPoison = [] ∧
      ((queued (.vld 3 6 0) pushing).map (fun v => (v.stores.map (·.2.1)).take 2)) = some [[5, 0, 0, 0], [6, 0, 0, 0]]) := by decide +kernel

/-! ### Traps -/

/-- A thread with trap vectors and status. -/
def vectored (status uvec tvec : Word) : State :=
  at0.setTh { at0.th with status, tr := { at0.th.tr with uvec, tvec, tpc := 0x100040, tfStatus := 0x8 }, loops := { lc0 := 5 } }

/-- The hypotheses of TrapEntry, each way a trap goes (R14, R198, R199): inside a trap, to uvec, to tvec because the cause or the level
says so, to no vector. -/
theorem witness_trap_entry :
    (let s := vectored 2 0x200000 0x300000; s.th.inTrap = true ∧ (s.takeTrap { cause := 7 } 0).th.live = false) ∧
    (let s := vectored 0x10008 0x200007 0x300000; let u := s.takeTrap { cause := 7, taddr := 1, tval := 2 } 0x100000;
      s.th.inTrap = false ∧ s.th.sLevel = false ∧ u.iss.disp = .goto 0x200000 ∧ u.th.status = 2 ∧ u.th.tr.tfStatus = 0x10008 ∧
      u.th.tr.tfLoops.lc0 = 5 ∧ u.th.tr.tcause = 7 ∧ u.th.tr.tval = 2) ∧
    (let u := (vectored 0 0x200000 0x300000).takeTrap { cause := 6 } 0; u.iss.disp = .goto 0x300000 ∧ u.th.status = 3) ∧
    (let u := (vectored 1 0x200000 0x300000).takeTrap { cause := 7 } 0; u.iss.disp = .goto 0x300000 ∧ u.th.status = 3) ∧
    (let s := vectored 0 0 0; s.th.tr.tvec = 0 ∧ (s.takeTrap { cause := 7 } 0).th.live = false) := by decide +kernel
/-- TRAP while a vector operation of the thread is under way, and the end of its wait (R202, R223). -/
theorem witness_trap_waits :
    (let s0 := vectored 0 0x200000 0;
      let s := (s0.setTh { s0.th with queue := [.vec { pc := 0 }] }).begin 0 false 0x100000 0x100004;
      let u := nextOf (exec (.trap 7) s);
      let info : TrapInfo := { cause := 5, tval := 7 };
      let v := u.setTh { u.th with queue := [] };
      s.cpu.vecBusy s.cur.2 = true ∧ (u.thread 0 0).wait = .trapping info 0x100004 ∧ (u.core 0).vecBusy 0 = true ∧
      (v.thread 0 0).wait = .trapping info 0x100004 ∧ (v.core 0).vecBusy 0 = false ∧ (v.endIfLast 0 0).th.tr.tpc = 0x100004 ∧
      (v.endIfLast 0 0).th.pc = 0x200000) := by decide +kernel
/-- TRAP's tpc is the PC after its step; RETT in and outside a trap; a lone word that is no instruction (R86, R202, R204). -/
theorem witness_trap_instructions :
    (nextOf (exec (.trap 0xFFF) ((vectored 0 0x200000 0).begin 0 false 0x100000 0x100004))).th.tr.tpc = 0x100004 ∧
    (nextOf (exec (.ebrk 1) (vectored 0 0x200000 0x300000))).th.tr.tpc = 0x100000 ∧
    (vectored 0 0 0).th.status.getLsbD 1 = false ∧ (vectored 2 0 0).th.status.getLsbD 1 = true ∧
    (nextOf (exec .rett (vectored 2 0 0))).iss.disp = .goto 0x100040 ∧ (nextOf (exec .rett (vectored 2 0 0))).th.status = 8 ∧
    at0.th.wait = .none ∧ (nextOf (at0.runLone 0xFFFFFFFF)).iss.trap = some { cause := 1, taddr := 0x100000, tval := 0xFFFFFFFF } := by decide +kernel

/-! ### Synchronization -/

/-- Two threads on core 0, slots 0 and 1, of one crew and launch. -/
def pair0 (f0 f1 : Thread → Thread) : State :=
  let t := { at0.th with id := { at0.th.id with nth := 2, launch := 1 } }
  withCore at0 (fun k => { k with threads := [(0, f0 t), (1, f1 { t with id := { t.id with tix := 1 } })] })

/-- The hypotheses of Counters on the leader, and a counter's wrap (R166, R195). -/
theorem witness_counters :
    (let s := withCore at0 (fun k => { k with leader := some 0 });
      s.cpu.leader = some s.cur.2 ∧ (nextOf (exec .yield s)).cpu.passes = true) ∧ at0.cpu.leader ≠ some at0.cur.2 ∧
    (let s := withG (withCore at0 (fun k => k.setCnt 63 (-1))) [(6, 3)];
      gAfter (.cntadd true 5 6 63) s 5 = -1 ∧ (nextOf (exec (.cntadd true 5 6 63) s)).cpu.cnt 63 = 2) ∧
    (Map.find? (pair0 id id).cpu.threads 1).isSome = true := by decide +kernel

/-- The hypotheses of Messages: lengths at, below and past their bounds, each check's failure, a payload up to the scratchpad's end and past
it on either side, a message with none of its thread before it (R168 to R170). -/
theorem witness_messages :
    (let s (p q n : Word) := withG spadded [(8, p), (9, q), (10, n)];
      trapOf (.put 8 9 1) (s 0x3000 0 0) = some { cause := 0x11, taddr := 0x3000, tval := 2 } ∧
      trapOf (.put 8 9 1) (s 0x00F8_0000_0000_0004 0 0) = some { cause := 0x10, taddr := 0x00F8_0000_0000_0004, tval := 2 } ∧
      trapOf (.put 8 9 1) (s 0x00F8_3F00_0000_0000 0 0) = some { cause := 0x12, taddr := 0x00F8_3F00_0000_0000, tval := 2 } ∧
      (nextOf (exec (.put 8 9 1) (s 0x00F8_0000_0003_FFF8 5 0))).hub.msgs.map (fun m => (m.off, m.data, m.cnt)) = [(0x3FFF8, leBytes 8 5, 1)] ∧
      trapOf (.putb 8 9 10 1) (s 0 0 0) = some { cause := 0x20, tval := 0 } ∧ trapOf (.putb 8 9 10 1) (s 0 0 264) = some { cause := 0x20, tval := 264 } ∧
      trapOf (.putb 8 9 10 1) (s 0x00F8_0000_0000_0000 0x3000 8) = some { cause := 0x12, taddr := 0x3000, tval := 0 } ∧
      trapOf (.putb 8 9 10 1) (s 0x00F8_0000_0003_FF00 0x00F8_0000_0000_0000 256) = none ∧
      trapOf (.putb 8 9 10 1) (s 0x00F8_0000_0003_FF08 0x00F8_0000_0000_0000 256) = some { cause := 0x12, taddr := 0x00F8_0000_0003_FF08 } ∧
      trapOf (.putb 8 9 10 1) (s 0x00F8_0000_0000_0000 0x00F8_0000_0003_FF08 256) = some { cause := 0x12, taddr := 0x00F8_0000_0003_FF08 }) ∧
    (let m : Msg := { fromCore := 0, slot := 0, owner := 1, core := 0, off := 8, data := leBytes 8 0x1122, cnt := 3 };
      let s := { at0 with hub := { at0.hub with msgs := [m] } };
      s.hub.msgs[s.ev.k]? = some m ∧ m.data.length % 8 = 0 ∧ (s.core m.core).spad.wf = true ∧ s.ev.k = 0 ∧
      (let u := nextOf (exec .putDelivery s); (u.core 0).spad.le 8 8 = 0x1122 ∧ (u.core 0).cnt 3 = 1)) := by decide +kernel

/-- An inbox entry of slot 0 (R174), its operation 3. -/
def inboxed (s : State) : State := withCore s (fun k => { k with inbox := [{ slot := 0, w0 := 0x0300_0000_0005, w1 := 9 }] })
/-- The current thread waiting. -/
def waiting (s : State) (w : Wait) : State := s.setTh { s.th with wait := w }

/-- The hypotheses of Waits: a counter at its threshold and one below it, an entry, none and none reserved, none but one reserved, the masks
of NAP, the outcomes and the wakes (R171, R172, R175, R195). -/
theorem witness_waits :
    (let s := withG (withCore at0 (fun k => k.setCnt 1 7)) [(6, 7), (7, 8)];
      s.th.wait = .none ∧ 0 ≤ (s.cpu.cnt 1 - s.g 6).toInt ∧ gAfter (.waitc 5 6 1) s 5 = 7 ∧ (s.cpu.cnt 1 - s.g 7).toInt < 0 ∧
      (nextOf (exec (.waitc 5 7 1) s)).th.wait = .waitc 1 8 ∧ gAfter (.waitc 5 6 1) (waiting s (.waitcOk 4)) 5 = 4) ∧
    (gAfter (.deq 4) (inboxed at0) 4 = 0x0300_0000_0005 ∧ gAfter (.deq 4) (inboxed at0) 5 = 9 ∧
      (nextOf (exec (.deq 4) (inboxed at0))).cpu.inbox = [] ∧ trapOf (.deq 4) at0 = some { cause := 0x22 } ∧
      (nextOf (exec (.deq 4) (withCore at0 (fun k => { k with resv := [(0, 1)] })))).th.wait = .deq ∧
      gAfter (.deq 4) (waiting at0 (.deqOk 1 2)) 5 = 2 ∧ gAfter (.peek 4) (inboxed at0) 4 = 0x0300_0000_0005) ∧
    ((1 : BitVec 3).getLsbD 0 = true ∧ (nextOf (exec (.nap 1) (inboxed at0))).th.wait = .none ∧
      (nextOf (exec (.nap 6) (inboxed at0))).th.wait = .nap 6 false ∧ (nextOf (exec (.nap 1) at0)).th.wait = .nap 1 false ∧
      (nextOf (exec (.nap 1) (waiting at0 .napOk))).th.wait = .none) ∧
    (nextOf (exec .waitcSatisfied (waiting (withCore at0 (fun k => k.setCnt 1 8)) (.waitc 1 8)))).th.wait = .waitcOk 8 ∧
    (nextOf (exec .deqWake (waiting (inboxed at0) .deq))).th.wait = .deqOk 0x0300_0000_0005 9 ∧
    (nextOf (exec .napWake (waiting at0 (.nap 1 true)))).th.wait = .napOk := by decide +kernel

/-- Barrier 3 of cluster 0. -/
def barred (x : Barrier) : State := at0.setBar 0 3 x

/-- The hypotheses of Barriers, CBAR, BARCFG, BARARR and BARWAIT: a crew of one and of two, the masks at their ends, arrivals at 0, 1, 14
and 15, a generation that has completed and one that has not (R178 to R183). -/
theorem witness_barriers :
    ((nextOf (exec .cbar at0)).th.wait = .none ∧ (nextOf (exec .cbar (pair0 id id))).th.wait = .cbar ∧
      (nextOf (exec .cbar (at0.setTh { at0.th with cbarDone := true }))).th.cbarDone = false) ∧
    (let s := pair0 (fun t => { t with cbarArrived := true, wait := .cbar }) (fun t => { t with cbarArrived := true, wait := .cbar });
      s.crewArrived 0 0 = true ∧ (s.ctx (s.ownerOf 0)).runs = true ∧
      ((nextOf (exec .crewBarrierComplete s)).thread 0 1).cbarDone = true) ∧
    (let s (x : Word) := withG at0 [(6, x)];
      trapOf (.barcfg .strict 6 3) (s 0x0001_0000_0000_0001) = some { cause := 0x23, tval := 0x0001_0000_0000_0001 } ∧
      trapOf (.barcfg .strict 6 3) (s 0) = some { cause := 0x23 } ∧ trapOf (.barcfg .strict 6 3) (s 0x0000_8000_0000_0000) = none) ∧
    trapOf (.barcfg .strict 6 3) (withG (barred { mask := 3, n := [(0, 1)] }) [(6, 1)]) = some { cause := 0x24 } ∧
    trapOf (.bararr 5 3) (barred { mask := 2 }) = some { cause := 0x23 } ∧
    trapOf (.bararr 5 3) (barred { mask := 3, strict := true, n := [(0, 1)] }) = some { cause := 0x25 } ∧
    trapOf (.bararr 5 3) (barred { mask := 3, n := [(0, 15)] }) = some { cause := 0x26 } ∧
    gAfter (.bararr 5 3) (barred { mask := 3, gen := 9, n := [(0, 14)] }) 5 = 23 ∧
    ((nextOf (exec (.bararr 5 3) (barred { mask := 3, strict := true, gen := 9, n := [(1, 1)] }))).cluster 0).bar 3 =
      { mask := 3, strict := true, gen := 10, n := [(0, 0), (1, 0)] } ∧
    trapOf (.barwait 6 3) at0 = some { cause := 0x23 } ∧
    (let s := withG (barred { mask := 1, gen := 1 }) [(6, 0), (7, 1)];
      (nextOf (exec (.barwait 6 3) s)).th.wait = .none ∧ (nextOf (exec (.barwait 7 3) s)).th.wait = .barwait 3 1 ∧
      (nextOf (exec (.barwait 7 3) (waiting s .barwaitOk))).th.wait = .none ∧
      (nextOf (exec .barwaitWake (waiting s (.barwait 3 0)))).th.wait = .barwaitOk) := by decide +kernel
/-- The hypotheses of Barriers on PHASE: a vote not yet cast, cast, and the phase's result; two votes and their result (R184, R185). -/
theorem witness_phase :
    at0.th.vote = none ∧ at0.th.phaseRes = none ∧
    (nextOf (exec (.phase 5 6) (withG at0 [(6, 2)]))).th.vote = some 2 ∧
    (nextOf (exec (.phase 5 6) (at0.setTh { at0.th with vote := some 2 }))).th.wait = .phase ∧
    gAfter (.phase 5 6) (at0.setTh { at0.th with phaseRes := some 77 }) 5 = 77 ∧
    (let s := pair0 (fun t => { t with vote := some 2 }) (fun t => { t with vote := some 3 });
      let s := { s with ev := { s.ev with o := 1 } };
      s.phaseReady 1 = true ∧ (s.ctx 1).runs = true ∧
      ((nextOf (exec .phaseComplete s)).thread 0 1).phaseRes = some 0x0000_0005_0000_0003 ∧
      ((nextOf (exec .phaseComplete s)).ctx 1).phases = 1) := by decide +kernel

/-! ### Special registers, the instruction cache, rights -/

/-- The hypotheses of SpecialRegisters at the ends of each range: denied, unassigned, read-only, writable, with g0 and not; and what a
write keeps (R12, R20, R21, R205). -/
theorem witness_special_registers :
    (let s := withG (vectored 1 0 0x300000) [(6, -1)]; let u := withG (vectored 0 0 0) [(6, -1)];
      trapOf (.csrr 5 0x100) u = some { cause := 4 } ∧ trapOf (.csrw 5 0x2FF 6) u = some { cause := 4 } ∧
      gAfter (.csrr 5 0x104) s 5 = 0x300000 ∧
      u.csr 0x005 = none ∧ (trapOf (.csrr 5 0x005) u).map (·.cause) = some 1 ∧ (trapOf (.csrs 5 0x030 6) u).map (·.cause) = some 1 ∧
      trapOf (.csrs 5 0x030 0) u = none ∧ (trapOf (.csrw 5 0x030 0) u).map (·.cause) = some 1 ∧
      (nextOf (exec (.csrw 5 0x003 6) u)).th.status = 0x1FFFC ∧ (nextOf (exec (.csrw 5 0x003 6) s)).th.status = 0x9FFFF ∧
      (nextOf (exec (.csrw 5 0x002 0) u)).th.srseed = 1 ∧
      (nextOf (exec (.csrc 5 0x01E 6) (withG (vectored 1 0 0) [(6, 8)]))).th.tr.tfStatus = 0) := by decide +kernel

/-- A held line of the instruction cache. -/
def iline (p : Word) (locked : Bool) : ILine := { ptr := p, key := vaOf p, bytes := List.replicate 128 0, locked }
/-- A core with lines in its instruction cache. -/
def cached (n : Nat) (locked : Bool) : State :=
  withCore at0 (fun k => { k with icache := (List.range n).map (fun i => iline (BitVec.ofNat 64 (0x200000 + 128 * i)) locked) })

/-- The hypotheses of InstructionCache on IFENCE: nothing dirty, with no line locked, with locked lines that are filled again, and with one
whose page is not mapped, which waits; a dirty line that cannot be written yet (R207). -/
theorem witness_ifence : at0.th.wait ≠ .refillOk ∧
    (let s := cached 1 false; valueOf (s.release 0 .clu) = some () ∧ (∀ l ∈ (stateOf (s.release 0 .clu)).cpu.icache, l.locked = false) ∧
      (nextOf (exec .ifence s)).cpu.icache = []) ∧
    (let s := cached 1 true; let w := (stateOf (s.release 0 .clu)).staleIcache 0 (fun _ => true);
      valueOf (w.refillStale 0) = some () ∧ (nextOf (exec .ifence s)).cpu.icache.length = 1) ∧
    (let s := withCore at0 (fun k => { k with icache := [iline 0x1000_0000 true] });
      let w := (stateOf (s.release 0 .clu)).staleIcache 0 (fun _ => true);
      (waitIn (w.refillStale 0)).isSome = true ∧ (nextOf (exec .ifence s)).iss.disp = .stay) ∧
    (let s := { stored4 with mem := stored4.mem.setLe 0x10008000 8 0 };
      waitIn (s.release 0 .clu) = some .flush ∧ (nextOf (exec .ifence s)).th.wait = .flush) := by decide +kernel

/-- The hypotheses of InstructionCache on the rest: pointers aligned and not, lines whose fetch check fails, passes and waits, 255 and 256
lines locked before one more, lines of a
scratchpad, a reserved pointer in the range, a line that is held and one that is not (R208, R209, R355). -/
theorem witness_icache :
    (let s (n : Nat) (p : Word) := withG (cached n true) [(6, p)];
      trapOf (.ilock 5 6 0) (s 0 0x100040) = some { cause := 0x10, taddr := 0x100040 } ∧
      trapOf (.iunlk 5 6 0) (s 0 0x100040) = some { cause := 0x10, taddr := 0x100040 } ∧
      (trapIn ((s 0 0).checkFetches (lockRange 0x0100_0000_0010_0000 0))).isSome = true ∧
      valueOf ((s 255 0).checkFetches (lockRange 0x100000 0)) = some () ∧
      (valueOf ((s 255 0).fillLines (lockRange 0x100000 0))).isSome = true ∧
      gAfter (.ilock 5 6 0) (s 255 0x100000) 5 = 1 ∧ gAfter (.ilock 5 6 0) (s 256 0x100000) 5 = 0x100000000 ∧
      trapOf (.iunlk 5 6 1) (s 0 0x00DF_FFFF_FFFF_FF80) = some { cause := 0x11 } ∧
      (lockRange 0x00F8_0000_0000_0080 1).all (fun q => q.toNat / 2 ^ 48 % 256 == 0xF8 && ((s 2 0).spadTarget 0 q).isSome) = true ∧
      gAfter (.ilock 5 6 1) (s 2 0x00F8_0000_0000_0080) 5 = 2 ∧ gAfter (.iunlk 5 6 3) (s 2 0x200000) 5 = 2 ∧ gAfter (.iunlk 5 6 0) (s 1 0x0100_0000_0020_0000) 5 = 1) ∧
    (let s := { cached 1 false with ev := { (cached 1 false).ev with v := 0x200000 } };
      (s.iline 0 s.ev.v).isSome = true ∧ (s.iline 0 0x100000).isSome = false ∧
      (valueOf (s.fill 0 none false 0x100000)).map (fun l => (l.bad, l.tagBad, l.key)) = some (0, false, 0x100000) ∧
      (valueOf ({ s with poison := [0x100000 / 64] }.fill 0 none false 0x100000)).map (fun l => (l.bad, l.tagBad)) = some (1, false) ∧
      (trapIn (s.fill 0 none false 0x0100_0000_0010_0000)).isSome = true ∧ (waitIn (s.fill 0 none false 0x1000_0000)).isSome = true) := by
  decide +kernel
/-- The hypotheses of InstructionCache on a fill that traps (a page of region 0 that no entry of the context covers) and one that waits, on a
line that an IUNLK's range covers while an IFENCE has still to fill it again, and on a fill whose line is poisoned (R207 to R209). -/
theorem witness_icache_fills :
    (let s := withG (cached 0 true) [(6, 0x10000000)];
      valueOf (s.checkFetches (lockRange 0x10000000 0)) = none ∧ (waitIn (s.fillLines [0x10000000])).isSome = true ∧
      (trapIn (s.fillLines [0x0100_0000_0010_0000])).isSome = true ∧ trapIn (s.fillLines [0x100000]) = none) ∧
    (let s := withG (withCore (cached 2 true) (fun k => { k with icache := k.icache.map (fun l => { l with stale := l.ptr == 0x200000 }) })) [(6, 0x200000)];
      s.cpu.icache.map (·.stale) = [true, false] ∧ (nextOf (exec (.iunlk 5 6 0) s)).cpu.icache.map (fun l => (l.ptr, l.locked)) = [(0x200080, true)] ∧
      gAfter (.iunlk 5 6 0) s 5 = 1) ∧
    (let s := { cached 0 false with ev := { at0.ev with v := 0x10000000 } };
      s.iline 0 s.ev.v = none ∧ (waitIn (s.fill 0 none false s.ev.v)).isSome = true) ∧
    (let s := { cached 0 false with ev := { at0.ev with v := 0x0100_0000_0010_0000 } };
      s.iline 0 s.ev.v = none ∧ (trapIn (s.fill 0 none false s.ev.v)).isSome = true ∧ isNext (exec .instructionFill s) = true) := by decide +kernel
/-- The hypotheses of InstructionCache on what stays locked, at its limit: 255 locked lines and one more, all keys different (R208). -/
theorem witness_locked_stay :
    ((cached 255 true).cpu.icache.filter (·.locked)).length + [iline 0x100000 false].length ≤ 256 ∧
    ((cached 255 true).cpu.icache.map (·.key)).Nodup := by decide +kernel

/-- at0 with owner 2 beside owner 1, a range of one line at 0x3000 in g6 and g7, and an owner in g8. -/
def ranged (owner : Word) : State :=
  withG { at0 with ctxs := Map.put at0.ctxs 2 { fn := 1 } } [(6, 0x3000), (7, 64), (8, owner)]

/-- A request at the head of the security core's queue. -/
def asking (kind : SecKind) (age : BitVec 8) : State :=
  { ranged 2 with hub := { (ranged 2).hub with secQ := [{ kind, owner := 1, base := 0xC0, lines := 1, age }] } }
/-- A cut under way. -/
def cutting (kind : SecKind) (toCut toAck : List Nat) : State :=
  { ranged 2 with hub := { (ranged 2).hub with cuts := [{ req := { kind, owner := 1 }, owners := [2], base := 0xC0, lines := 1, toCut, toAck }] } }

/-- A state with a queued vector store, its number 7, to the line at 0x3000. -/
def storing (s : State) : State :=
  s.setTh { s.th with queue := [.vec { pc := 0, seq := 7, stores := [(.glob 0x3000 (2 ^ 63 + 2 ^ 62) 0x3000, [1], 0x3000)] }] }

/-- The hypotheses of Rights on the instructions: ranges that are not global, not whole lines, past their region's end; the issuer as target,
owner 0 and 65,536; an inbox of three and of four (R211 to R218). -/
theorem witness_rights :
    (let s := ranged 2; let grants (s : State) := trapOf (.grant 8 6 7 5) s;
      grants (withG s [(6, 0x00F8_0000_0000_0000)]) = some { cause := 0x11, taddr := 0x00F8_0000_0000_0000 } ∧
      grants (withG s [(6, 0x3008)]) = some { cause := 0x19, taddr := 0x3008, tval := 64 } ∧
      grants (withG s [(6, 0x00DF_FFFF_FFFF_FFC0), (7, 128)]) = some { cause := 0x19, taddr := 0x00DF_FFFF_FFFF_FFC0, tval := 128 } ∧
      grants (ranged 1) = some { cause := 0x19, tval := 1 } ∧ grants (ranged 0) = some { cause := 0x19 } ∧
      grants (ranged 0x10000) = some { cause := 0x19, tval := 0x10000 } ∧ grants s = none ∧
      grants (withCore s (fun k => { k with resv := [(0, 1), (0, 2), (0, 3)] })) = none ∧
      gAfter (.grant 8 6 7 5) (withCore s (fun k => { k with resv := [(0, 1), (1, 2), (0, 3)] })) 8 = 2 ∧
      grants (withCore s (fun k => { k with resv := [(0, 1), (0, 2), (0, 3), (0, 4)] })) = some { cause := 0x21 }) ∧
    gAfter (.rprobe 5 6) (withG at0 [(6, 0x00F8_0000_0000_0000)]) 5 = 0x303 ∧ trapOf (.rprobe 5 6) (withG at0 [(6, 0x00E0_0000_0000_0000)]) =
      some { cause := 0x11 } ∧
    (let s := nextOf (exec (.free 4 6 7) (ranged 2)); s.th.wait = .free 4 0 ∧ s.hub.secQ.map (·.kind) = [.free 4]) := by decide +kernel
/-- The hypotheses of Rights on the security core: a grant it refuses and one it performs, a revocation, a FREE it refuses and one it
performs, a cut with a core to take and none, to acknowledge and none (R314 to R320). -/
theorem witness_security_core :
    (let s := asking (.grant 2 5) 0; (asking (.grant 2 5) 0).grantStatus { kind := .grant 2 5, owner := 1, base := 0xC0, lines := 1 } 2 5 = 0 ∧
      ((nextOf (exec .grantPerformed s)).table 2).map (fun e => (e.base, e.len, e.rights, e.pgid, e.pown)) = [(0xC0, 1, 5, 1, 1)]) ∧
    (asking (.grant 2 5) 1).grantStatus { kind := .grant 2 5, owner := 1, base := 0xC0, lines := 1, age := 1 } 2 5 = 3 ∧
    (nextOf (exec .revocationCut (asking (.revoke 2) 0))).hub.cuts.length = 1 ∧
    (let s := asking (.free 4) 1; s.freeStatus (s.hub.secQ.headD { kind := .free 4, owner := 0 }) = 3 ∧ (nextOf (exec .freeResult s)).hub.secQ = []) ∧
    (let s := asking (.free 4) 0; s.freeStatus (s.hub.secQ.headD { kind := .free 4, owner := 0 }) = 0 ∧
      ((nextOf (exec .revocationCut s)).table 1).any (fun e => e.base == 0xC0 && e.age == 1) = true) ∧
    (let s := cutting (.revoke 2) [0] []; ((s.hub.cuts[s.ev.k]?).map (fun x => x.toCut.contains 0)) = some true ∧
      (nextOf (exec .coreCut s)).hub.cuts.map (fun x => (x.toCut, x.toAck)) = [([], [0])]) ∧
    (let s := cutting (.revoke 2) [] [0]; ((s.hub.cuts[s.ev.k]?).map (fun x => (x.toCut.contains 0, x.toAck.contains 0))) = some (false, true) ∧
      (s.core 0).held 0xC0 1 = [] ∧ ((s.settleSeq 0).writeBackRange 0 0xC0 1).rangeClean 0 0xC0 1 = true ∧
      (nextOf (exec .cutAcknowledge s)).hub.cuts.map (·.toAck) = [[]]) ∧
    (let s := cutting (.revoke 2) [] [0];
      let v := { s with cores := stored4.cores, mem := stored4.mem.setLe 0x10008000 8 0 };
      ((v.settleSeq 0).writeBackRange 0 0xC0 1).rangeClean 0 0xC0 1 = false ∧ (nextOf (exec .cutAcknowledge v)).hub.cuts.map (·.toAck) = [[0]]) ∧
    (let s := storing (cutting (.revoke 2) [0] []); let u := nextOf (exec .coreCut s);
      u.hub.cuts.map (fun x => Map.getD x.held 0 []) = [[(7, 0x3000)]] ∧ (nextOf (exec .cutAcknowledge u)).hub.cuts.map (·.toAck) = [[0]]) ∧
    (let s := cutting (.revoke 2) [] []; (s.hub.cuts[s.ev.k]?).map (·.toAck.contains 0) = some false ∧ (nextOf (exec .revokeDone s)).hub.cuts = []) ∧
    (let s := cutting (.free 4) [] []; s.hub.secQ = [] ∧ (s.hub.cuts[s.ev.k]?).map (·.req.kind) = some (.free 4) ∧
      (nextOf (exec .freeResult s)).hub.cuts = []) ∧
    (let s := waiting at0 (.free 4 7); (s.thread 0 0).live = true ∧
      ((s.endFree { kind := .free 4, owner := 1, ptr := 0x3000, tag := 7 } 4 0).thread 0 0).gr 4 = 0x0100_0000_0000_3000) := by decide +kernel

/-! ### Launches, the scheduler, core events -/

/-- A launch record (R186): ENTRY, ARG = 0x77, one crew of one thread, VW = 16, PRI as given, SHW = 1; reserved bits as given. -/
def record (pri bad : Nat) : Nat :=
  0x100000 + 0x77 * 2 ^ 64 + 2 ^ 128 + 2 ^ 150 + 2 ^ 171 + 2 ^ 192 + 16 * 2 ^ 209 + pri * 2 ^ 216 + 2 ^ 224 + bad * 2 ^ 242

/-- The context of owner 1 with a job: CEIL 9, WDLOG2 20. -/
def jobCtx (f : Ctx → Ctx) (j : Job → Job) : State :=
  { at0 with
    ctxs := Map.put at0.ctxs 1 (f { placeCtx with job := some (j { sched := 0x0000_0014_0900_0000, root := 1, nextOrder := 5 }) })
    mem := at0.mem.setLe 0x4000 64 (record 12 0) }

/-- The same with a launch 1 in pool slot 0. -/
def launched (f : Launch → Launch) : State :=
  let s := jobCtx id id;
  { s with launches := [(1, f { ptr := 0x4000, recd := BitVec.ofNat 512 (record 12 0), owner := 1, slot := some 0, level := 3, order := 2 })]
           hub := { s.hub with nextLaunch := 2 }, ev := { s.ev with o := 1, num := 1 } }

/-- The hypotheses of Launches: a record misaligned, outside global space, with a reserved bit and sound; PRI above CEIL; targets that each
level admits and does not; a cancellation that has settled and one that has not; what LCOUNT counts (R187 to R194). -/
theorem witness_launches :
    trapOf (.launch 5 6) (withG at0 [(6, 0x4040)]) = some { cause := 0x10 } ∧
    trapOf (.launch 5 6) (withG at0 [(6, 0x00F8_0000_0000_0000)]) = some { cause := 0x11, taddr := 0x00F8_0000_0000_0000 } ∧
    (let s := withG (jobCtx id id) [(6, 0x4000)]; gAfter (.launch 5 6) s 5 = 1 ∧ (s.ctx 1).job.isSome = true ∧
      ({ ptr := 0x4000, recd := BitVec.ofNat 512 (record 12 0), owner := 1 } : Launch).total ≠ 0 ∧
      ((nextOf (exec (.launch 5 6) s)).launch? 1).map (fun l => (l.level, l.started)) = some (9, 0) ∧
      (trapIn ({ s with mem := s.mem.setLe 0x4000 64 (record 12 1) }.checkLaunch 0x4000)) = some { cause := 0x27, tval := 242 } ∧
      (waitIn (s.checkLaunch 0x1000_0000)).isSome = true) ∧
    (trapOf (.lcancel 5 0 1) at0).map (·.cause) = some 1 ∧ (trapOf (.lcount 5 6 2) (withG at0 [(6, 1)])).map (·.cause) = some 1 ∧
    (let s := withG (launched id) [(6, 1), (7, 9)]; (nextOf (exec (.lcancel 5 6 0) s)).th.wait = .lcancel 5 1 ∧
      (s.family 1 (cancelRoot 0 1 0)).contains 1 = true ∧ gAfter (.lcount 5 6 0) s 5 = 0 ∧ gAfter (.lcount 5 7 0) s 5 = -1 ∧
      gAfter (.lcount 5 7 1) s 5 = 0 ∧ gAfter (.lcount 5 0 2) s 5 = 0 ∧ gAfter (.lcount 5 0 3) s 5 = 0) ∧
    (let s := waiting (launched (fun l => { l with cancelled := true })) (.lcancel 5 1);
      s.cancelSettled 1 (0, 0) = true ∧ gAfter .lcancelComplete s 5 = 1 ∧
      (waiting (launched (fun l => { l with cancelled := true, canceller := some (0, 0), crews := [(0, { core := 0, slots := [1] })] })) (.lcancel 5 1)
        |> fun s => (s.setThread 0 1 { live := true }).cancelSettled 1 (0, 0)) = false) := by decide +kernel

/-- owner 1's job after one LAUNCH of the record in g6: its L1 holds the record, its TLB and its PLB the page. -/
def relaunching : State := nextOf (exec (.launch 5 6) (withG (jobCtx id id) [(6, 0x4000)]))

/-- The hypotheses of Launches on a LAUNCH that completes at once (R187, R188): every check answered by what the core holds. -/
theorem witness_launch_completes :
    (relaunching.ctx 1).job.isSome = true ∧ relaunching.g 6 = 0x4000 ∧
    ((List.find? (tlbHit true 0x4000) relaunching.cpu.tlb).map (fun t => (t.va, t.size, pteMX t.leaf, pteRP t.leaf))) = some (0, 2 ^ 28, false, false) ∧
    [0x4000, 0x4040].all (fun x => [true, false].all (fun w =>
      List.find? (tlbHit w x) relaunching.cpu.tlb == List.find? (tlbHit true 0x4000) relaunching.cpu.tlb)) = true ∧
    [0x4000, 0x4040].all (fun x =>
      (List.find? (fun e : PlbEntry => e.owner == 1 && e.e.covers (x / 64)) (relaunching.core 0).plb).any
        (fun e => !e.e.dm && e.e.age == 0 && e.e.rights == 0xF)) = true ∧
    relaunching.holeAt 1 0x4000 = false ∧ relaunching.poison = [] ∧ (l1Bytes relaunching.cpu.l1 0x4000 64).isSome = true ∧
    (∀ b ∈ relaunching.cpu.l1, b.dirty = false) ∧ relaunching.hub.seqQ = [] ∧ badRecordBit (BitVec.ofNat 512 (record 12 0)) = none ∧
    (let l : Launch := { ptr := 0x4000, recd := BitVec.ofNat 512 (record 12 0), owner := 0 };
      l.ccaddr = 0 ∧ l.dep = false ∧ (relaunching.ctx 1).job.bind (fun j => relaunching.lqFull 1 j l.pw l.graph) = none) ∧
    gAfter (.launch 5 6) relaunching 5 = 2 := by decide +kernel

/-- The hypotheses of Dispatcher: a launch to start, none; a crew that is idle and one that is not; finished and not; a counter at its threshold;
wait and blocked clocks at their bounds and one below; a core to reserve (R188 to R190, R327 to R331). -/
theorem witness_dispatcher :
    (jobCtx id id).nextDispatch 1 = none ∧
    ((launched id).nextDispatch 1).map (fun x => (x.1, x.2.1, x.2.2.2.1)) = some (3, 1, 0) ∧ ((launched id).freeSlots 0)[0]? = some 1 ∧
    (let t := (nextOf (exec .dispatch (launched id))).thread 0 1;
      t.live = true ∧ t.pc = 0x100000 ∧ t.gr 3 = 0x77 ∧ t.srseed = 1 ∧ t.id.w = 16) ∧
    (let crew : Crew := { core := 0, slots := [1] }; let s := launched (fun l => { l with started := 1, crews := [(0, crew)] });
      s.crewIdle crew = true ∧ (s.setThread 0 1 { live := true }).crewIdle crew = false ∧ (s.ctx 1).save ≠ .saved ∧
      ((nextOf (exec .crewDone s)).launch? 1).map (·.doneCrews) = some 1 ∧
      (∀ b ∈ (s.core 0).l1, b.dirty = false) ∧ s.hub.seqQ = [] ∧ s.ownerOf 0 = 1 ∧
      (let u := { s with cores := stored4.cores, mem := s.mem.setLe 0x10008000 8 0 };
        ((u.settleSeq 0).writeBack 0).l1Clean 0 = false ∧ ((nextOf (exec .crewDone u)).launch? 1).map (·.doneCrews) = some 0)) ∧
    (let s := launched (fun l => { l with started := 1, doneCrews := 1 });
      (s.launch? 1).map (·.finished) = some true ∧ ((nextOf (exec .launchComplete s)).ctx 1).job = none) ∧
    ((launched id).launch? 1).map (·.finished) = some false ∧
    (let s := launched (fun l => { l with recd := BitVec.ofNat 512 (record 12 0 + 2 ^ 241 + 2 ^ 432) });
      (s.launch? 1).map (fun l => (l.dep, l.depMet, l.dthr)) = some (true, false, 1) ∧ (s.deviceRead 1 0x4000 8).2 = some 0x100000 ∧ (s.deviceRead 1 0x7000_0000 8).2 = none ∧
      ((nextOf (exec .dependenceTest s)).launch? 1).map (·.depMet) = some true) ∧
    (let s := launched (fun l => { l with waitClk := 0x100000 }); s.promoInterval 3 = 0x100000 ∧
      ((nextOf (exec .promotion s)).launch? 1).map (fun l => (l.level, l.order)) = some (4, 6)) ∧
    ((launched (fun l => { l with waitClk := 0xFFFFF })).launch? 1).map (launched id).promotable = some false ∧
    (let s := launched (fun l => { l with blockClk := 0x100000 }); (s.launch? 1).map s.reservable = some true ∧ (s.ctx 1).resv = none ∧
      ((nextOf (exec .coreReservation s)).ctx 1).resv = some (1, 0)) ∧
    ((launched (fun l => { l with blockClk := 0xFFFFF })).launch? 1).map (launched id).reservable = some false := by decide +kernel

/-- A launch at a record whose crews are done, with a completion counter, n stages of its completion made. -/
def closing (p : Word) (cc n : Nat) : State :=
  launched (fun l => { l with ptr := p, started := 1, doneCrews := 1, closing := n, recd := BitVec.ofNat 512 (record 12 0 + cc * 2 ^ 320) })
/-- A launch in a state, and whether a write of it waits. -/
def closed (s : State) : Option (Nat × Bool) := (s.launch? 1).map (fun l => (l.closing, s.launchWaits l))

/-- The hypotheses of LAUNCH_COMPLETE's stages (R190, R413): its STATE waits on a page that is not mapped, then its counter; both made; a
write of it waits already; the stages made before. -/
theorem witness_launch_stages :
    closed (closing 0x10000000 0 0) = some (0, false) ∧ closed (nextOf (exec .launchComplete (closing 0x10000000 0 0))) = some (1, true) ∧
    closed (nextOf (exec .launchComplete (closing 0x4000 0x10000000 0))) = some (2, true) ∧
    (let u := nextOf (exec .launchComplete (closing 0x4000 0x5000 1)); closed u = none ∧ u.mem.le 0x5000 8 = 1 ∧ (u.ctx 1).lastDone = 1) ∧
    (let u := nextOf (exec .launchComplete (closing 0x4000 0x5000 2)); closed u = none ∧ u.mem.le 0x5000 8 = 0 ∧ (u.ctx 1).lastDone = 1) := by
  decide +kernel

/-- at0 with held reports of its thread (R201). -/
def reporting (s : State) : State := s.setTh { s.th with reports := [{ cause := 0x208, taddr := 1, tval := 8 }] }
/-- Owner 1's context in a state of saving, with a request. -/
def saving (st : SaveState) (p : PreReq) : State :=
  let s := jobCtx (fun k => { k with save := st, pre := some p }) id;
  { s with ev := { s.ev with o := 1 } }

/-- The hypotheses of CoreEvents: a leader that made an off-core reference, one that has led for 64 cycles, one that is not ready, with a
ready slot after it and with none; one that goes on; a slot of the group that has still to issue; reports held, none, and held inside a
trap, at each route; a job at its watchdog's limit and one below, in each state of saving; a grace period at 0 and at 1 (R201, R334 to
R345). -/
theorem witness_core_events :
    (let s (f : Core → Core) := withCore (pair0 id id) (fun k => f { k with leader := some 0, lastLead := 0 });
      (s id).ready 0 0 = true ∧ (s id).ready 0 1 = true ∧ (s id).ready 0 2 = false ∧
      (nextOf (exec .leaderChange (s (fun k => { k with passes := true })))).cpu.leader = some 1 ∧
      (nextOf (exec .leaderChange (s (fun k => { k with leadCount := 64 })))).cpu.leader = some 1 ∧
      (nextOf (exec .leaderChange (s (fun k => { k with leadCount := 63 })))).cpu.leader = some 0 ∧
      (nextOf (exec .leaderChange (s (fun k => { k with passes := true, group := [1] })))).cpu.leader = some 0 ∧
      (((s id).openCycle 0).core 0).group = [0, 1]) ∧
    (let s := withCore (waiting at0 .phase) (fun k => { k with leader := some 0 });
      (List.range 16).all (fun i => !s.ready 0 i) = true ∧ (nextOf (exec .leaderChange s)).cpu.leader = none) ∧
    (let t := (nextOf (exec .deferredTrap (reporting (vectored 0 0x200000 0x300000)))).th; t.pc = 0x200000 ∧ t.tr.tpc = 0x100000 ∧ t.reports = []) ∧
    (nextOf (exec .deferredTrap (reporting (vectored 1 0x200000 0x300000)))).th.pc = 0x300000 ∧
    (nextOf (exec .deferredTrap (reporting (vectored 0 0 0)))).th.live = false ∧
    (reporting (vectored 2 0x200000 0)).th.inTrap = true ∧ (let s := reporting at0; s.th.live = true ∧ s.th.wait.drains = false ∧ s.th.wait.token = false ∧
      (s.core 0).vecBusy 0 = false ∧ (s.core 0).folding 0 = false ∧ (s.ctx 1).runs = true) ∧
    (let at_ (k : Ctx → Ctx) (n : Nat) := { jobCtx k (fun j => { j with progress := n }) with ev := { at0.ev with o := 1 } };
      let hung (k : Ctx → Ctx) := { jobCtx k (fun j => { j with progress := 2 ^ 20, expired := true }) with ev := { at0.ev with o := 1 } };
      (at_ id (2 ^ 20 - 1)).progressHeld 1 = false ∧
      (((at_ id (2 ^ 20 - 1)).tickProgress 1 1).ctx 1).job.map (·.hung) = some true ∧
      (((at_ id (2 ^ 20 - 2)).tickProgress 1 1).ctx 1).job.map (·.hung) = some false ∧
      (at_ (fun k => { k with save := .saved }) 0).progressHeld 1 = true ∧
      ((hung id).ctx 1).job.map (·.hung) = some true ∧ ((hung id).ctx 1).save = .running ∧
      ((nextOf (exec .watchdogExpiry (hung id))).ctx 1).lastStatus = .hang ∧
      ((hung (fun k => { k with save := .saved })).ctx 1).save = .saved ∧ ((hung (fun k => { k with save := .draining })).ctx 1).save = .draining) ∧
    ((nextOf (exec .graceExpiry (saving .grace { left := 0 }))).ctx 1).save = .draining ∧
    ((nextOf (exec .graceExpiry (saving .grace { left := 1 }))).ctx 1).save = .grace ∧
    ((saving .draining { checkpoint := true }).ctx 1).pre.map (·.checkpoint) = some true := by decide +kernel
/-- The drain's end: the context has drained, and its image's length against the room (R345). -/
theorem witness_drain_end :
    (let s := jobCtx (fun k => { k with save := .draining, pre := some { size := 0 }, tab := [] }) id;
      s.drained 1 = true ∧ (s.ctx 1).cancelWaits = [] ∧ (s.ctx 1).destroyWaits = [] ∧ (s.drainL1 1).l1sClean 1 = true ∧
      0 < imageLength ((s.drainL1 1).imageFor 1 true).sections ∧ imageLength ((s.drainL1 1).imageFor 1 true).sections ≤ 2 ^ 30) ∧
    (withCore (saving .draining {}) (fun k => { k with resv := [(0, 1)] })).drained 1 = false ∧
    (let s := jobCtx (fun k => { k with save := .draining, pre := some { size := 2 ^ 30, dest := 0x20000 }, tab := [] }) id;
      let s := { s with ev := { s.ev with o := 1 } };
      let u := nextOf (exec .drainEnd s);
      ((u.ctx 1).pre.map (·.begun), (u.ctx 1).save) = (some true, .draining) ∧ u.drained 1 = true ∧
      (nextOf (exec .drainEnd u) |>.ctx 1).save = .saved) := by decide +kernel

/-! ### Copies, migration, replication -/

/-- The record of a copy of four FP32 elements inside the scratchpad, from its start to byte 0x100, with word 9 as given and INC on counter 3
(R242). -/
def copyWords (w9 : Word) : List Word :=
  [0x00F8_0000_0000_0000, 0x00F8_0000_0000_0100, 0x0001_0001_0001_0004, 0, 0, 0, 0, 0x0001_0001_0001_0004, 0, w9, 0, 0x203]
/-- The record in g8 to g19. -/
def copying (s : State) (w9 : Word) : State := withG s (((List.range 12).map (fun i => BitVec.ofNat 5 (8 + i))).zip (copyWords w9))
/-- spadded with a copy in progress in slot 0. -/
def running (f : CopyOp → CopyOp) : State :=
  withCore spadded (fun k => { k with cps := [(0, f { pc := 0, words := copyWords 0x11, count := 0, st := .running })], copies := 1 })

/-- The hypotheses of Copies: a record whose lowest offending bit is its last reserved one, a sound one, a queue of one and of two; handles of this
core and of another, of a copy under way, ended and queued; a copy with its turn, one that is not ready, one rejected, one that has ended
(R243 to R248, R337). -/
theorem witness_copies :
    trapOf (.cpy 5 8) (copying spadded 0x8000_0000_0000_0011) = some { cause := 0x34, tval := 639 } ∧
    (let s := copying spadded 0x11;
      trapOf (.cpy 5 8) s = none ∧ s.th.queue.length < 2 ∧ (nextOf (exec (.cpy 5 8) s)).cpu.copies = 1 ∧
      (let u := nextOf (exec (.cpy 5 8) s); (u.cpu.queuedCopy 0).isSome = true ∧ gAfter (.cpys 5 0) u 5 = 0x0100_0000_0000_0000) ∧
      (nextOf (exec (.cpy 5 8) (s.setTh { s.th with queue := [.vec { pc := 0 }, .vec { pc := 0 }] }))).th.wait = .queueFull) ∧
    (let s := withG (running id) [(6, 0), (7, 0x0010_0000_0000_0000)];
      s.cpu.copyLive 0 = true ∧ gAfter (.cpys 5 6) s 5 = 0x0200_0000_0000_0000 ∧ gAfter (.cpys 5 7) s 5 = 0 ∧
      s.cpu.queuedCopy 0 = none ∧ (s.cpu.runningCopy 0).isSome = true ∧ (nextOf (exec (.cpyk 5 6) s)).th.wait = .cpyk 5 0 ∧
      (s.copyAt 0 0).map (·.ready) = some true ∧ (s.cpu.nextServed .copy).map (·.1) = some 0 ∧
      (let u := nextOf (exec .copyLine s); (u.cpu.spad.le 0x100 8) = 0xF7F6_F5F4_F3F2_F1F0 ∧ (u.copyAt 0 0).bind (·.ending) = some .done ∧
        (u.copyAt 0 0).map (·.buf) = some [] ∧
        (let w := nextOf (exec .copyEnd u); w.cpu.copyLive 0 = false ∧ gAfter (.cpys 5 6) w 5 = 0x0300_0000_0000_0010 ∧ w.cpu.cnt 3 = 1 ∧
          gAfter .cpykComplete (waiting w (.cpyk 5 0)) 5 = 0x0300_0000_0000_0010))) ∧
    ((running (fun p => { p with kill := true })).copyAt 0 0).map (·.ready) = some false ∧
    (let s := running (fun p => { p with rejected := true }); (s.copyAt 0 0).map (fun p => (p.rejected, p.ready)) = some (true, true) ∧
      ((nextOf (exec .copyLine s)).copyAt 0 0).map (fun p => (p.st, p.status)) = some (.failed, 4)) ∧
    at0.copyAt 0 0 = none ∧ takeKilled at0.th.queue = none := by decide +kernel

/-- Requests for pages, the first as given, with a migration-table entry 1 of the lines given, and a reservation for its entry. -/
def paging (q : PageReq → PageReq) (p lines : Nat) : State :=
  let s := { at0 with
    mem := at0.mem.setLe 0x30040 8 0x55
    hub := { at0.hub with
      pageReqs := [q { owner := 1, ptr := 0x30000, pages := 1, tag := 7 }]
      mig := [(1, { va := 0x30000, src := 0x30000, dst := 0x50000, lines, p })] } };
  withCore s (fun k => { k with resv := [(0, 7)] })

/-- The hypotheses of Pages: pointers outside global space, misaligned; 0, 1, 4,096 and 4,097 pages; an inbox of three and of four; a page with its
last line but one to copy; requests that have ended and not; a move by the memory manager; a sealed buffer that a thread waits for, with no
free frame for its page and with no page (R249, R307, R309, R373). -/
theorem witness_pages :
    (let t (p n : Word) := trapOf (.migr .hbm 1 5 6 7) (withG at0 [(6, p), (7, n)]);
      t 0x00F8_0000_0000_0000 1 = some { cause := 0x11 } ∧ t 0x30040 1 = some { cause := 0x10 } ∧ t 0x30000 0 = some { cause := 0x19 } ∧
      t 0x30000 4097 = some { cause := 0x19, tval := 4097 } ∧ t 0x30000 4096 = none ∧ t 0x00DF_FFFF_FFFF_0000 2 = some { cause := 0x19, tval := 2 }) ∧
    (let s (n : Nat) := withG (withCore at0 (fun k => { k with resv := List.replicate n (0, 1) })) [(6, 0x30000), (7, 1)];
      trapOf (.repl 5 6 7 3) (s 4) = some { cause := 0x21 } ∧ trapOf (.repl 5 6 7 3) (s 3) = none ∧ gAfter (.repl 5 6 7 3) (s 3) 5 = 2) ∧
    (let s := paging (fun q => { q with mig := some 1 }) 1 3;
      s.hub.pageReqs.length = 1 ∧ s.mem.wf = true ∧ 1 + 1 < 3 ∧ s.downExp 0x50040 = false ∧ (nextOf (exec .migrationLineCopy s)).mem.le 0x50040 8 = 0x55 ∧
      (let u := { s with hub := { s.hub with macBad := [0x30040 / 64] } };
        u.macFails 0x30040 = true ∧ (nextOf (exec .migrationLineCopy u)).poison.contains (0x50040 / 64) = true)) ∧
    { at0 with hub := { at0.hub with expDown := [0] } }.downExp expBase = true ∧
    ((paging id 0 3).hub.pageReqs.map (fun q => (q.repl, q.mig, q.ended, decide (q.handled < q.pages)))) = [(none, none, false, true)] ∧
    (let s := paging (fun q => { q with handled := 1 }) 0 3; (nextOf (exec .migrDone s)).cpu.inbox.map (·.w1) = [1]) ∧
    (let s := { paging (fun q => { q with handled := 1 }) 0 3 with cores := [] };
      (s.core 0).resv.contains (0, 7) = false ∧ (nextOf (exec .migrDone s)).hub.pageReqs = [] ∧ (nextOf (exec .migrDone s)).cpu.inbox = []) ∧
    (let s := paging (fun q => { q with repl := some 3, rejected := true }) 0 3;
      (s.core 0).resv.contains (0, 7) = true ∧ (nextOf (exec .replDone s)).hub.pageReqs = [] ∧
      (nextOf (exec .replDone s)).cpu.inbox.map (·.w0) = [0x0007_0704_0000_0000]) ∧
    (let s := paging (fun q => { q with handled := 1, repl := some 3 }) 0 3; (nextOf (exec .replDone s)).cpu.inbox.map (·.w1) = [1]) ∧
    ((paging (fun q => { q with repl := some 3 }) 0 3).hub.pageReqs.map (fun q => (q.rejected, q.ended, decide (q.handled < q.pages)))) =
      [(false, false, true)] ∧
    at0.hub.seqQ = [] ∧
    (nextOf (exec .sequencerWrite { at0 with hub := { at0.hub with seqQ := [{ core := 0, spa := 0x30000, data := [9] }] } })).mem.le 0x30000 1 = 9 ∧
    (let s := { at0 with ev := { at0.ev with v := 0x30000, o := 1 } }; regionOf (vaOf s.ev.v) = .glob ∧
      (nextOf (exec .memoryManagerMove s)).hub.pageReqs.length = 1) ∧
    regionOf (vaOf (0x00F8_0000_0000_0000 : Word)) ≠ .glob ∧
    (let s (fs : List Nat) := { waiting at0 (.sealed 5) with
        hub := { at0.hub with vtab := Map.put at0.hub.vtab 5 { kind := 2, owner := 1, frames := fs } }, ev := { at0.ev with k := 5 } };
      (s []).waitsSealed 5 = true ∧ at0.waitsSealed 5 = false ∧ ((s []).unseal 5).isSome = true ∧
      (Map.getD (s []).hub.vtab 5 {}).kind = 2 ∧
      (((s [expBase / 2 ^ 16]).setFrameKey expBase { vab := 3, vidx := 5 }).unseal 5).isNone = true) := by decide +kernel

/-- A copy of one half-byte pair in place, E2M1 to E2M1, and of four FP32 elements of which the second lies outside its tensor (R245). -/
def halves : CopyOp := { pc := 0, count := 0, st := .running, words := [0x00F8_0000_0000_0000, 0x00F8_0000_0000_0000, 0x0001_0001_0001_0002, 0, 0, 0, 0,
  0x0001_0001_0001_0002, 0, 0x88, 0, 0x203] }
/-- The hypotheses of what each element of a copy becomes: an element inside and one outside, a line under way and none, a half-byte pair,
lines that pass, fail their check and are poisoned, and a scratchpad line that is written. -/
theorem witness_copy_elements :
    (let p : CopyOp := { pc := 0, words := copyWords 0x11, count := 0, st := .running }; let r := p.layout;
      r.srcRow 0 = some (0x00F8_0000_0000_0000, 0) ∧ (r.dstPtr 1).1 = 0x00F8_0000_0000_0104 ∧
      (let o : Layout := { p with words := copyWords 0x11 |>.set 2 0x0001_0001_0001_0001 }.layout; o.srcRow 1 = none ∧ (o.srcRow 0).isSome = true) ∧
      (match spadded.copyUnit 0 p none with | .ok _ q a _ t => q.next == 0 && a == 0xF3F2F1F0 && t == .spad 0 0x100 | _ => false) = true ∧
      (match { p with words := copyWords 0x11 |>.set 0 0x00F8_3F00_0000_0000 } with
        | q => match spadded.copyUnit 0 q none with | .fail _ _ st _ _ => st == 2 | _ => false) = true ∧
      (match (withCore spadded (fun k => { k with spadPoison := [0] })).copyUnit 0 p none with | .fail _ _ st _ _ => st == 5 | _ => false) = true ∧
      (spadded.core 0).spad.wf = true) ∧
    (halves.layout.df.store = 4 ∧ (match spadded.copyUnit 0 halves none with | .ok _ _ a _ _ => a == 0xF0 | _ => false) = true) := by decide +kernel

/-- The block of R46's example. -/
def shaleBytes : List Byte := [0, 0x70, 0x1A, 4] ++ List.replicate 14 0 ++ [0xC0, 0x4D, 0, 0, 0, 0]
/-- A copy from the scratchpad's start to byte 0x100 of 32 Shale elements to FP32, at an element. -/
def shaleCopy (next : Nat) : CopyOp := { pc := 0, count := 0, st := .running, next := next, words := [0x00F8_0000_0000_0000, 0x00F8_0000_0000_0100,
  0x0001_0001_0001_0020, 0, 0, 0, 0, 0x0001_0001_0001_0020, 0, 0x1D, 0, 0x203] }
/-- What an element of a copy becomes. -/
def unitOf (s : State) (p : CopyOp) : Option Nat :=
  match s.copyUnit 0 p none with
  | .ok _ _ a _ _ => some a
  | _ => none
/-- Why it fails: the status, and whether a Shale block is malformed. -/
def failOf (s : State) (p : CopyOp) : Option (BitVec 8 × Bool) :=
  match s.copyUnit 0 p none with
  | .fail _ _ st _ sh => some (st, sh)
  | _ => none
/-- The hypotheses of Copies on a Shale source (R46, R245): the second element of R46's block (3.0) and its last, no byte of a block read yet,
a block whose header has a reserved bit. -/
theorem witness_copy_shale :
    (shaleCopy 0).layout.sf = .e4m3sh ∧ unitOf (at0.spadWrite 0 0 shaleBytes) (shaleCopy 1) = some 0x40400000 ∧
    unitOf (at0.spadWrite 0 0 shaleBytes) (shaleCopy 31) = some 0x3F800000 ∧
    failOf (at0.spadWrite 0 0 [1, 0x70]) (shaleCopy 1) = some (0, true) ∧
    decodeShale [] = .need ∧ decodeShale [1, 0x70] = .bad ∧
    (valueOf (at0.touch 0 [] 0x00F8_0000_0000_0000 false)).isSome = true ∧
    (valueOf (at0.engRead 0 (.spad 0 0) 2)).map (·.2) = some false := by decide +kernel

/-- A copy of two FP32 elements of which the second lies past the scratchpad's end. -/
def edge : CopyOp := { pc := 0, count := 0, st := .running, words := [0x00F8_0000_0003_FFFC, 0x00F8_0000_0000_0100, 0x0001_0001_0001_0002, 0, 0,
  0, 0, 0x0001_0001_0001_0002, 0, 0x11, 0, 0x203] }
/-- A copy with two FP32 elements gathered for a line of another device's memory. -/
def farLine : CopyOp :=
  { pc := 0, count := 0, st := .running, next := 2
    dstLines := [(0x10000000, .glob 0x10000000 0 (2 ^ 45))]
    words := [0x00F8_0000_0000_0000, 0x10000000, 0x0001_0001_0001_0004, 0, 0, 0, 0, 0x0001_0001_0001_0004, 0, 0x11, 0, 0x203]
    buf := (List.range 8).map (fun i => (i, 0)) }
/-- The hypotheses of Copies on failures (R246, R247, R401): the element after one that gathered fails; the line under way is out of reach;
the end of a failed copy without an entry and with one. -/
theorem witness_copy_fails :
    (valueOf (at0.copyRun 0 0x00F8_0000_0000_0100 128 edge)).map (fun q => (q.st == .failed, q.status, q.failPtr, q.next, q.buf.length)) =
      some (true, 2, 0x00F8_0000_0004_0000, 1, 0) ∧
    (farLine.dstLine (farLine.layout.dstPtr 1).1).isSome = true ∧ at0.targetUp 0 (at0.retarget (.glob 0x10000000 0 (2 ^ 45))) = false ∧
    (valueOf (at0.flushCopy 0 farLine)).map (fun q => (q.next, q.buf)) = some (0, []) ∧
    (let s (w11 : Word) := withCore at0 (fun k => { k with
        resv := [(0, 0x10000)], cps := [(0, { edge with words := edge.words.set 11 w11, st := .failed, status := 2, failPtr := 8, next := 1 })] });
      ((s 0x203).copyAt 0 0).bind (·.ending) = some .failed ∧ (s 0x203).th.live = true ∧ (s 0x203).th.wait = .none ∧
      (nextOf (exec .copyEnd (s 0x203))).th.reports = [{ cause := 0x214, taddr := 8, tval := 0 }] ∧
      (nextOf (exec .copyEnd (s 0x303))).th.reports = [] ∧ (nextOf (exec .copyEnd (s 0x303))).cpu.inbox.map (·.w1) = [4]) := by decide +kernel

/-! ### The matrix engine and the orthogonal accumulator -/

/-- Core 0 with k0 a 1 × 2 INT8 tile holding 3 and −2, k1 a 2 × 1 one holding 5 and 7, a0 a 1 × 1 INT32 accumulator, q0 of N = 1, KCAP = 1 with
FP32 elements, k2 a 1 × 1 FP32 tile, k3 a 1 × 32 tile of decoded E4M3 bytes (R252, R253, R262, R273). -/
def tiled (s : State) : State :=
  withCore s (fun k => { k with
    tiles := [(0, { cfg := 0x80090201, data := memOf [3, 0xFE] }), (1, { cfg := 0x80090102, data := memOf [5, 7] }),
      (2, { cfg := 0x80010101 }), (3, { cfg := 0x800D2001 })]
    accs := [(0, { shape := 0x80020101 })], qs := [(0, { st := 0x80030101 })] })

/-- The configurations of tiled. -/
def cfgs : MxCfg := ((tiled windowed).core 0).projected 0

/-- The hypotheses of MatrixIssue on configurations: the largest and the first too large; each operation on registers not configured; an MMA
that fits and ones that do not, and a column at its end and past it, with room and without (R253, R262 to R264, R274, R278). -/
theorem witness_matrix_checks :
    cfgs.check (.tcfg 0 0x00094040) = none ∧ cfgs.check (.tcfg 0 0x00094140) = some { cause := 0x30, tval := 0x00094140 } ∧
    cfgs.check (.tcfg 0 0x00090141) = some { cause := 0x30, tval := 0x00090141 } ∧ cfgs.check (.tcfg 0 0x000E0101) = some { cause := 0x30, tval := 0x000E0101 } ∧
    cfgs.check (.acz 0 0x00014040) = none ∧ cfgs.check (.acz 0 0x00014140) = some { cause := 0x30, tval := 0x00014140 } ∧
    cfgs.check (.qcfg 0 0x2040) = none ∧ cfgs.check (.qcfg 0 0x2140) = some { cause := 0x30, tval := 0x2140 } ∧
    (cfgs.tile 9).getLsbD 31 = false ∧ (cfgs.acc 3).getLsbD 31 = false ∧ (cfgs.orth 1).getLsbD 31 = false ∧
    cfgs.check (.tld 9 0 0) = some { cause := 0x30, tval := 9 } ∧ cfgs.check (.acst 3 0 0) = some { cause := 0x30, tval := 19 } ∧
    cfgs.check (.qz 1) = some { cause := 0x30, tval := 33 } ∧
    cfgs.check (.mma false false .rne 0 0 1) = none ∧ cfgs.check (.mma true false .rne 0 0 1) = some { cause := 0x31 } ∧
    cfgs.check (.qapp .rne 0 2 0 0) = none ∧ cfgs.check (.qapp .rne 0 2 0 1) = some { cause := 0x31 } ∧
    cfgs.check (.qapp .rne 0 9 0 0) = some { cause := 0x30, tval := 9 } ∧ cfgs.check (.qapl false .rne 0 1) = some { cause := 0x30, tval := 33 } ∧
    cfgs.check (.qapr true .rne 3 1) = some { cause := 0x30, tval := 19 } ∧
    (let m := { cfgs with qs := [(0, 0x81030101)] }; m.check (.qapp .rne 0 2 0 0) = some { cause := 0x33, tval := 0x81030101 }) ∧
    (let m := { cfgs with qs := [(0, 0x81010101)] }; m.check (.qapp .rne 0 2 0 0) = none) := by decide +kernel
/-- The hypotheses of MatrixIssue on an issue: refused, misaligned, no memory, rows whose check passes and fails, a queue of one and of two; ACCV with
a prefix that it admits and with none. -/
theorem witness_matrix_issue :
    (let s := withG (tiled windowed) [(6, 0x00F8_0000_0000_0000), (7, 64)];
      trapOf (.tst 9 6 7) s = some { cause := 0x30, tval := 9 } ∧ trapOf (.tst 0 6 8) (withG s [(6, 0x00F8_0000_0000_0001)]) = none ∧
      (cfgs.checkAlign (.tst 2 0x00F8_0000_0000_0002 0)).map (·.cause) = some 0x10 ∧
      (cfgs.rows (.tz 0)).isNone = true ∧ (nextOf (exec (.tz 0) s)).th.queue.length = 1 ∧
      (nextOf (exec (.tz 0) (s.setTh { s.th with queue := [.vec { pc := 0 }, .vec { pc := 0 }] }))).th.wait = .queueFull ∧
      (let k : MatKind := .tst 2 0x00F8_0000_0000_0000 64; let r := (cfgs.rows k).map (fun r => s.checkRows 0 r k.rowNo);
        cfgs.check k = none ∧ cfgs.checkAlign k = none ∧ (r.bind valueOf).isSome = true ∧
        (r.map (fun r => (stateOf r).linesReady 0 ((valueOf r).getD []))) = some none) ∧
      (let k : MatKind := .tst 2 0x00F8_3F00_0000_0000 64; (((cfgs.rows k).map (fun r => s.checkRows 0 r k.rowNo)).bind trapIn).isSome = true) ∧
      s.th.pp = false ∧ (prefixed s .fp32 .fp32 .bf16).th.pp = true ∧ ruleAccv.admits (prefixed s .fp64 .fp64 .bf16).th.pf = true) := by decide +kernel
/-- The hypotheses of MatrixEngine: registers busy and not; TLDK's tile ready and not, its pointer odd; an image that is sound and one that is
not; the engine idle and not; heads not begun, refused, misaligned, poisoned, and begun (R254, R260, R266 to R269, R287, R357). -/
theorem witness_matrix_engine :
    (let s := withG (tiled spadded) [(7, 0x00F8_0000_0000_0001), (8, 0x00F8_0000_0000_0040)];
      let op (f : MatOp → MatOp) (kind : MatKind) : State :=
        { withCore s (fun k => { k with mx := [(0, f { pc := 8, kind })] }) with ev := s.ev };
      s.cpu.regBusy 0 (.tile 0) = false ∧ (op id (.tz 0)).cpu.regBusy 0 (.tile 0) = true ∧ gAfter (.trdc 5 (.tile 0)) s 5 = 0x80090201 ∧
      gAfter (.qrd 5 0) s 5 = 0x80030101 ∧ (op id (.qz 0)).cpu.regBusy 0 (.orth 0) = true ∧
      trapOf (.tldk 5 0 6) s = some { cause := 0x30 } ∧ trapOf (.tldk 5 3 7) s = some { cause := 0x10, taddr := 0x00F8_0000_0000_0001 } ∧
      (valueOf (s.stepShales 1 0x00F8_0000_0000_0040 [])).isSome = true ∧
      trapOf (.qld 0 7) s = some { cause := 0x10 } ∧
      (let u := s.spadWrite 0 64 (leBytes 8 0x80030101 ++ leBytes 8 1);
        (valueOf (u.stepRead 0x00F8_0000_0000_0040 64)).isSome = true ∧
        imageBad 0x80030101 1 (List.replicate 48 0) = false ∧ trapOf (.qld 0 8) u = none ∧
        (valueOf (u.stepLines ((orthSize 0x80030101 + 63) / 64 - 1) 0x00F8_0000_0000_0080 (List.replicate 64 0))).isSome = true) ∧
      imageBad 0 0 [] = true ∧ trapOf (.qld 0 8) s = some { cause := 0x30 } ∧
      s.cpu.matOps 0 = [] ∧ (op id (.tz 0)).cpu.matOps 0 ≠ [] ∧ (nextOf (exec .msync (op id (.tz 0)))).th.wait = .msync ∧
      (nextOf (exec .msyncComplete (waiting s .msync))).th.wait = .msyncOk ∧
      (nextOf (exec .matrixService (op id (.tz 9)))).th.reports = [{ cause := 0x230, taddr := 0, tval := 8, mat := true }] ∧
      (nextOf (exec .matrixService (op id (.tst 2 0x00F8_0000_0000_0002 0)))).th.reports =
        [{ cause := 0x210, taddr := 0x00F8_0000_0000_0002, tval := 8, mat := true }] ∧
      (let u := op id (.accv .rne false 0 0 none); let p := withCore u (fun k => { k with accs := [(0, { shape := 0x80010101, poison := true })] });
        (nextOf (exec .matrixService p)).th.reports = [{ cause := 0x216, taddr := 0, tval := 8, mat := true }]) ∧
      ((nextOf (exec .matrixService (op id (.tz 0)))).cpu.mx.map (·.2.begun)) = [true] ∧
      (let u := op (fun o => { o with begun := true }) (.mma false false .rne 0 0 1);
        (valueOf (u.performMat 0 0 { pc := 8, kind := .mma false false .rne 0 0 1, begun := true })).isSome = true ∧
        (let w := nextOf (exec .matrixOpComplete u); w.cpu.mx.length = 0 ∧ elemAt (w.cpu.acc 0).data .int32 0 = 1))) := by decide +kernel
/-- The hypotheses of MatrixEffects: no column folded, the last scale of the side band. -/
theorem witness_matrix_effects : orthK (((tiled at0).core 0).orth 0).st = 0 ∧ 63 < 64 ∧
    elemAt (memOf (List.replicate 256 0x7F)) .uint8 63 = 0x7F ∧ (wrapSum 0xFFFFFFFF [(1, 1)]) = 0 := by decide +kernel

/-- A state whose scratchpad holds, at 64, an image of q0's size of zeros after its header; zeros at 0x400 are a Shale block of 22 bytes. -/
def loadable : State :=
  withG ((tiled at0).spadWrite 0 64 (leBytes 8 0x80030101 ++ leBytes 8 1)) [(8, 0x00F8_0000_0000_0040), (9, 0x00F8_0000_0000_0400)]
/-- The hypotheses of MatrixEngine on TLDK and QLD that complete (R260, R287): registers free, every pointer in the scratchpad, a block
that its last halfword ends, an image with a good header. -/
theorem witness_step_loads :
    loadable.cpu.regHeld 0 (.tile 3) = false ∧ (loadable.cpu.tile 3).cfg.getLsbD 31 = true ∧ tileFmt (loadable.cpu.tile 3).cfg = .e4m3sh ∧
    cfgRows (loadable.cpu.tile 3).cfg * (cfgCols (loadable.cpu.tile 3).cfg / 32) = 1 ∧ 22 ≤ 46 ∧ loadable.spadTarget 0 0x00F8_0000_0000_0414 = some (0, 0x414) ∧
    (List.range 11).all (fun j => decodeShale ((loadable.core 0).spad.bytes 0x400 (2 * j)) == .need) = true ∧
    (match decodeShale ((loadable.core 0).spad.bytes 0x400 22) with | .ok _ n => n == 22 | _ => false) = true ∧
    gAfter (.tldk 5 3 9) loadable 5 = 22 ∧
    loadable.cpu.regHeld 0 (.orth 0) = false ∧
    (let h := (loadable.core 0).spad.bytes 64 64; imageBad (zext (h.take 8)) (zext ((h.drop 8).take 8)) (h.drop 16) = false) ∧
    ((orthSize 0x80030101 + 63) / 64) = 2 ∧ loadable.spadTarget 0 0x00F8_0000_0000_0080 = some (0, 64 + 64) ∧ (loadable.core 0).spadPoison = [] ∧
    trapOf (.qld 0 8) loadable = none := by decide +kernel
/-- The hypotheses of MatrixIssue on rows in scratchpads, of MatrixEngine on a thread that holds a report, and on a register that another
slot's operation has begun with. -/
theorem witness_matrix_more :
    (let k : MatKind := .tst 2 0x00F8_0000_0000_0000 64;
      (cfgs.rows k).map (fun r => (r.n, (r.row 0).map (·.1))) = some (1, [0x00F8_0000_0000_0000])) ∧
    (let s (mat : Bool) := waiting (at0.setTh { at0.th with reports := [{ cause := 0x216, mat }] }) .msync;
      (nextOf (exec .msyncComplete (s true))).th.wait = .msync ∧ (nextOf (exec .msyncComplete (s false))).th.wait = .msyncOk) ∧
    (let s := withCore (tiled at0) (fun k => { k with mx := [(1, { pc := 8, kind := .qz 0, begun := true })] });
      s.cpu.regBusy 0 (.orth 0) = false ∧ s.cpu.regHeld 0 (.orth 0) = true ∧ (nextOf (exec (.qld 0 8) s)).th.wait = .queueFull) := by decide +kernel
/-- The hypotheses of MatrixEffects: products and columns that pass their checks, a register with one column folded and one that is full,
rows of the accesses, a group with a zero times an infinity and one of numbers. -/
theorem witness_matrix_hypotheses :
    (let K := (tiled at0).core 0; K.mxCfg.check (.mma false false .rne 0 0 1) = none ∧ K.mxCfg.check (.accv .rne false 0 0 (some .fp32)) = none ∧
      K.mxCfg.check (.qapp .rne 0 2 0 0) = none ∧
      (K.mxCfg.rows (.tld 2 0 0)).isSome = true ∧ (K.mxCfg.rows (.tscl 2 0 0)).isSome = true ∧ (K.mxCfg.rows (.acld 0 0 0)).isSome = true ∧
      (K.mxCfg.rows (.acst 0 0 0)).isSome = true ∧ (K.mxCfg.rows (.qst 0 0)).isSome = true ∧ (K.mxCfg.rows (.qform .rne 0 0 0)).isSome = true ∧
      orthN (K.orth 0).st = 1 ∧ orthCap (K.orth 0).st = 1 ∧ (K.orth 0).st.getLsbD 31 = true ∧ orthK 0x81010101 = 1) ∧
    (let K := withCore (tiled at0) (fun k => { k with accs := [(0, { shape := 0x80010101 })], qs := [(0, { st := 0x81010101 })] }) |>.core 0;
      K.mxCfg.check (.qapl false .rne 0 0) = none ∧ K.mxCfg.check (.qapr true .rne 0 0) = none) ∧
    (groupSum false [(.num { m := 0 }, .inf false)]).2 = true ∧ (groupSum false [(.inf true, .num { m := 2 })]).1 = .inf true ∧
    groupSum false [(.num { m := 2 }, .num { m := 3, e := 1 })] = (.num { m := 6, e := 1 }, false) ∧
    groupSum true [(.num { m := 2 }, .num { m := 3, e := 1 })] = (.nan false false, false) ∧
    groupSum true [(.num { m := 0 }, .inf false)] = (.nan false false, true) ∧ scaled .e4m3 0x38 255 = .num { m := 8, e := 125 } ∧
    scaled .e4m3 0x38 128 = .num { m := 8, e := -2 } := by decide +kernel

/-- A core state with one matrix operation of slot 0 accepted. -/
def serving (s : State) (f : MatOp → MatOp) (kind : MatKind) : State :=
  { withCore (tiled s) (fun k => { k with mx := [(0, f { pc := 8, kind })] }) with ev := s.ev }
/-- Function 0's dirty log of one entry, full. -/
def throttling (s : State) : State := { s with fns := Map.put s.fns 0 { s.fnc 0 with dlProd := 1 } }
/-- A core whose L1 holds 1,024 lines of a page that is not mapped, all dirty. -/
def fullL1 (s : State) : State :=
  withCore s (fun k => { k with l1 := (List.range 1024).map (fun i =>
    ({ va := 0x10000000 + 64 * (1023 - i), b := 0, dirty := true, slot := 0, ptr := 0x10000000, pc := 0 } : L1Byte)) })

/-- The hypotheses of MatrixIssue on rows whose lines are checked: what withholds the write, and a full queue. -/
theorem witness_matrix_issue_rows :
    (let k : MatKind := .tst 2 0x3000 64;
      let s := withG (tiled spadded) [(6, 0x3000), (7, 64)];
      let r (u : State) := (cfgs.rows k).map (fun r => u.checkRows 0 r k.rowNo);
      (r (throttling s)).map (fun r => (stateOf r).linesReady 0 ((valueOf r).getD [])) = some (some .dirtyLog) ∧
      (nextOf (exec (.tst 2 6 7) (throttling s))).th.wait = .dirtyLog ∧
      (let u := s.setTh { s.th with queue := [.vec { pc := 0 }, .vec { pc := 0 }] };
        (r u).bind valueOf |>.isSome) = true ∧
      (nextOf (exec (.tst 2 6 7) (s.setTh { s.th with queue := [.vec { pc := 0 }, .vec { pc := 0 }] }))).th.wait = .queueFull) := by decide +kernel
/-- The hypotheses of MatrixEngine on service: rows whose line passes, is not mapped and fails; an operation that was rejected; lines that are
covered and not. -/
theorem witness_matrix_service :
    (let k (p : Word) : MatKind := .tst 2 p 64;
      let s (p : Word) := serving at0 id (k p);
      (s 0).cpu.mxCfg.check (k 0) = none ∧ (k 0).reads.any (s 0).cpu.regPoison = false ∧
      ((s 0).cpu.mxCfg.rows (k 0x3000)).map (·.lines) = some [0x3000]) ∧
    ((nextOf (exec .matrixService (serving at0 id (.tst 2 0x3000 64)))).cpu.mx.map (fun e => (e.2.begun, e.2.lines.length))) = [(true, 1)] ∧
    ((nextOf (exec .matrixService (serving at0 id (.tst 2 0x10000000 64)))).cpu.mx.map (fun e => (e.2.waitPage, e.2.failPtr))) =
      [(some 0x1000, 0x10000000)] ∧
    (nextOf (exec .matrixService (serving at0 id (.tst 2 0x0100_0000_0010_0000 64)))).th.reports =
      [{ cause := 0x215, taddr := 0x0100_0000_0010_0000, tval := 8, mat := true }] ∧
    (nextOf (exec .matrixService (serving at0 (fun o => { o with rejected := true, failPtr := 0x3000 }) (.tst 2 0x3000 64)))).th.reports =
      [{ cause := 0x213, taddr := 0x3000, tval := 8, mat := true }] ∧
    (valueOf (at0.coverLines 0 true [0x3000] [(0x3000, .spad 0 0)])).map (·.length) = some 1 ∧
    (valueOf (at0.coverLines 0 true [0x3000] [])).map (·.length) = some 1 := by decide +kernel
/-- The hypotheses of MatrixEngine on what TLDK and QLD read: two blocks of 22 bytes, a page that is not mapped, a block past the scratchpad's
end; an image's first line and its next one, each not mapped and past the end. -/
theorem witness_step_reads :
    (let s := withG (withCore (tiled at0) (fun k => { k with tiles := Map.put k.tiles 3 { cfg := 0x800D4001 } }))
        [(8, 0x00F8_0000_0003_FFFE), (9, 0x00F8_0000_0000_0400), (10, 0x10000000)];
      let faults (o : Out) : Option Word := match (nextOf o).th.wait with
        | .fault p _ _ => some p
        | _ => none;
      gAfter (.tldk 5 3 9) s 5 = 44 ∧ trapOf (.tldk 5 3 8) s = some { cause := 0x12, taddr := 0x00F8_0000_0004_0000, tval := 1 } ∧
      faults (exec (.tldk 5 3 10) s) = some 0x10000000 ∧ faults (exec (.qld 0 10) s) = some 0x10000000 ∧
      trapOf (.qld 0 9) (withG s [(9, 0x00F8_0000_0004_0000)]) = some { cause := 0x12, taddr := 0x00F8_0000_0004_0000, tval := 1 } ∧
      trapOf (.qld 0 9) (withG (s.spadWrite 0 0x3FFC0 (leBytes 8 0x80030101 ++ leBytes 8 1)) [(9, 0x00F8_0000_0003_FFC0)]) =
        some { cause := 0x12, taddr := 0x00F8_0000_0004_0000, tval := 1 } ∧
      faults (exec (.qld 0 9) (withG { s with mem := s.mem.setLe 0x0FFFFFC0 16 (0x80030101 + 2 ^ 64) } [(9, 0x0FFFFFC0)])) = some 0x10000000) := by
  decide +kernel
/-- The hypotheses of MatrixEffects on stores: an element already written, one that is, and one that waits for a line of a full L1. -/
theorem witness_matrix_stores :
    (let o : MatOp := { pc := 8, kind := .tst 2 0x3000 64, written := 1 };
      (0 : Nat) < o.written ∧ o.written ≤ 1 ∧
      (valueOf (at0.store 0 0 (.glob 0x3004 0 0x3004) [1, 2, 3, 4] 0x3004 8)) = some () ∧
      (waitIn ((fullL1 at0).store 0 0 (.glob 0x3004 0 0x3004) [1, 2, 3, 4] 0x3004 8)) = some .flush ∧
      (at0.th.markReports { at0.th with reports := [{ cause := 0x216 }] }).reports = [{ cause := 0x216, mat := true }]) ∧
    (let o : MatOp := { pc := 8, kind := .tst 2 0x3000 64, begun := true, lines := [(0x3000, .glob 0x3000 0 0x3000)] };
      let s := fullL1 (serving at0 (fun _ => o) o.kind);
      s.cpu.mx.length = 1 ∧ waitIn (s.performMat 0 0 o) = some .flush ∧ (nextOf (exec .matrixOpComplete s)).cpu.mx.length = 1) := by decide +kernel

/-- The codes of R46's example. -/
def exampleCode (j : Nat) : List Bool :=
  if j = 1 then [true, false] else if j = 3 then [true, true, false] else if j = 4 then [true, true, true, false, false, false, false] else [false]
/-- The bits of a halfword or a field, the highest first. -/
def highBits (k x : Nat) : List Bool := (List.range k).map (fun i => x / 2 ^ (k - 1 - i) % 2 == 1)
/-- The bits of a block's bytes as they stand in its stream (R44). -/
def streamBits (bs : List Byte) : List Bool :=
  (List.range (bs.length / 2)).flatMap (fun i => highBits 16 ((bs.getD (2 * i) 0).toNat + 256 * (bs.getD (2 * i + 1) 0).toNat))
/-- The hypotheses of MatrixEngine on Shale blocks: R46's example, part by part, and what it decodes to; a reserved bit; an exponent of 16; a
padding bit that is set. -/
theorem witness_shale_block :
    (let sm (j : Nat) : Nat := ([0, 4, 1, 10] : List Nat).getD j 0;
      let es (j : Nat) : Nat := ([7, 8, 7, 6, 0] : List Nat).getD j 7;
      let part (b : Nat) : List Bool := highBits 4 b ++ highBits 2 0 ++ highBits 10 0 ++ (List.range 32).flatMap (fun j => highBits 4 (sm j));
      let codes := (List.range 32).flatMap exampleCode;
      streamBits shaleBytes = part 7 ++ codes ++ List.replicate 7 false ∧ (16 - (part 7 ++ codes).length % 16) % 16 = 7 ∧
      exampleCode 4 = [true, true, true] ++ highBits 4 (es 4) ∧ ((es 1 : Int), (es 3 : Int)) = (7 + 1, 7 + -1) ∧
      decodeShale shaleBytes = .ok ((List.range 32).map (fun j => sm j / 8 * 2 ^ 7 + es j * 2 ^ 3 + sm j % 8)) 24 ∧
      decodeShale ([1, 0x70] ++ shaleBytes.drop 2) = .bad ∧
      (let bad := [0, 0xF0] ++ shaleBytes.drop 2;
        streamBits bad = part 15 ++ exampleCode 0 ++ exampleCode 1 ++ (streamBits bad).drop 147 ∧ decodeShale bad = .bad) ∧
      (let bad := shaleBytes.take 22 ++ [1, 0];
        streamBits bad = part 7 ++ codes ++ [false, false, false, false, false, false, true] ∧ decodeShale bad = .bad)) := by decide +kernel
/-- The hypotheses of MatrixEngine on images: a good header with and without E, at the least sizes (R285, R287). -/
theorem witness_orth_image :
    (let bs := List.replicate 64 0 ++ leBytes 4 5 ++ leBytes 4 6 ++ leBytes 4 7;
      let r := orthOfImage 0x81050101 bs; let u := orthOfImage 0x81030101 bs;
      imageBad 0x81050101 1 (List.replicate 48 0) = false ∧ imageBad 0x81030101 1 (List.replicate 48 0) = false ∧
      (orthSize 0x81050101, orthSize 0x81030101) = (76, 72) ∧ (elemAt r.y .fp32 0, elemAt r.t .fp32 0, elemAt r.e .fp32 0) = (5, 6, 7) ∧ u.e = []) := by
  decide +kernel

/-! ### Cordwain's commands -/

/-- A command of a function at the head of Cordwain's order, its request's fields by offset, length and value (R392, R407). -/
def sentBy (fn : Nat) (op : BitVec 8) (req : List (Nat × Nat × Nat)) (s : State) : State :=
  { s with
    fns := Map.put s.fns fn { s.fnc fn with cmdOp := op, busy := true, req := req.foldl (fun m e => m.setLe e.1 e.2.1 e.2.2) [] }
    hub := { s.hub with cmdQ := [fn] }, ev := { s.ev with fn, c := 0 } }

/-- A command of function 1. -/
def sent : BitVec 8 → List (Nat × Nat × Nat) → State → State := sentBy 1

/-- at0 with owner 1's context in function 1, which has clusters 0 and 1. -/
def owned (k : Ctx → Ctx) : State :=
  { at0 with
    ctxs := Map.put at0.ctxs 1 (k { placeCtx with fn := 1, cap := 64 })
    fns := [(1, { cfg := Mem.setLe [] 0 4 3 })]
    mem := at0.mem.setLe 0x4000 64 (record 12 0) }

/-- The status with which a command completes, or none while it stays under way (R392). -/
def status (i : Instr) (s : State) : Option Nat :=
  let f := (nextOf (exec i s)).fnc s.ev.fn;
  if f.busy then none else some f.stStatus.toNat

/-- owned with function 1's interface and session. -/
def attested (k : Ctx → Ctx) (t : Tdisp) (sess : Option Nat) : State :=
  let s := owned k;
  s.setFn 1 { s.fnc 1 with tdisp := t, spdm := { session := sess } }

/-- The hypotheses of ContextCommands on taking a command, IDENTIFY, ATTEST and CTX_CREATE: another command, reserved bytes, a context that is
not the function's; each of CTX_CREATE's refusals and both of its successes (R364 to R368, R383). -/
theorem witness_ctx_create :
    (nextOf (exec .identify (sent 2 [] (owned id)))).hub.cmdQ = [1] ∧ status .attest (sent 2 [(34, 1, 0)] (owned id)) = some 5 ∧
    status .identify (sent 1 [] (owned id)) = some 0 ∧ status .attest (sent 2 [(32, 2, 1)] (owned id)) = some 0 ∧
    status .ctxCreate (sent 3 [(1, 1, 9)] (owned id)) = some 2 ∧
    (let create (mask flags cap : Nat) := sent 3 [(8, 8, mask), (16, 8, flags), (32, 1, cap)];
      status .ctxCreate (create 2 0 21 (owned id)) = some 2 ∧ status .ctxCreate (create 4 0 20 (owned id)) = some 2 ∧
      status .ctxCreate (create 1 0 6 (owned id)) = some 4 ∧ status .ctxCreate (create 2 1 6 (owned id)) = some 3 ∧
      status .ctxCreate (create 2 0 6 (owned id)) = some 0 ∧ (owned id).freeOwner = some 2 ∧
      ((nextOf (exec .ctxCreate (create 2 0 20 (owned id)))).core 48).owner = 2 ∧
      (let s := attested id .locked none; status .ctxCreate (create 2 1 6 s) = some 0 ∧ s.freeKeySlot.isSome = true ∧ s.freeEntry.isSome = true)) := by decide +kernel
/-- n contexts, without clusters, that hold owner numbers and key slots 1 to n. -/
def crowd (n : Nat) : Map Ctx := (List.range n).map (fun i => (i + 1, { keySlot := i + 1 }))

theorem find?_crowd {n i : Nat} (h : i < n) : (Map.find? (crowd n) (i + 1)).isSome = true := by
  have hm : ∀ (m : Map Ctx) (v : Ctx), (i + 1, v) ∈ m → (Map.find? m (i + 1)).isSome = true := by
    intro m v hv
    induction m with
    | nil => simp at hv
    | cons e t ih =>
      obtain ⟨k, x⟩ := e
      simp only [Map.find?]
      split
      · rfl
      · next hk =>
        rcases List.mem_cons.mp hv with he | ht
        · simp_all
        · exact ih ht
  exact hm _ { keySlot := i + 1 } (List.mem_map.mpr ⟨i, by simpa using h, rfl⟩)

theorem find?_owner (n : Nat) : ((List.range n).map (· + 1)).find? (fun o => (Map.find? (crowd n) o).isNone) = none := by
  simp only [List.find?_eq_none, List.mem_map, List.mem_range]
  rintro o ⟨i, hi, rfl⟩
  have := find?_crowd hi
  cases h : Map.find? (crowd n) (i + 1) <;> simp_all

theorem find?_slot (n : Nat) : ((List.range n).map (· + 1)).find? (fun i => !(crowd n).any (fun k => k.2.keySlot == i)) = none := by
  simp only [List.find?_eq_none, List.mem_map, List.mem_range]
  rintro o ⟨i, hi, rfl⟩
  simp only [Bool.not_eq_true', Bool.not_eq_false, List.any_eq_true]
  exact ⟨(i + 1, { keySlot := i + 1 }), List.mem_map.mpr ⟨i, by simpa using hi, rfl⟩, by simp⟩

theorem held_crowd (s : State) (n : Nat) (h : s.ctxs = crowd n) : s.heldClusters = 0 := by
  have any : ∀ i, s.ctxs.any (fun k => k.2.tab.any (fun e => e.2 == i)) = false := by
    intro i
    rw [h, List.any_eq_false]
    intro k hk
    obtain ⟨j, -, rfl⟩ := List.mem_map.mp hk
    simp
  have fold : ∀ l : List Nat, l.foldl (fun a i => if s.ctxs.any (fun k => k.2.tab.any (fun e => e.2 == i)) then a + 2 ^ i else a) 0 = 0 := by
    intro l
    induction l with
    | nil => rfl
    | cons i l ih => rw [List.foldl_cons, any i]; exact ih
  exact fold _

theorem crowded (m : Map Ctx) : ∃ s : State, s.ctxs = m := ⟨{ at0 with ctxs := m }, rfl⟩

/-- CTX_CREATE's FULL (R364, R368): every owner number taken, and every key slot. -/
theorem witness_ctx_create_full :
    (∃ s : State, s.freeOwner = none ∧ 2 &&& s.heldClusters = 0) ∧ (∃ s : State, s.freeKeySlot = none ∧ 2 &&& s.heldClusters = 0) := by
  constructor
  · obtain ⟨s, h⟩ := crowded (crowd 65535)
    refine ⟨s, ?_, by rw [held_crowd s _ h]; rfl⟩
    unfold State.freeOwner
    rw [h]; exact find?_owner _
  · obtain ⟨s, h⟩ := crowded (crowd 1023)
    refine ⟨s, ?_, by rw [held_crowd s _ h]; rfl⟩
    unfold State.freeKeySlot
    rw [h]; exact find?_slot _

/-- The state after a command of function 1. -/
def after (i : Instr) (s : State) : State := nextOf (exec i s)

/-- CTX_CREATE SUB 1 and SUB 2 (R408): no context; a base that is not a multiple of 64, a full table, an entry installed; a grant id that
names no root entry, and one that does, whose removal waits for the security unit and is not asked for twice. -/
theorem witness_ctx_create_root :
    (let add (o p n : Nat) := sent 3 [(0, 1, 1), (8, 2, o), (16, 8, p), (24, 8, n), (32, 1, 15)];
      status .ctxCreateRootEntry (add 2 0x4000_0000 1 (owned id)) = some 5 ∧ status .ctxCreateRootEntry (add 1 0x4000_0001 1 (owned id)) = some 2 ∧
      status .ctxCreateRootEntry (add 1 0x4000_0000 1 (owned (fun k => { k with cap := 0 }))) = some 13 ∧
      status .ctxCreateRootEntry (add 1 0x4000_0000 1 (owned (fun k => { k with rights := [] }))) = some 0) ∧
    (let remove (o g : Nat) := sent 3 [(0, 1, 2), (8, 2, o), (16, 8, g)];
      status .ctxCreateRemoveRoot (remove 2 7 (owned id)) = some 5 ∧ status .ctxCreateRemoveRoot (remove 1 99 (owned id)) = some 2 ∧
      (let s := owned (fun k => { k with rights := [{ base := 0, len := 64, age := 0, rights := 15, gid := 7 }] });
        status .ctxCreateRemoveRoot (remove 1 7 s) = none ∧ (after .ctxCreateRemoveRoot (remove 1 7 s)).hub.secQ.length = 1 ∧
        (let s := { s with hub := { s.hub with secQ := [{ kind := .removeRoot 7 (some 1), owner := 1 }] } };
          status .ctxCreateRemoveRoot (remove 1 7 s) = some 2))) := by decide +kernel

/-- CTX_DESTROY (R367): no context, one that is being saved, one whose destruction waits already, and one that runs or is saved. -/
theorem witness_ctx_destroy :
    (let destroy (o : Nat) := sent 4 [(8, 2, o)];
     let ctx (v : SaveState) := owned (fun k => { k with tab := [], save := v });
      status .ctxDestroy (destroy 2 (ctx .running)) = some 5 ∧ status .ctxDestroy (destroy 1 (ctx .grace)) = none ∧
      ((after .ctxDestroy (destroy 1 (ctx .draining))).ctx 1).destroyWaits = [1] ∧
      ((after .ctxDestroy (destroy 1 (owned (fun k => { k with tab := [], save := .draining, destroyWaits := [2] })))).ctx 1).destroyWaits = [2, 1] ∧
      ((after .ctxDestroy (destroy 1 (ctx .running))).ctx 1).save = .gone ∧
      (after .ctxDestroy (destroy 1 (ctx .saved))).hub.cuts.length = 1) := by decide +kernel

/-- JOB_START (R408): a bad scheduling word, no context, a job that runs, a protected context outside RUN, a bad record, a launch that
enters, in a grace period too (R339). -/
theorem witness_job_start :
    (let start (o p w : Nat) := sent 5 [(8, 2, o), (16, 8, p), (24, 8, w)];
     let one (f : Ctx → Ctx) : State := owned (fun k => f { k with tab := [(0, 0)] });
      status .jobStart (start 1 0x4000 1 (one id)) = some 2 ∧ status .jobStart (start 2 0x4000 0 (one id)) = some 5 ∧
      status .jobStart (start 1 0x4000 0 (one (fun k => { k with job := some { sched := 0, root := 1 } }))) = some 4 ∧
      status .jobStart (start 1 0x4000 0 (one (fun k => { k with prot := true }))) = some 3 ∧
      status .jobStart (start 1 0x4001 0 (one id)) = some 2 ∧ status .jobStart (start 1 0x4000 0 (one id)) = some 0 ∧
      status .jobStart (start 1 0x4000 0 (one (fun k => { k with save := .grace }))) = some 0 ∧
      (after .jobStart (start 1 0x4000 0 (one id))).launches.length = 1 ∧
      ((attested (fun k => { k with prot := true }) .run (some 1)).fnc 1).spdm.session = some 1) := by decide +kernel

/-- JOB_CANCEL (R192): a context whose save is under way, one that runs, and a saved one. -/
theorem witness_job_cancel :
    (let cancel (o : Nat) := sent 6 [(8, 2, o)];
     let ctx (v : SaveState) := owned (fun k => { k with tab := [], save := v });
      status .jobCancel (cancel 2 (ctx .running)) = some 5 ∧ ((after .jobCancel (cancel 1 (ctx .draining))).ctx 1).cancelWaits = [1] ∧
      status .jobCancel (cancel 1 (ctx .running)) = some 0 ∧ status .jobCancel (cancel 1 (ctx .grace)) = some 0 ∧
      status .jobCancel (cancel 1 (ctx .saved)) = some 0) := by decide +kernel

/-- PREEMPT (R342): a destination that is not aligned or that HBM holds, no context, one that is being saved, and a grace period begun. -/
theorem witness_preempt :
    (let preempt (o g p n : Nat) := sent 7 [(8, 2, o), (16, 4, g), (24, 8, p), (32, 8, n)];
     let e : Nat := expBase;
      (owned id).imageRoom e 4096 = true ∧ status .preempt (preempt 1 0 (e + 1) 4096 (owned id)) = some 2 ∧
      status .preempt (preempt 1 0 0x4000 4096 (owned id)) = some 2 ∧ status .preempt (preempt 2 0 e 4096 (owned id)) = some 5 ∧
      status .preempt (preempt 1 0 e 4096 (owned (fun k => { k with save := .saved }))) = some 4 ∧
      status .preempt (preempt 1 0 e 4096 (owned id)) = none ∧ ((after .preempt (preempt 1 7 e 4096 (owned id))).ctx 1).save = .grace) := by
  decide +kernel

/-- JOB_START's full queue (R332): a launch in the spill queue of a job whose queue may hold none; IDENTIFY and ATTEST draw on no key. -/
theorem witness_job_start_full :
    (let s := owned id;
     let s := { s with launches := [(9, { ptr := 0x4000, recd := BitVec.ofNat 512 (record 12 0), owner := 1 })] };
      (s.rootRecord 1 0x4000).2 ≠ none ∧ status .jobStart (sent 5 [(8, 2, 1), (16, 8, 0x4000)] s) = some 13) := by decide +kernel

/-- An image of owner 1 without clusters, stored in the second tier: its header, and its body plain or sealed, one byte of it changed by x. -/
def imaged (prot sealed : Bool) (x : Nat) : State :=
  let m : Image := { forced := false, owner := 1, prot, vidx := if prot then 2 else 0, ctr := if prot then 5 else 0, attempt := 0, phases := 3,
                     cores := [], clusters := [] }
  let key := List.replicate 32 (7 : Byte)
  let bs := if sealed then m.bytes key else m.header m.sections ++ imageBody m.sections ++ leBytes 16 0
  let s := owned (fun c => { c with tab := [], save := .saved, prot, key, vidx := if prot then 2 else 0 })
  let s := s.setFn 1 { s.fnc 1 with tdisp := .run }
  { s with mem := s.mem.setBytes expBase (bs.take 270 ++ (bs.drop 270).map (· + BitVec.ofNat 8 x)), hub := { s.hub with vtab := [(2, { saveCtr := 5 })] } }

/-- RESTORE of an image of n bytes. -/
def restore (n : Nat) : State → State := sent 8 [(8, 2, 1), (16, 8, expBase), (24, 8, n)]

/-- RESTORE (R352, R397): no context, one that is not saved, a bad header, an image restored, one whose sections disagree and one behind a
down expander. -/
theorem witness_restore :
    status .restore (sent 8 [(8, 2, 2)] (owned id)) = some 5 ∧ status .restore (restore 320 (owned id)) = some 4 ∧
    status .restore (restore 384 (imaged false false 0)) = some 7 ∧ status .restore (restore 320 (imaged false false 0)) = some 0 ∧
    status .restore (restore 320 (imaged false false 1)) = some 7 ∧
    (let s := imaged false false 0; let s := { s with hub := { s.hub with expDown := [0] } };
      s.downExp expBase = true ∧ status .restore (restore 320 s) = some 7) := by decide +kernel

/-- RESTORE of a protected context (R351, R352): outside RUN, a bad header, a stale image. -/
theorem witness_restore_protected :
    (let s := imaged true false 0;
      status .restore (restore 384 s) = some 7 ∧
      status .restore (restore 320 { s with hub := { s.hub with vtab := [(2, { saveCtr := 6 })] } }) = some 8 ∧
      status .restore (restore 320 (s.setFn 1 { s.fnc 1 with tdisp := .locked })) = some 3) := by decide +kernel

/-- RESTORE of a sealed image that does not open. -/
theorem witness_restore_tag : status .restore (restore 320 (imaged true false 0)) = some 9 := by decide +kernel
/-- RESTORE of a sealed image that opens. -/
theorem witness_restore_sealed : status .restore (restore 320 (imaged true true 0)) = some 0 := by decide +kernel

/-- JOB_START of a protected context in RUN with a session; a record that a walk does not reach. -/
theorem witness_job_start_refused :
    (let s := owned (fun k => { k with tab := [(0, 0)], prot := true });
      let s := s.setFn 1 { s.fnc 1 with tdisp := .run, spdm := { session := some 1 } };
      status .jobStart (sent 5 [(8, 2, 1), (16, 8, 0x10000000)] s) = some 2 ∧
      ((sent 5 [(8, 2, 1), (16, 8, 0x10000000)] s).rootRecord 1 0x10000000).2 = none) := by decide +kernel
/-- The hypotheses of ContextCommands on measurements: a window that is valid, one that is not, and a context with none. -/
theorem witness_attest :
    (let w : TextWin := { textBase := 0x3000, len := 64, epoch := 0, valid := true, tagBase := 0x3000 };
      (List.replicate 4 (List.replicate 32 (0 : Byte))).all (fun t => t.length == 32) = true ∧ w.valid = true ∧ ({} : TextWin).valid = false ∧ (at0.homeBytes 1 w.tagBase (w.len.toNat / 8)).2.length = 8 ∧
      (List.range 4).all (fun i => !(Map.getD (at0.ctx 1).wins i {}).valid) = true) := by decide +kernel
/-- The hypotheses of ContextCommands on images: plain and protected ones of a small context, their headers, what they read back as. -/
theorem witness_image :
    (let m : Image := { forced := true, owner := 1, prot := false, vidx := 0, ctr := 0, attempt := 0, phases := 3, cores := [], clusters := [] };
      let img := m.header m.sections ++ imageBody m.sections ++ leBytes 16 0;
      let k : Ctx := { tab := [] };
      imageLength m.sections = img.length ∧ img.length < 2 ^ 64 ∧ headerOk k 1 img.length img = true ∧ headerOk k 2 img.length img = false ∧
      (imageOf false 0 img).fits k img = true ∧ m.prot = false ∧ ({ m with prot := true } : Image).prot = true) := by decide +kernel

/-! ### Commands on the device -/

/-- No context, and a checkpoint region at the foot of the second tier. -/
def cleared : State := { at0 with ctxs := [], cores := [], dev := { at0.dev with ckbase := BitVec.ofNat 64 expBase }, hub := { at0.hub with vtab := [(0, { saveCtr := 9 })] } }

/-- The hypotheses of DeviceCommands on functions, reserved bytes and CHECKPOINT (R311, R374): another function, a reserved byte, a SUB out
of range, no region, the last counter, a checkpoint begun; one under way that is not ready, and one that is. -/
theorem witness_checkpoint :
    status .checkpoint (sentBy 1 9 [] cleared) = some 3 ∧ status .setQos (sentBy 0 10 [(1, 1, 1)] cleared) = some 2 ∧
    status .checkpoint (sentBy 0 9 [(0, 1, 2)] cleared) = some 2 ∧ status .checkpoint (sentBy 0 9 [] { cleared with dev := at0.dev }) = some 2 ∧
    status .checkpoint (sentBy 0 9 [] { cleared with hub := { cleared.hub with vtab := [(0, { saveCtr := 2 ^ 20 - 1 })] } }) = some 13 ∧
    (let s := after .checkpoint (sentBy 0 9 [] { cleared with ctxs := [(1, { tab := [] })] });
      s.hub.ckpt = some 0 ∧ (s.ctx 1).save = .draining) ∧
    (let s := { cleared with hub := { cleared.hub with ckpt := some 0 } };
      (s.stopAll 0).checkpointReady = true ∧ ({ s with ctxs := [(1, { save := .draining })], launches := [(9, { ptr := 0x4000, recd := 0, owner := 1 })] }.stopAll 0).checkpointReady = false) := by decide +kernel

/-- SET_QOS (R325, R403, R408): a bad word, no context, no job, a job's new word; a configuration record out of range, another function's, one
that gives a cluster another function holds, and one that is taken. -/
theorem witness_set_qos :
    (let qos (o w : Nat) := sent 10 [(8, 2, o), (16, 8, w)];
      status .setQos (qos 1 1 (owned id)) = some 2 ∧ status .setQos (qos 2 0 (owned id)) = some 5 ∧ status .setQos (qos 1 0 (owned id)) = some 2 ∧
      (let s := after .setQos (qos 1 0x0900_0000 (owned (fun k => { k with job := some { sched := 0, root := 1 } })));
        (s.ctx 1).job.map (·.ceil) = some 9)) ∧
    (let record (fn g mask : Nat) := sentBy fn 10 [(0, 1, 1), (8, 8, g), (16, 4, mask), (40, 1, 1)];
     let s := { cleared with fns := [(2, { cfg := Mem.setLe [] 0 4 4 })] };
      status .setQosConfigRecord (record 0 33 3 s) = some 2 ∧ status .setQosConfigRecord (record 1 2 3 s) = some 3 ∧
      status .setQosConfigRecord (record 1 1 4 s) = some 2 ∧ status .setQosConfigRecord (record 1 1 3 s) = some 0 ∧
      status .setQosConfigRecord (record 0 32 8 s) = some 0) := by decide +kernel

/-- DIRTY_LOG_CFG, READ_COUNTER and RAS_LOG (R358, R405, R410): a function out of range and the last; a class out of range, no context, one
the allow-list keeps back, and counters read; two records taken. -/
theorem witness_read_counter :
    (let log (g : Nat) := sentBy 0 11 [(8, 8, g)]; status .dirtyLogCfg (log 33 cleared) = some 2 ∧ status .dirtyLogCfg (log 32 cleared) = some 0) ∧
    (let read (o cls i : Nat) := sent 12 [(8, 2, o), (16, 2, cls), (20, 4, i)];
     let s := owned (fun k => { k with allow := 7 });
      status .readCounter (read 1 6 0 s) = some 2 ∧ status .readCounter (read 1 1 1 s) = some 2 ∧ status .readCounter (read 2 0 0 s) = some 5 ∧
      status .readCounter (read 1 3 3 s) = some 11 ∧ status .readCounter (read 1 0 0 s) = some 0 ∧ status .readCounter (read 1 1 2 s) = some 0 ∧
      status .readCounter (read 1 2 0 s) = some 0 ∧
      status .readCounter (read 1 0 0 (owned (fun k => { k with allow := 1, job := some { sched := 0, root := 1 } }))) = some 0) ∧
    (let s := { cleared with hub := { cleared.hub with ras := [{ w0 := 1, w1 := 2, w2 := 3, w3 := 4 }, { w0 := 5, w1 := 6, w2 := 7, w3 := 8 }] } };
      status .rasLog (sentBy 0 13 [] s) = some 0 ∧ (after .rasLog (sentBy 0 13 [] s)).hub.ras = []) := by decide +kernel

/-- KEY_UPDATE refused (R377, R378, R381): a window out of range, a length out of range, no context, a context that is not protected, one
without a session; one update under way. -/
theorem witness_key_update :
    (let update (o win len : Nat) := sent 14 [(8, 2, o), (24, 1, win), (40, 8, len)];
      status .keyUpdate (update 1 4 0 (owned id)) = some 2 ∧ status .keyUpdate (update 1 3 64 (owned id)) = some 2 ∧
      status .keyUpdate (update 2 3 0 (owned id)) = some 5 ∧ status .keyUpdate (update 1 3 0 (owned id)) = some 3 ∧
      status .keyUpdate (update 1 3 0 (owned (fun k => { k with prot := true }))) = some 3 ∧
      ((after .keyUpdate (update 1 3 0 (owned (fun k => { k with oldWin := some (0, {}, none) })))).ctx 1).oldWin.isSome = true) ∧
    (let allow (o : Nat) := sent 14 [(0, 1, 1), (8, 2, o)];
      status .keyUpdateAllowList (allow 2 (owned id)) = some 5 ∧ status .keyUpdateAllowList (allow 1 (owned id)) = some 3 ∧
      status .keyUpdateAllowList (allow 1 (owned (fun k => { k with prot := true }))) = some 3) := by decide +kernel

/-- A request that a key seals: its first 64 bytes as given, a wrapped text at 64 and the tag at 96 (R378). -/
theorem sealed_request (m : Mem) (hm : m.wf = true) (key iv pt : List Byte) (hk : key.length = 32) (hiv : iv.length = 12) (hp : pt.length ≤ 32) :
    ∃ r : Mem, (∀ x n, x + n ≤ 64 ∨ 64 + pt.length ≤ x ∧ x + n ≤ 96 → r.bytes x n = m.bytes x n) ∧
      gcmOpen key iv (r.bytes 0 64) (r.bytes 64 pt.length) (r.bytes 96 16) = some pt := by
  obtain ⟨ho, hc, ht⟩ := gcmOpen_seal key iv (m.bytes 0 64) pt hk hiv
  have hw := Mem.wf_setBytes 64 (gcmSeal key iv (m.bytes 0 64) pt).1 hm
  have low : ∀ x n, x + n ≤ 64 ∨ 64 + pt.length ≤ x ∧ x + n ≤ 96 → ((m.setBytes 64 (gcmSeal key iv (m.bytes 0 64) pt).1).setBytes 96
      (gcmSeal key iv (m.bytes 0 64) pt).2).bytes x n = m.bytes x n := by
    intro x n h
    rw [Mem.bytes_setBytes_ne _ _ _ _ hw (by omega), Mem.bytes_setBytes_ne _ _ _ _ hm (by omega)]
  refine ⟨_, low, ?_⟩
  have h2 : ((m.setBytes 64 (gcmSeal key iv (m.bytes 0 64) pt).1).setBytes 96 (gcmSeal key iv (m.bytes 0 64) pt).2).bytes 64 pt.length
      = (gcmSeal key iv (m.bytes 0 64) pt).1 := by
    rw [Mem.bytes_setBytes_ne _ _ _ _ hw (by omega), ← hc, Mem.bytes_setBytes _ _ hm]
  have h3 : ((m.setBytes 64 (gcmSeal key iv (m.bytes 0 64) pt).1).setBytes 96 (gcmSeal key iv (m.bytes 0 64) pt).2).bytes 96 16
      = (gcmSeal key iv (m.bytes 0 64) pt).2 := by
    conv_lhs => rw [← ht]
    exact Mem.bytes_setBytes _ _ hw
  rw [low 0 64 (.inl (by omega)), h2, h3]
  exact ho

/-- The head of a KEY_UPDATE request: SUB, the session 5, owner 1, counter 7, window 3 or the allow-list. -/
def updateHead (sub : Nat) : Mem := (((((Mem.setLe [] 0 1 sub).setLe 4 4 5).setLe 8 2 1).setLe 16 8 7).setLe 24 1 3)

/-- A protected context of function 1 in RUN, its session 5, with such a request. -/
def updating (r : Mem) : State :=
  let s := attested (fun k => { k with prot := true }) .run (some 5);
  { s with fns := Map.put s.fns 1 { s.fnc 1 with cmdOp := 14, busy := true, req := r }, hub := { s.hub with cmdQ := [1] }, ev := { s.ev with fn := 1 } }

/-- The fields of KEY_UPDATE's requests. -/
def updateFields (sub : Nat) : List (Nat × Nat) :=
  if sub = 1 then [(0, 1), (4, 4), (8, 2), (16, 8), (24, 8), (96, 16)]
  else [(0, 1), (4, 4), (8, 2), (16, 8), (24, 1), (32, 32), (64, 32), (96, 16)]

/-- KEY_UPDATE accepted (R378): for a window, whose key is 32 bytes, and for the allow-list, which carries none. -/
theorem witness_key_update_accepted (sub n : Nat) (h : sub = 0 ∧ n = 32 ∨ sub = 1 ∧ n = 0) :
    ∃ (s : State) (key : List Byte), let f := s.fnc 1
      s.hub.cmdQ.head? = some 1 ∧ s.ev.fn = 1 ∧ f.cmdOp.toNat = 14 ∧ f.arg 0 1 = sub ∧ (s.ctx (f.arg 8 2)).oldWin = none ∧
      f.reservedOk (updateFields sub) = true ∧ f.arg 24 1 ≤ 3 ∧ windowOk (f.arg 32 32) = true ∧
      s.ownedBy 1 (f.arg 8 2) = some (s.ctx (f.arg 8 2)) ∧ (s.ctx (f.arg 8 2)).prot = true ∧
      s.openUpdate (s.ctx (f.arg 8 2)) f (f.req.bytes 64 n) = some key := by
  have hs : sub ≤ 1 := by omega
  have hn : n ≤ 32 := by omega
  have hw : (updateHead sub).wf = true := by unfold updateHead; exact Mem.wf_setLe _ _ _ (Mem.wf_setLe _ _ _ (Mem.wf_setLe _ _ _ (Mem.wf_setLe _ _ _ (Mem.wf_setLe _ _ _ rfl))))
  obtain ⟨r, low, ho⟩ := sealed_request (updateHead sub) hw ((updating []).fnc 1).spdm.wrapKey (updateIv 7) (List.replicate n 0)
    (fit_length _ _) (by simp [updateIv]) (by simpa using hn)
  rw [List.length_replicate] at ho
  have le (x k : Nat) (h : x + k ≤ 64) : r.le x k = (updateHead sub).le x k := by rw [Mem.le, low x k (.inl h), Mem.le]
  have f1 : (updating r).fnc 1 = { (updating []).fnc 1 with req := r } := rfl
  have a0 : r.le 0 1 = sub := by rw [le 0 1 (by omega)]; interval_cases sub <;> decide
  have a4 : r.le 4 4 = 5 := by rw [le 4 4 (by omega)]; interval_cases sub <;> decide
  have a8 : r.le 8 2 = 1 := by rw [le 8 2 (by omega)]; interval_cases sub <;> decide
  have a16 : r.le 16 8 = 7 := by rw [le 16 8 (by omega)]; interval_cases sub <;> decide
  have a24 : r.le 24 1 = 3 := by rw [le 24 1 (by omega)]; interval_cases sub <;> decide
  have a32 : r.le 32 32 = 0 := by rw [le 32 32 (by omega)]; interval_cases sub <;> decide
  refine ⟨updating r, List.replicate n 0, rfl, rfl, rfl, a0, ?_, ?_, ?_, ?_, ?_, ?_, ?_⟩
  · change ((updating r).ctx (r.le 8 2)).oldWin = none; rw [a8]; rfl
  · have get (i : Nat) (hi : i < 64 ∨ 64 + n ≤ i ∧ i < 96) : ((updating r).fnc 1).req.get i = (updateHead sub).get i := by
      have := low i 1 (by simp only [List.length_replicate]; omega)
      simpa [Mem.bytes, f1] using this
    have all : ∀ i, i < 112 → (updateFields sub).any (fun e => decide (e.1 ≤ i) && decide (i < e.1 + e.2)) = true ∨
        (i < 64 ∨ 64 + n ≤ i ∧ i < 96) ∧ (updateHead sub).get i = 0 := by
      rcases h with ⟨rfl, rfl⟩ | ⟨rfl, rfl⟩ <;> decide +kernel
    have last : (updateFields sub).foldl (fun a e => Nat.max a (e.1 + e.2)) 0 = 112 := by
      interval_cases sub <;> decide
    simp only [Func.reservedOk, last, List.all_eq_true, List.mem_range, Bool.or_eq_true, beq_iff_eq]
    intro i hi
    rcases all i hi with hc | ⟨hg, h0⟩
    · exact .inl hc
    · exact .inr (by rw [get i hg, h0])
  · change r.le 24 1 ≤ 3; omega
  · change windowOk (r.le 32 32) = true; rw [a32]; decide +kernel
  · change (updating r).ownedBy 1 (r.le 8 2) = some ((updating r).ctx (r.le 8 2)); rw [a8]; rfl
  · change ((updating r).ctx (r.le 8 2)).prot = true; rw [a8]; rfl
  · change (updating r).openUpdate ((updating r).ctx (r.le 8 2)) ((updating r).fnc 1) (r.bytes 64 n) = _
    rw [a8]
    have hg : (updating r).fnc ((updating r).ctx 1).fn = { (updating []).fnc 1 with req := r } := rfl
    simp only [State.openUpdate, hg, f1, Func.arg, a4, a16]
    rw [if_pos ⟨rfl, rfl, rfl⟩]
    exact ho

/-- CHECKPOINT SUB 1 refused (R375): a context exists, no region, no checkpoint there. -/
theorem witness_recover :
    (let recover := sentBy 0 9 [(0, 1, 1)];
      status .checkpointRecover (recover { cleared with ctxs := [(1, {})] }) = some 3 ∧
      status .checkpointRecover (recover { cleared with dev := at0.dev }) = some 2 ∧ status .checkpointRecover (recover cleared) = some 7) := by
  decide +kernel

/-- The head of a checkpoint of no context with a counter: part 3 at 64 KiB (R375). -/
def ckHead (ctr : Nat) : List Byte :=
  leBytes 4 0x5A39434B ++ leBytes 2 1 ++ leBytes 2 0 ++ leBytes 8 ctr ++ leBytes 8 0 ++ leBytes 8 65536 ++ leBytes 8 131072 ++ leBytes 8 196608
    ++ leBytes 16 0

/-- The first three parts of such a checkpoint. -/
def ckPart (ctr : Nat) : Nat → List Byte
  | 1 => sealPart ctr 1 (ckHead ctr) (List.replicate 4016 0)
  | 2 => numPart ctr 2 cleared.keyNums
  | _ => numPart ctr 3 cleared.devNums

/-- Bytes whose last is another. -/
def spoil (bs : List Byte) : List Byte := bs.take (bs.length - 1) ++ [bs.getLastD 0 + 1]

/-- The part of that number, spoiled if it is the one named bad. -/
def ckGiven (ctr bad n : Nat) : List Byte := if n = bad then spoil (ckPart ctr n) else ckPart ctr n

/-- cleared with such a checkpoint in its region, and the command that recovers it. -/
def saved (ctr bad : Nat) : State :=
  { sentBy 0 9 [(0, 1, 1)] cleared with
    mem := Mem.setBytes (Mem.setBytes (Mem.setBytes [] expBase (ckGiven ctr bad 1)) (expBase + 4096) (ckGiven ctr bad 2)) (expBase + 65536)
      (ckGiven ctr bad 3) }

/-- Bytes of a part of a checkpoint read one by one: the first k of n. -/
theorem bytes_take (m : Mem) (a k n : Nat) (bs : List Byte) (h : m.bytes a n = bs) (hk : k ≤ n) : m.bytes a k = bs.take k := by
  obtain ⟨j, rfl⟩ := Nat.exists_eq_add_of_le hk
  rw [← h, Mem.bytes_add, List.take_left' (Mem.bytes_length m a k)]

theorem spoil_length (bs : List Byte) (h : bs ≠ []) : (spoil bs).length = bs.length := by
  have := List.length_pos_iff.mpr h
  simp [spoil]; omega

theorem spoil_take (bs : List Byte) (k : Nat) (h : k < bs.length) : (spoil bs).take k = bs.take k := by
  rw [spoil, List.take_append_of_le_length (by simp; omega), List.take_take, Nat.min_eq_left (by omega)]

theorem spoil_append (a b : List Byte) (h : b ≠ []) : spoil (a ++ b) = a ++ spoil b := by
  obtain ⟨c, x, rfl⟩ : ∃ c x, b = c ++ [x] := ⟨_, _, (List.dropLast_append_getLast h).symm⟩
  simp [spoil, ← List.append_assoc]

theorem spoil_ne (b : List Byte) (h : b ≠ []) : spoil b ≠ b := by
  obtain ⟨c, x, rfl⟩ : ∃ c x, b = c ++ [x] := ⟨_, _, (List.dropLast_append_getLast h).symm⟩
  simp [spoil]

/-- A spoiled part does not open. -/
theorem openPart_spoil (s : State) (a ctr part : Nat) (head body : List Byte) (hh : head.length = 64)
    (hm : s.mem.bytes a (80 + body.length) = spoil (sealPart ctr part head body)) : s.openPart a (80 + body.length) ctr part = none := by
  obtain ⟨ho, hc, ht⟩ := gcmOpen_seal Config.checkpointKey (partIv ctr part) head body (by simp [Config.checkpointKey]) (by simp [partIv])
  have hne : (gcmSeal Config.checkpointKey (partIv ctr part) head body).2 ≠ [] := by intro h; simp [h] at ht
  have hs : spoil (sealPart ctr part head body) = head ++ (gcmSeal Config.checkpointKey (partIv ctr part) head body).1
      ++ spoil (gcmSeal Config.checkpointKey (partIv ctr part) head body).2 := spoil_append _ _ hne
  have h1 : (spoil (sealPart ctr part head body)).take 64 = head := by
    rw [hs, List.append_assoc, List.take_left' hh]
  have h2 : slice (spoil (sealPart ctr part head body)) 64 (80 + body.length - 80) = (gcmSeal Config.checkpointKey (partIv ctr part) head body).1 := by
    rw [hs, slice, List.append_assoc, List.drop_left' hh, List.take_left' (by omega)]
  have h3 : (spoil (sealPart ctr part head body)).drop (80 + body.length - 16) = spoil (gcmSeal Config.checkpointKey (partIv ctr part) head body).2 := by
    rw [hs, List.drop_left' (by simp only [List.length_append]; omega)]
  simp only [State.openPart, hm, h1, h2, h3]
  split
  · rfl
  unfold gcmOpen at ho ⊢
  simp only at ho ⊢
  split at ho
  · next he => rw [if_neg (by rw [he]; exact (spoil_ne _ hne).symm)]
  · simp at ho

/-- Part 2 or 3 has its own head. -/
theorem num_head (ns : List Nat) : (leBytes 8 (80 + 8 * ns.length) ++ leBytes 56 0).length = 64 := by simp

theorem num_body (ns : List Nat) : (ns.flatMap (leBytes 8)).length = 8 * ns.length := by
  induction ns with
  | nil => rfl
  | cons n t ih => simp [ih]; omega

theorem key_nums : cleared.keyNums.length = 1 := by decide +kernel
theorem dev_nums : cleared.devNums.length < 1000 := by decide +kernel

/-- A part that is not the one named bad opens, and that one does not. -/
theorem openPart_given (s : State) (a ctr bad n : Nat) (head body : List Byte) (hh : head.length = 64) (hp : ckPart ctr n = sealPart ctr n head body)
    (hu : s.rangeDown a (80 + body.length) = false) (hm : s.mem.bytes a (80 + body.length) = ckGiven ctr bad n) :
    s.openPart a (80 + body.length) ctr n = if n = bad then none else some body := by
  rw [ckGiven, hp] at hm
  split at hm
  · next h => rw [if_pos h]; exact openPart_spoil s a ctr n head body hh hm
  · next h => rw [if_neg h]; exact openPart_sealPart s a ctr n head body hh hu hm

/-- A checkpoint recovered (R375): one whose counter is entry 0's, and a stale one, of which each part opens and reads, or all up to one that
does not open. -/
theorem witness_recover_opened (ctr bad : Nat) (hc : ctr = 8 ∨ ctr = 9) :
    let s := saved ctr bad
    let ck := s.own s.dev.ckbase.toNat
    let h (off n : Nat) : Nat := numAt (s.mem.bytes ck 64) off n
    s.hub.cmdQ.head? = some 0 ∧ (s.fnc 0).cmdOp.toNat = 9 ∧ (s.fnc 0).arg 0 1 = 1 ∧ (s.fnc 0).reservedOk [(0, 1)] = true ∧ s.hub.ckpt = none ∧
    s.ctxs = [] ∧ s.regionOk = true ∧ s.fuse = 9 ∧ h 0 4 = 0x5A39434B ∧ h 4 2 = 1 ∧ h 8 8 = ctr ∧
    ∃ dir b2 b3, s.openPart ck 4096 (h 8 8) 1 = (if 1 = bad then none else some dir) ∧
      s.openPart (ck + 4096) (s.mem.le (ck + 4096) 8) (h 8 8) 2 = (if 2 = bad then none else some b2) ∧
      s.openPart (ck + h 24 8) (s.mem.le (ck + h 24 8) 8) (h 8 8) 3 = (if 3 = bad then none else some b3) ∧
      (rdKeys ((bytesWords b2).map BitVec.toNat)).isSome = true ∧ (rdDev ((bytesWords b3).map BitVec.toNat)).isSome = true := by
  intro s ck h
  have ck0 : ck = expBase := by
    change cleared.own cleared.dev.ckbase.toNat = expBase
    decide +kernel
  have hh : (ckHead ctr).length = 64 := by simp [ckHead]
  have n2 := key_nums
  have n3 := dev_nums
  have e1 : (ckPart ctr 1).length = 4096 := by rw [ckPart, sealPart_length _ _ _ _ hh, List.length_replicate]
  have e2 : (ckPart ctr 2).length = 80 + 8 * cleared.keyNums.length := by rw [ckPart, numPart, sealPart_length _ _ _ _ (num_head _), num_body]
  have e3 : (ckPart ctr 3).length = 80 + 8 * cleared.devNums.length := by
    change (numPart ctr 3 cleared.devNums).length = _
    rw [numPart, sealPart_length _ _ _ _ (num_head _), num_body]
  have given (n : Nat) (hn : 0 < (ckPart ctr n).length) : (ckGiven ctr bad n).length = (ckPart ctr n).length := by
    rw [ckGiven]; split
    · exact spoil_length _ (List.length_pos_iff.mp hn)
    · rfl
  have taken (n k : Nat) (hk : k < (ckPart ctr n).length) : (ckGiven ctr bad n).take k = (ckPart ctr n).take k := by
    rw [ckGiven]; split
    · exact spoil_take _ _ hk
    · rfl
  have l1 := (given 1 (by omega)).trans e1
  have l2 := (given 2 (by omega)).trans e2
  have l3 := (given 3 (by omega)).trans e3
  have hm : s.mem = Mem.setBytes (Mem.setBytes (Mem.setBytes [] expBase (ckGiven ctr bad 1)) (expBase + 4096) (ckGiven ctr bad 2)) (expBase + 65536)
      (ckGiven ctr bad 3) := by simp only [s, saved]
  have w0 : Mem.wf [] = true := rfl
  have w1 := Mem.wf_setBytes expBase (ckGiven ctr bad 1) w0
  have w2 := Mem.wf_setBytes (expBase + 4096) (ckGiven ctr bad 2) w1
  have r1 : s.mem.bytes expBase 4096 = ckGiven ctr bad 1 := by
    rw [hm, Mem.bytes_setBytes_ne _ _ _ _ w2 (by omega), Mem.bytes_setBytes_ne _ _ _ _ w1 (by omega)]
    conv_lhs => rw [← l1]
    exact Mem.bytes_setBytes _ _ w0
  have r2 : s.mem.bytes (expBase + 4096) (80 + 8 * cleared.keyNums.length) = ckGiven ctr bad 2 := by
    rw [hm, Mem.bytes_setBytes_ne _ _ _ _ w2 (by omega), ← l2]
    exact Mem.bytes_setBytes _ _ w1
  have r3 : s.mem.bytes (expBase + 65536) (80 + 8 * cleared.devNums.length) = ckGiven ctr bad 3 := by
    rw [hm, ← l3]
    exact Mem.bytes_setBytes _ _ w2
  have rh : s.mem.bytes ck 64 = ckHead ctr := by
    rw [ck0, bytes_take _ _ 64 4096 _ r1 (by omega), taken 1 64 (by omega), ckPart, sealPart_take _ _ _ _ _ (by omega),
      List.take_of_length_le (by omega)]
  have first (a p : Nat) (ns : List Nat) (hns : ns.length < 2 ^ 32) (hp : ckPart ctr p = numPart ctr p ns)
      (hl : (ckPart ctr p).length = 80 + 8 * ns.length)
      (hr : s.mem.bytes a (80 + 8 * ns.length) = ckGiven ctr bad p) : s.mem.le a 8 = 80 + 8 * ns.length := by
    rw [Mem.le, bytes_take _ _ 8 _ _ hr (by omega), taken p 8 (by omega), hp, numPart, sealPart_take _ _ _ _ _ (by simp),
      List.take_left' (leBytes_length 8 _), leNat_leBytes, Nat.mod_eq_of_lt (by omega)]
  have e0 : h 0 4 = 0x5A39434B := by simp only [h, rh]; rcases hc with rfl | rfl <;> decide +kernel
  have e4 : h 4 2 = 1 := by simp only [h, rh]; rcases hc with rfl | rfl <;> decide +kernel
  have e8 : h 8 8 = ctr := by simp only [h, rh]; rcases hc with rfl | rfl <;> decide +kernel
  have e24 : h 24 8 = 65536 := by simp only [h, rh]; rcases hc with rfl | rfl <;> decide +kernel
  have open2 (a p : Nat) (ns : List Nat) (hp : ckPart ctr p = numPart ctr p ns) (hr : s.mem.bytes a (80 + 8 * ns.length) = ckGiven ctr bad p) :
      s.openPart a (80 + 8 * ns.length) ctr p = if p = bad then none else some (ns.flatMap (leBytes 8)) := by
    have := openPart_given s a ctr bad p _ (ns.flatMap (leBytes 8)) (num_head ns) hp rfl (by rw [num_body]; exact hr)
    rwa [num_body] at this
  have c0 : (s.fnc 0).arg 0 1 = 1 ∧ (s.fnc 0).reservedOk [(0, 1)] = true := by
    have fnc (u : State) (m : Mem) (i : Nat) : { u with mem := m }.fnc i = u.fnc i := rfl
    simp only [s, saved, fnc]
    decide +kernel
  have c1 : s.regionOk = true ∧ s.fuse = 9 := by
    have region (u : State) (m : Mem) : { u with mem := m }.regionOk = u.regionOk := rfl
    have fuse (u : State) (m : Mem) : { u with mem := m }.fuse = u.fuse := rfl
    simp only [s, saved, region, fuse]
    decide +kernel
  refine ⟨rfl, rfl, c0.1, c0.2, rfl, rfl, c1.1, c1.2, e0, e4, e8,
    List.replicate 4016 0, cleared.keyNums.flatMap (leBytes 8), cleared.devNums.flatMap (leBytes 8), ?_, ?_, ?_, by decide +kernel, by decide +kernel⟩
  · rw [e8, ck0]
    have := openPart_given s expBase ctr bad 1 (ckHead ctr) (List.replicate 4016 0) hh rfl rfl (by rw [List.length_replicate]; exact r1)
    rwa [List.length_replicate] at this
  · rw [e8, ck0, first _ 2 _ (by omega) rfl e2 r2]; exact open2 _ _ _ rfl r2
  · rw [e8, e24, ck0, first _ 3 _ (by omega) rfl e3 r3]; exact open2 _ _ _ rfl r3

/-- TEXT_KEY_SWITCH (R381): a core without a boundary; one at it whose locked line waits on its function's bandwidth, and one that has
none. -/
theorem witness_text_key_switch :
    (at0.core 0).textSwitch = none ∧
    (let line : ILine := { ptr := 0x1000_0000, key := 0x1000_0000, bytes := [], locked := true, stale := true };
     let s := at0.setCore 0 { at0.core 0 with textSwitch := some 2, switchBegun := true, icache := [line] };
     let s := s.setFn 0 { s.fnc 0 with cfg := Mem.setLe [] 24 8 0x100, hbmUsed := 10 ^ 9 };
      ((match s.refillStale 0 with | .wait u _ => u | _ => at0).core 0).icache.any (·.stale) = true ∧
      ((nextOf (exec .textKeySwitch s)).core 0).textSwitch = some 2) ∧
    ((nextOf (exec .textKeySwitch (at0.setCore 0 { at0.core 0 with textSwitch := some 2 }))).core 0).textSwitch = none := by decide +kernel

/-! ### Registers the host reads and writes -/

/-- at0 with function 1 as given, and an event of it. -/
def host (f : Func → Func) (e : Ev → Ev) (s : State := at0) : State :=
  let s := s.setFn 1 (f (s.fnc 1)); { s with ev := e { s.ev with fn := 1, c := 0 } }

/-- A fault record of function 1 on page 3. -/
def rec1 (tag : Option Nat) : FaultRec := { page := 3, p := 0x30000, reason := 1, level := 0, kind := 0, fetch := false, owner := 1, fn := 1, tag }

/-- The hypotheses of HostInterface on logs and faults (R305, R405): a consumer past the ring and at its bound; a record written, one that has
its tag, and a ring that is full; RESOLVE and REJECT of a record, of none, and of a thread that waits. -/
theorem witness_fault_ring :
    (let s := host (fun f => { f with dlProd := 3, dlCtl := 1 }) (fun e => { e with v := 0 });
      2 ^ (s.fnc 1).dlSize < ((s.fnc 1).dlProd - s.ev.v.setWidth 32).toNat ∧ ((nextOf (exec .dlconsWrite s)).fnc 1).dlCons = 0) ∧
    (let s := host (fun f => { f with dlProd := 3, dlCtl := 1 }) (fun e => { e with v := 1 });
      ((s.fnc 1).dlProd - s.ev.v.setWidth 32).toNat ≤ 2 ^ (s.fnc 1).dlSize ∧ ((nextOf (exec .dlconsWrite s)).fnc 1).dlCons = 1) ∧
    (let s (prod : BitVec 32) (tag : Option Nat) := host (fun f => { f with fqCtl := 0x8000000000000001, fqBase := 0x1000, fqProd := prod }) id
        { at0 with hub := { at0.hub with faults := [rec1 tag] } };
      ((s 1 none).fnc 1).fqRoom = true ∧ ((s 2 none).fnc 1).fqRoom = false ∧ (s 1 none).hub.faults[(s 1 none).ev.k]? = some (rec1 none) ∧
      (s 1 (some 4)).hub.faults[0]? = some (rec1 (some 4)) ∧ ((nextOf (exec .faultRecord (s 1 none))).fnc 1).fqProd = 2 ∧
      (nextOf (exec .faultRecord (s 1 none))).mem.le ((s 1 none).hostSpa 0x1010) 8 = 0x30000) := by decide +kernel

theorem witness_fault_memory : (host id id { at0 with hub := { at0.hub with faults := [rec1 none] } }).memOk := by
  rw [State.memOk]; decide +kernel

/-- RESOLVE and REJECT (R304, R305). -/
theorem witness_resolve :
    (let info : TrapInfo := { cause := 0x13 };
     let s (n : Nat) := host id (fun e => { e with num := n }) { at0 with hub := { at0.hub with faults := [rec1 (some 4)] } };
     let w := (s 4).setTh { (s 4).th with wait := .fault 0x30008 false info, tr := { (s 4).th.tr with tvec := 0x2000 } };
      (s 4).hub.faults.find? (fun r => r.fn == 1 && r.tag == some 4) = some (rec1 (some 4)) ∧
      (s 5).hub.faults.find? (fun r => r.fn == 1 && r.tag == some 5) = none ∧ ((nextOf (exec .reject (s 5))).fnc 1).fqErr = true ∧
      vaOf 0x30008 / 2 ^ 16 = (rec1 (some 4)).page ∧ routeU info = false ∧ w.th.inTrap = false ∧
      ((nextOf (exec .resolve w)).thread 0 0).wait = .none ∧ ((nextOf (exec .reject w)).thread 0 0).pc = 0x2000 ∧
      ((nextOf (exec .fqstRead (host (fun f => { f with fqErr := true }) id))).fnc 1).fqErr = false) := by decide +kernel

/-- TLBI (R299): a range, one under way, none under way; its end while an access that it recorded is not performed, and after. -/
theorem witness_tlbi :
    (let s := host id (fun e => { e with v := 0x10001 });
     let line : Word × Target := (0x10000, .glob 0x10000 0 0);
      s.dev.tlbi = none ∧ (nextOf (exec .tlbi s)).dev.tlbi = some (0x10000, 0x20000) ∧
      (let u := { s with dev := { s.dev with tlbi := some (0x10000, 0x20000), tlbiHeld := [(0, [(5, 0x10000)])] } };
       let busy (n : Nat) := u.setTh { u.th with queue := [.mat { seq := n, pc := 0, kind := .tz 0, lines := [line] }] };
       let held (u : State) := u.cores.any (fun k => k.2.holds (0x10000 / 64) (0x20000 / 64) (Map.getD u.dev.tlbiHeld k.1 []));
        (nextOf (exec .tlbi u)).dev.tlbiErr = true ∧ held u = false ∧ (nextOf (exec .invalidationDone u)).dev.tlbi = none ∧
        held (busy 5) = true ∧ held (busy 6) = false)) := by decide +kernel

/-- REGISTER_WRITE (R326, R391, R392, R396, R404 to R406): an offset that is not aligned; CMDREQ while a command is under way, of the first
and last opcodes, and of none; a register of each group, of the PF and of another function. -/
theorem witness_register_write :
    (let s (off : Nat) (v : Word) := host id (fun e => { e with off, v });
     let busy (off : Nat) (v : Word) := host (fun f => { f with busy := true }) (fun e => { e with off, v });
     let pf (off : Nat) (v : Word) := { s off v with ev := { (s off v).ev with fn := 0 } };
     let w (u : State) := nextOf (exec .registerWrite u);
      ((w (s 4 9)).fnc 1).busy = false ∧ ((w (busy 0 1)).fnc 1).stErr = true ∧ (s 0 1).hub.alarm3 = false ∧ (w (s 0 0x50001)).hub.cmdQ = [1] ∧
      ((w (s 0 14)).fnc 1).cmdOp = 14 ∧ ((w (s 0 15)).fnc 1).stStatus = 1 ∧ ((w (s 0 0)).fnc 1).stStatus = 1 ∧
      ((w (s 0x40 9)).fnc 1).req.le 0 8 = 9 ∧ ((w (busy 0x7F8 9)).fnc 1).req.le 0x7B8 8 = 0 ∧ ((w (s 0x1000 0x1FFF)).fnc 1).fqBase = 0x1000 ∧
      ((w (s 0x1100 0x2001)).fnc 1).dlBase = 0x2000 ∧ ((w (s 0x1018 0)).fnc 1).fqCons = 0 ∧ ((w (s 0x1018 1)).fnc 1).fqCons = 0 ∧
      ((w (s 0x2078 7)).fnc 1).msix.le 0x78 8 = 7 ∧ (w (pf 0x110A0 0xFFFF)).dev.mxlim = 0x8000 ∧ (w (pf 0x11158 3)).dev.ffr = [(11, 3)] ∧
      (w (pf 0x11068 5)).dev.ttroot = Map.put (pf 0 0).dev.ttroot 13 5 ∧ (w (pf 0x115F0 6)).dev.promo = [(62, 6)] ∧
      (w (s 0x11080 1)).dev.tlbi = none) := by decide +kernel

/-- REGISTER_WRITE of interrupt vectors and of the PF's registers: one that frees a pending interrupt and one that is masked, and the ends
of each group. -/
theorem witness_register_write_more :
    (let s (fn off : Nat) (v : Word) := let u := host (fun f => { f with pend := 3 }) (fun e => { e with off, v }); { u with ev := { u.ev with fn } };
     let w (fn off : Nat) (v : Word) := nextOf (exec .registerWrite (s fn off v));
      ((w 1 0x2008 0).fnc 1).msix.le 8 8 = 0 ∧ (w 0 0x11000 5).dev.ttroot = Map.put (s 0 0 0).dev.ttroot 0 5 ∧
      (w 0 0x11098 0xFFFF).dev.mxbase = 0x8000 ∧ (w 0 0x110B8 7).dev.ckbase = 7 ∧ (w 0 0x11600 0x1_0000_0002).dev.draint = 2 ∧
      (w 0 0x11400 6).dev.promo = [(0, 6)] ∧ (w 0 0x11100 3).dev.ffr = [(0, 3)] ∧ (w 0 0x110A8 0x7FF).dev.mxscale = 0x400 ∧
      (w 0 0x11090 0xFFFF).dev.npcfg = 0x1F0F ∧ (w 1 0x1FFF8 6).dev.promo = [] ∧ ((w 1 0x1020 0).fnc 1).fqErr = true) := by decide +kernel

/-- A host access (R353, R395): outside its function's IDE stream, inside it, and while the function is reset. -/
theorem witness_host_admitted :
    (let s (t : Tdisp) (ide flr : Bool) := host (fun f => { f with tdisp := t, flr, fqErr := true }) (fun e => { e with ide });
     let err (u : State) := ((nextOf (exec .fqstRead u)).fnc 1).fqErr;
      err (s .run false false) = true ∧ err (s .run true false) = false ∧ err (s .locked false false) = false ∧ err (s .unlocked true true) = true) := by
  decide +kernel

/-- DIRTY_LOG_RESET (R405): one that a dirty byte whose page is not mapped holds back, and one that nothing does. -/
theorem witness_dirty_log_reset :
    (let s := host (fun f => { f with dlProd := 3 }) id (owned id);
     let d := s.setCore 0 { s.core 0 with l1 := [{ va := 2 ^ 40, b := 1, dirty := true }] };
     let asked (s : State) := (s.setFn 1 { s.fnc 1 with dlRst := true }).performLogged 1;
      (asked d).loggedDone 1 = false ∧ ((nextOf (exec .dirtyLogReset d)).fnc 1).dlRst = true ∧
      (asked s).loggedDone 1 = true ∧ ((nextOf (exec .dirtyLogReset s)).fnc 1).dlProd = 0) := by decide +kernel

/-- APERTURE_ACCESS (R394): no aperture, a frame that another function holds, no quota, a read, and a write within a line. -/
theorem witness_aperture :
    (let s (r q off : Nat) (wr : Bool) := { host id (fun e => { e with wr, bytes := [1, 2], off, len := 2 }) with
        fns := [(0, { cfg := Mem.setLe [] 50 6 r }), (1, { cfg := Mem.setLe [] 8 3 q })]
        ctxs := [(1, { placeCtx with rights := [{ base := 0, len := 1024, age := 0, rights := 0xF, gid := 1 }] })] };
     let far : Nat := 0x4000_003E;
      (s 0x10000 1 far false).ev.wr = false ∧ (s 0 1 far true).aperture 1 far 2 = none ∧ (s 0x10000 1 far true).aperture 1 far 2 = some far ∧
      (s 0x10000 1 62 true).heldByOther 1 62 = true ∧ (s 0x10000 1 62 true).aperture 1 62 2 = none ∧
      (s 0x10000 0 far true).apertureOk 1 far = false ∧
      (nextOf (exec .apertureAccess (s 0x10000 1 far true))).mem.le far 2 = 0x201 ∧
      (nextOf (exec .apertureAccess (s 0x10000 0 far true))).mem.le far 2 = 0 ∧ (s 0x10000 1 far false).apertureRead 1 far 2 false = some [0, 0]) := by
  decide +kernel

/-- cleared with a context that is saved, whose image lies far up in the second tier. -/
def holding : State := { cleared with ctxs := [(1, { tab := [], save := .saved, imgAt := expBase + 2 ^ 41, imgLen := 320 })] }

/-- The hypotheses of DeviceCommands on a checkpoint that ends and on what its region holds: with no context, and with one that is saved (R311,
R374, R375). -/
theorem witness_checkpoint_region (v : State) (h : v = cleared ∨ v = holding) :
    v.checkpointReady = true ∧ v.memOk ∧ v.fuse < 2 ^ 20 ∧ v.owners.Nodup ∧ (∀ e ∈ v.ctxs, e.2.prot = true → e.2.vidx ≠ 0) ∧
    (∀ e ∈ v.ctxs, (Map.find? v.hub.vtab e.2.vidx).isSome) ∧ v.hub.expDown = [] ∧ (∀ l, v.replicaLines l = []) ∧ v.regionOk = true ∧
    v.keyedFrames v.hub.fkt = [] ∧ (∀ e ∈ v.ctxs, e.2.cancelWaits = [] ∧ e.2.destroyWaits = []) ∧
    (let ck := v.own v.dev.ckbase.toNat
     let up (x : Nat) : Nat := (x + 65535) / 65536 * 65536
     let p4 := up (up (4096 + numPartLen v.keyNums) + v.devPartLen v.owners)
     let r := v.readImages v.owners
     (r.checkpointImages r (ck + p4) v.owners (ck + p4)).2.2 + 2 ^ 16 + hbmBytes ≤ v.own (expBase + 8 * expBytes)) := by
  rcases h with rfl | rfl
  · exact ⟨by decide +kernel, by rw [State.memOk]; decide +kernel, by decide +kernel, by decide +kernel, by decide +kernel, by decide +kernel, rfl,
      fun _ => rfl, by decide +kernel, by decide +kernel, by decide +kernel, by decide +kernel⟩
  · exact ⟨by decide +kernel, by rw [State.memOk]; decide +kernel, by decide +kernel, by decide +kernel, by decide +kernel, by decide +kernel, rfl,
      fun _ => rfl, by decide +kernel, by decide +kernel, by decide +kernel, by decide +kernel⟩

/-- SET_QOS with a launch above its ceiling and one below; a recovery whose region is out of reach (R328, R397). -/
theorem witness_set_qos_lowers :
    (let s := { owned (fun k => { k with job := some { sched := 0, root := 1 } }) with
        launches := [(1, { ptr := 0x4000, recd := BitVec.ofNat 512 (record 12 0), owner := 1, slot := some 0, level := 12, waitClk := 5 }),
          (2, { ptr := 0x4000, recd := 0, owner := 1, level := 3, waitClk := 5 })] };
      let u := after .setQos (sent 10 [(8, 2, 1), (16, 8, 0x0900_0000)] s);
      (s.launches.map (·.1)).Nodup ∧ u.launches.map (fun l => (l.1, l.2.level, l.2.waitClk)) = [(1, 9, 0), (2, 3, 5)]) ∧
    (let s := { cleared with hub := { cleared.hub with expDown := [0] } };
      s.downExp (s.own s.dev.ckbase.toNat) = true ∧ status .checkpointRecover (sentBy 0 9 [(0, 1, 1)] s) = some 7) := by decide +kernel

/-- The hypotheses of HostInterface on REJECT of a thread whose vector operation is under way and of a matrix operation that waits, on reads in
and outside the stream, and on a cold reset that has not ended (R223, R267, R395, R411). -/
theorem witness_host_more :
    (let info : TrapInfo := { cause := 0x13 };
     let s := host id (fun e => { e with num := 4 }) { at0 with hub := { at0.hub with faults := [rec1 (some 4)] } };
     let w := s.setTh { s.th with wait := .fault 0x30008 false info, queue := [.vec { pc := 0 }], tr := { s.th.tr with tvec := 0x2000 } };
     let m := withCore s (fun k => { k with mx := [(0, { pc := 8, kind := .tz 0, waitPage := some 3 })] });
      (w.core 0).vecBusy 0 = true ∧ ((nextOf (exec .reject w)).thread 0 0).wait = .trapping info 0x100000 ∧
      (∀ k ∈ w.cores, ∀ l ∈ k.2.icache, l.waitPage ≠ some 3) ∧
      (nextOf (exec .reject m)).cpu.mx.map (fun e => (e.2.waitPage, e.2.rejected)) = [(none, true)] ∧
      (nextOf (exec .resolve m)).cpu.mx.map (fun e => (e.2.waitPage, e.2.rejected)) = [(none, false)]) ∧
    (let s := host (fun f => { f with tdisp := .run, fqBase := 0x5000 }) id; s.hostRead 1 0x1000 true = some 0x5000 ∧ s.hostRead 1 0x1000 false = none) ∧
    (let s := host id (fun e => { e with off := 0, v := 0x50001 }) { at0 with hub := { at0.hub with booting := true } };
      ((nextOf (exec .registerWrite s)).fnc 1).stErr = true ∧ s.readBar0 1 8 = 1) := by decide +kernel

/-! ### Links and errors -/

/-- Flits (R399, R400): for a sequence number, a kind and a payload there is one that is in form and opens, and one in form that does not. -/
theorem witness_flit (seq kind : Nat) (l : SubLink) (pt : List Byte) (hk : l.rxKey.length = 32) (hs : seq < 2 ^ 48) (hn : kind < 256)
    (hp : pt.length = 224) :
    (∃ b, b.length = 256 ∧ flitCrcOk b = true ∧ flitSeq b = seq ∧ flitKind b = kind ∧ l.openFlit b = some pt) ∧
    (∃ b, b.length = 256 ∧ flitCrcOk b = true ∧ flitSeq b = seq ∧ flitKind b = kind ∧ l.openFlit b = none) := by
  obtain ⟨ho, hc, ht⟩ := gcmOpen_seal l.rxKey (leBytes 4 l.rxId ++ leBytes 8 seq) (leBytes 6 seq ++ (leBytes 1 kind ++ [0])) pt hk (by simp)
  generalize (gcmSeal l.rxKey (leBytes 4 l.rxId ++ leBytes 8 seq) (leBytes 6 seq ++ (leBytes 1 kind ++ [0])) pt).1 = ct at ho hc
  generalize (gcmSeal l.rxKey (leBytes 4 l.rxId ++ leBytes 8 seq) (leBytes 6 seq ++ (leBytes 1 kind ++ [0])) pt).2 = tag at ho ht
  have parts (tag' : List Byte) (h16 : tag'.length = 16) : ∃ b : List Byte, b.length = 256 ∧ flitCrcOk b = true ∧ flitSeq b = seq ∧
      flitKind b = kind ∧ flitPayload b = ct ∧ flitTag b = tag' ∧ b.take 8 = leBytes 6 seq ++ (leBytes 1 kind ++ [0]) := by
    have h8 : (leBytes 6 seq ++ (leBytes 1 kind ++ [0])).length = 8 := by simp
    generalize hbody : (leBytes 6 seq ++ (leBytes 1 kind ++ [0])) ++ (ct ++ tag') = body
    have hl : body.length = 248 := by rw [← hbody, List.length_append, h8, List.length_append, hc, h16, hp]
    refine ⟨body ++ (leBytes 4 (crc32 body).toNat ++ leBytes 4 0), ?_, ?_, ?_, ?_, ?_, ?_, ?_⟩
    · simp [hl]
    · rw [flitCrcOk, List.take_left' hl, List.drop_left' hl, List.take_left' (leBytes_length 4 _), leNat_leBytes,
        Nat.mod_eq_of_lt (by have := (crc32 body).isLt; omega)]
      exact beq_self_eq_true _
    · rw [flitSeq, ← hbody, List.append_assoc, List.append_assoc, List.take_left' (leBytes_length 6 _), leNat_leBytes, Nat.mod_eq_of_lt (by omega)]
    · rw [flitKind, ← hbody, List.append_assoc, List.append_assoc, List.drop_left' (leBytes_length 6 _), List.append_assoc,
        List.take_left' (leBytes_length 1 _), leNat_leBytes, Nat.mod_eq_of_lt (by omega)]
    · rw [flitPayload, ← hbody, List.append_assoc, List.drop_left' h8, List.append_assoc, List.take_left' (by omega)]
    · rw [flitTag, ← hbody, show 232 = 8 + 224 by rfl, ← List.drop_drop, List.append_assoc, List.drop_left' h8, List.append_assoc,
        List.drop_left' (by omega), List.take_left' h16]
    · rw [← hbody, List.append_assoc, List.take_left' h8]
  constructor
  · obtain ⟨b, h1, h2, h3, h4, h5, h6, h7⟩ := parts tag ht
    exact ⟨b, h1, h2, h3, h4, by rw [SubLink.openFlit, h3, h5, h6, h7]; exact ho⟩
  · obtain ⟨b, h1, h2, h3, h4, h5, h6, h7⟩ := parts (tag.map (· + 1)) (by simp [ht])
    refine ⟨b, h1, h2, h3, h4, ?_⟩
    rw [SubLink.openFlit, h3, h5, h6, h7]
    have e : gcmTag (aesKeys l.rxKey) (leBytes 4 l.rxId ++ leBytes 8 seq) (leBytes 6 seq ++ (leBytes 1 kind ++ [0])) ct = tag := by
      by_contra hne
      rw [gcmOpen, if_neg hne] at ho
      cases ho
    rw [gcmOpen, e]
    refine if_neg ?_
    intro h
    have := congrArg List.head? h
    cases tag with
    | nil => simp at ht
    | cons x t =>
      have h1 : x = x + 1 := by simpa only [List.map_cons, List.head?_cons, Option.some.injEq] using this
      have never : ∀ y : Byte, y ≠ y + 1 := by decide
      exact never x h1

/-- A device with sub-link 5 of function 1 as given. -/
def linked (f : SubLink → SubLink) (e : Ev → Ev) : State :=
  { at0 with hub := { at0.hub with links := [(5, f { owner := some 1, rxKey := List.replicate 32 7 })] }, ev := e { at0.ev with k := 5, c := 0 } }

/-- The hypotheses of LinksAndErrors on flits and rekeying (R400, R401): a flit whose CRC is wrong, a sub-link that is down or whose third tag
has failed, a flit too short, no sub-link; rekeying before and after three failures. -/
theorem witness_links :
    (let bad := List.replicate 256 (0 : Byte);
      flitCrcOk bad = false ∧ (Map.getD (nextOf (exec .flitReceive (linked id (fun e => { e with bytes := bad })))).hub.links 5 {}).naking = true ∧
      (nextOf (exec .flitReceive (linked (fun l => { l with up := false }) (fun e => { e with bytes := bad })))).hub.links.length = 1 ∧
      (Map.getD (nextOf (exec .flitReceive (linked (fun l => { l with tagFails := 3 }) (fun e => { e with bytes := bad })))).hub.links 5 {}).flits = 0 ∧
      Map.find? (linked id (fun e => { e with k := 6 })).hub.links 6 = none) ∧
    (nextOf (exec .sublinkRekey (linked (fun l => { l with tagFails := 2 }) id))).hub.draws = at0.hub.draws ∧
    (let u := nextOf (exec .sublinkRekey (linked (fun l => { l with tagFails := 3, rxSeq := 9 }) id));
      (Map.getD u.hub.links 5 {}).rxSeq = 0 ∧ u.hub.ras.length = 1) ∧
    (linked id id).cores.all (fun e => e.2.cps.isEmpty) = true := by decide +kernel

/-- Errors and the expander links (R356, R397): the last expander and one past it; a thread that lives and an empty slot; a line that the
instruction cache holds and one that it does not; a core within its die's share and one over it. -/
theorem witness_errors :
    (let s (k : Nat) := { at0 with ev := { at0.ev with k, c := 0 } };
      (nextOf (exec .expanderLinkDown (s 7))).hub.expDown = [7] ∧ (nextOf (exec .expanderLinkDown (s 8))).hub.expDown = []) ∧
    (at0.thread 0 0).live = true ∧ (at0.thread 0 1).live = false ∧
    (let s := { (withCore at0 (fun k => { k with icache := [{ ptr := 0x1000, key := 0x1000, bytes := [] }] })) with ev := { at0.ev with c := 0, v := 0x1004 } };
      s.iline 0 s.ev.v = some { ptr := 0x1000, key := 0x1000, bytes := [] } ∧ at0.iline 0 0x1004 = none ∧
      ((nextOf (exec .icacheError s)).core 0).icache.all (fun l => l.ok == 0) = true) ∧
    powerShares.getD 0 0 < 1000000 ∧
    (let s : State := launched id;
      let s := { s.setTh { s.th with id := { s.th.id with launch := 1, crew := 3 } } with ev := { at0.ev with c := 0, sl := 0 } };
      (s.thread 0 0).live = true ∧ (s.launch? 1).map (·.ecause) = some 0 ∧
      ((nextOf (exec .threadRegisterError s)).launch? 1).map (fun l => (l.state, l.ecause, l.failCrew)) = some (4, 0x216, 3)) := by decide +kernel

/-- The hypotheses of LinksAndErrors on what is not named (R355, R356, R411): a thread beside the one with the error, of no launch; the record
of a line's error; a cold reset and the device's next step. -/
theorem witness_errors_alone :
    (let s := pair0 id (fun t => { t with pc := 0x40 });
      s.launch? (s.thread 0 0).id.launch.toNat = none ∧ (nextOf (exec .threadRegisterError s)).thread 0 1 = s.thread 0 1) ∧
    (let s := { (withCore at0 (fun k => { k with icache := [{ ptr := 0x1000, key := 0x1000, bytes := [] }] })) with ev := { at0.ev with c := 0, v := 0x1004 } };
      s.hub.ras.length < 4096 ∧ (nextOf (exec .icacheError s)).hub.ras.map (fun x => (x.w0, x.w1)) = [(0x4002, 0x1000)]) ∧
    (let u := nextOf (exec .coldReset at0);
      u.hub.booting = true ∧ u.turns = [] ∧ (nextOf u.move).hub.booting = false) := by decide +kernel

/-- A cold reset of a memory in its form (R361). -/
theorem witness_cold_reset : at0.memOk ∧ at0.home 0 = .hbm := by
  rw [State.memOk]; decide +kernel

/-! ### SPDM and TDISP -/

/-- Function 1 with an SPDM connection and an interface as given. -/
def spoken (p : Spdm) (t : Tdisp) (e : Ev → Ev) (s : State := at0) : State :=
  let s := s.setFn 1 { s.fnc 1 with spdm := p, tdisp := t }; { s with ev := e { s.ev with fn := 1 } }

/-- The SPDM connection after a request. -/
def spdmAfter (i : Instr) (s : State) : Spdm := ((nextOf (exec i s)).fnc 1).spdm

/-- The hypotheses of Attestation on a negotiation (R382, R384): each step with what it needs and without. -/
theorem witness_spdm :
    (let s (p : Spdm) := spoken p .unlocked id;
      (spdmAfter .getVersion (s {})).version = true ∧ (spdmAfter .getCapabilities (s {})).caps = false ∧
      (spdmAfter .getCapabilities (s { version := true })).caps = true ∧ (spdmAfter .negotiateAlgorithms (s { version := true })).algs = none ∧
      (spdmAfter .negotiateAlgorithms (s { version := true, caps := true })).algs.isSome = true) ∧
    (let s (k : Nat) := spoken { algs := some at0.ev.dhe } .unlocked (fun e => { e with k });
      (s 0).boundCtx 1 = none ∧
      (let win (v : Bool) : State := { s 3 with ctxs := [(2, { fn := 1, prot := true, wins := [(0, { valid := v })] })] };
        (win true).boundCtx 1 = some 2 ∧ (Map.getD ((win true).ctx 2).wins 0 {}).valid = true ∧
        (Map.getD ((win false).ctx 2).wins 0 {}).valid = false) ∧ 6 < (s 7).ev.k ∧ (s 7).ev.k ≠ 255 ∧ (s 255).ev.k = 255 ∧ 3 ≤ (s 3).ev.k ∧ (s 6).ev.k ≤ 6) ∧
    (let s := spoken { algs := some at0.ev.dhe } .unlocked (fun e => { e with num := 0x12345 });
      (spdmAfter .keyExchange s).handshake = some (0x2345 + 2 ^ 16 * (s.hub.draws % 2 ^ 16)) ∧
      (spdmAfter .keyExchange (spoken { algs := some at0.ev.dhe, session := some 4 } .unlocked id)).handshake = none) := by decide +kernel

/-- FINISH (R384): with the verify data of the handshake, with other data, and without a handshake. -/
theorem witness_finish :
    (let s (b : List Byte) := spoken { handshake := some 6 } .unlocked (fun e => { e with bytes := b });
      (s (Config.spdmVerify 6)).ev.bytes = Config.spdmVerify 6 ∧ (s (0 :: Config.spdmVerify 6)).ev.bytes ≠ Config.spdmVerify 6 ∧
      ((s []).fnc 1).spdm.handshake = some 6 ∧ ((spoken {} .unlocked id).fnc 1).spdm.handshake = none) :=
  ⟨rfl, fun h => absurd (congrArg List.length (show 0 :: Config.spdmVerify 6 = Config.spdmVerify 6 from h)) (by simp), rfl, rfl⟩

/-- The hypotheses of Attestation on a session and an interface (R378, R385): each request in each state that admits it, without a session,
and of the PF. -/
theorem witness_tdisp :
    (let s (t : Tdisp) := spoken { session := some 4 } t id;
     let tdisp (i : Instr) (t : Tdisp) : Tdisp := ((nextOf (exec i (s t))).fnc 1).tdisp;
      tdisp .lockInterfaceRequest .unlocked = .locked ∧ tdisp .lockInterfaceRequest .locked = .locked ∧
      tdisp .startInterfaceRequest .locked = .run ∧ tdisp .startInterfaceRequest .unlocked = .unlocked ∧
      tdisp .stopInterfaceRequest .locked = .unlocked ∧ tdisp .stopInterfaceRequest .run = .unlocked ∧ tdisp .stopInterfaceRequest .error = .unlocked ∧
      tdisp .endSession .run = .unlocked ∧ tdisp .endSession .locked = .unlocked ∧ tdisp .interfaceError .run = .error ∧
      tdisp .interfaceError .locked = .error ∧ tdisp .interfaceError .unlocked = .unlocked ∧
      ((nextOf (exec .lockInterfaceRequest (spoken {} .unlocked id))).fnc 1).tdisp = .unlocked ∧
      (spdmAfter .spdmKeyUpdate (s .run)).session = some 4 ∧ (spdmAfter .endSession (s .run)).session = none) ∧
    (let s := { spoken { session := some 4 } .run id with ctxs := [(1, { fn := 1, prot := true })] };
      (Map.find? (nextOf (exec .stopInterfaceRequest s)).ctxs 1).all (fun x => x.save == .gone) = true) := by decide +kernel

end Sys2Proof.Tests
end

section
/-! PROOFS. The integer register-register instructions (spec/04_integer_control.md R95 to R98): what the model's word operations compute,
as numbers and bit by bit, and from it the obligations IntegerR95, DivideR96, WordR97 and OverflowR98. -/

namespace Sys2Proof.Machine

/-! ### Registers as numbers -/

theorem fldN_zero {n : Nat} (x : BitVec n) (len : Nat) : fldN x 0 len = x.toNat % 2 ^ len := BitVec.extractLsb'_toNat 0 len x

/-- The shift amount of a 64-bit shift. -/
theorem shiftAmount64 (b : Word) : fldN b 0 6 = b.toNat % 64 := fldN_zero b 6

/-- The shift amount of a 32-bit shift. -/
theorem shiftAmount32 (b : Word) : fldN b 0 5 = b.toNat % 32 := fldN_zero b 5

theorem toInt_word_bounds (x : Word) : -2 ^ 63 ≤ x.toInt ∧ x.toInt < 2 ^ 63 := ⟨BitVec.le_toInt x, BitVec.toInt_lt⟩

theorem toInt_ofInt_of_bounds {i : Int} (hl : -2 ^ 63 ≤ i) (hu : i < 2 ^ 63) : (ofInt i).toInt = i :=
  BitVec.toInt_ofInt_eq_self (by decide) hl hu

theorem toNat_ofBits_of_lt {n : Nat} (h : n < 2 ^ 64) : (ofBits n).toNat = n := Nat.mod_eq_of_lt h

theorem ofBool_eq_ite {b : Bool} {p : Prop} [Decidable p] (h : b = true ↔ p) : ofBool b = if p then 1 else 0 := by
  simp only [ofBool, h]

/-! ### Shifts and rotations bit by bit -/

theorem getLsbD_ushiftRight_of_bounds {w : Nat} (x : BitVec w) (n i : Nat) :
    (x >>> n).getLsbD i = (decide (i + n < w) && x.getLsbD (i + n)) := by
  rw [BitVec.getLsbD_ushiftRight, Nat.add_comm n i]
  by_cases h : i + n < w
  · simp [h]
  · simp [h, BitVec.getLsbD_of_ge x (i + n) (by omega)]

theorem getLsbD_rotateLeft_mod {w : Nat} (x : BitVec w) {n i : Nat} (hn : n < w) (hi : i < w) :
    (x.rotateLeft n).getLsbD ((i + n) % w) = x.getLsbD i := by
  rw [BitVec.getLsbD_rotateLeft, Nat.mod_eq_of_lt hn]
  by_cases h : i + n < w
  · simp [Nat.mod_eq_of_lt h, h]
  · have he : (i + n) % w = i + n - w := by rw [Nat.mod_eq_sub_mod (by omega), Nat.mod_eq_of_lt (by omega)]
    have hlt : i + n - w < n := by omega
    have hback : w - n + (i + n - w) = i := by omega
    simp [he, hlt, hback]

theorem getLsbD_rotateRight_mod {w : Nat} (x : BitVec w) {n i : Nat} (hn : n < w) (hi : i < w) :
    (x.rotateRight n).getLsbD i = x.getLsbD ((i + n) % w) := by
  rw [BitVec.getLsbD_rotateRight, Nat.mod_eq_of_lt hn]
  by_cases h : i + n < w
  · have hlt : i < w - n := by omega
    rw [Nat.mod_eq_of_lt h]
    simp [hlt, Nat.add_comm n i]
  · have he : (i + n) % w = i + n - w := by rw [Nat.mod_eq_sub_mod (by omega), Nat.mod_eq_of_lt (by omega)]
    have hge : ¬ i < w - n := by omega
    have hback : i - (w - n) = i + n - w := by omega
    simp [he, hge, hi, hback]

theorem shiftAmount64_lt (x : Word) : x.toNat % 64 < 64 := Nat.mod_lt _ (by decide)

theorem getLsbD_sll (a b : Word) {i : Nat} (hi : i < 64) :
    (a <<< fldN b 0 6).getLsbD i = (decide (b.toNat % 64 ≤ i) && a.getLsbD (i - b.toNat % 64)) := by
  rw [shiftAmount64, BitVec.getLsbD_shiftLeft, ← decide_not, decide_eq_true hi, Bool.true_and]
  simp only [Nat.not_lt]

theorem getLsbD_srl (a b : Word) (i : Nat) :
    (a >>> fldN b 0 6).getLsbD i = (decide (i + b.toNat % 64 < 64) && a.getLsbD (i + b.toNat % 64)) := by
  rw [shiftAmount64]
  exact getLsbD_ushiftRight_of_bounds a _ i

theorem getLsbD_sra (a b : Word) {i : Nat} (hi : i < 64) :
    (a.sshiftRight (fldN b 0 6)).getLsbD i = if i + b.toNat % 64 < 64 then a.getLsbD (i + b.toNat % 64) else a.getLsbD 63 := by
  rw [shiftAmount64, BitVec.getLsbD_sshiftRight, BitVec.msb_eq_getLsbD_last, decide_eq_false (Nat.not_le.mpr hi), Nat.add_comm]
  rfl

theorem getLsbD_rol (a b : Word) {i : Nat} (hi : i < 64) :
    (a.rotateLeft (fldN b 0 6)).getLsbD ((i + b.toNat % 64) % 64) = a.getLsbD i := by
  rw [shiftAmount64]
  exact getLsbD_rotateLeft_mod a (shiftAmount64_lt b) hi

theorem getLsbD_ror (a b : Word) {i : Nat} (hi : i < 64) :
    (a.rotateRight (fldN b 0 6)).getLsbD i = a.getLsbD ((i + b.toNat % 64) % 64) := by
  rw [shiftAmount64]
  exact getLsbD_rotateRight_mod a (shiftAmount64_lt b) hi

theorem getLsbD_andn (a b : Word) {i : Nat} (hi : i < 64) : (a &&& ~~~b).getLsbD i = (a.getLsbD i && !b.getLsbD i) := by
  simp [hi]

theorem getLsbD_brev (a : Word) {i : Nat} (hi : i < 64) : a.reverse.getLsbD i = a.getLsbD (63 - i) := by
  rw [BitVec.getLsbD_reverse, BitVec.getMsbD_eq_getLsbD, decide_eq_true hi, Bool.true_and]

/-! ### Sums, products and choices -/

theorem toNat_sub_add (a b : Word) : ((a - b).toNat + b.toNat) % 2 ^ 64 = a.toNat := by
  rw [← BitVec.toNat_add, BitVec.sub_add_cancel]

theorem toNat_shadd (a b : Word) (n : Nat) : ((a <<< n) + b).toNat = (a.toNat * 2 ^ n + b.toNat) % 2 ^ 64 := by
  rw [BitVec.toNat_add, BitVec.toNat_shiftLeft, Nat.shiftLeft_eq, Nat.mod_add_mod]

theorem toInt_mulh (a b : Word) : (ofInt (a.toInt * b.toInt / 2 ^ 64)).toInt = a.toInt * b.toInt / 2 ^ 64 := by
  have hl : -2 ^ 126 ≤ a.toInt * b.toInt := BitVec.le_toInt_mul_toInt
  have hu : a.toInt * b.toInt ≤ 2 ^ 126 := BitVec.toInt_mul_toInt_le
  exact toInt_ofInt_of_bounds (by omega) (by omega)

theorem toNat_mulhu (a b : Word) : (ofBits (a.toNat * b.toNat / 2 ^ 64)).toNat = a.toNat * b.toNat / 2 ^ 64 :=
  toNat_ofBits_of_lt (Nat.div_lt_of_lt_mul (Nat.mul_lt_mul'' a.isLt b.isLt))

theorem toInt_min (a b : Word) : (if a.slt b then a else b).toInt = min a.toInt b.toInt := by
  simp only [BitVec.slt_iff_toInt_lt]
  split <;> omega

theorem toInt_max (a b : Word) : (if a.slt b then b else a).toInt = max a.toInt b.toInt := by
  simp only [BitVec.slt_iff_toInt_lt]
  split <;> omega

theorem toNat_minu (a b : Word) : (if a.ult b then a else b).toNat = min a.toNat b.toNat := by
  simp only [BitVec.ult_iff_toNat_lt]
  split <;> omega

theorem toNat_maxu (a b : Word) : (if a.ult b then b else a).toNat = max a.toNat b.toNat := by
  simp only [BitVec.ult_iff_toNat_lt]
  split <;> omega

/-! ### Counts of bits -/

theorem clz64_le (x : Word) : clz64 x ≤ 64 := by
  unfold clz64
  split <;> omega

theorem clz64_add_log2 {x : Word} (h : x ≠ 0) : clz64 x + x.toNat.log2 = 63 := by
  have h0 : x.toNat ≠ 0 := fun e => h (BitVec.eq_of_toNat_eq e)
  have : x.toNat.log2 < 64 := (Nat.log2_lt h0).mpr x.isLt
  rw [clz64, if_neg h]
  omega

theorem getLsbD_of_lt_clz64 {x : Word} {i : Nat} (hi : i < clz64 x) : x.getLsbD (63 - i) = false := by
  by_cases h : x = 0
  · simp [h]
  · have hlog := clz64_add_log2 h
    rw [← BitVec.testBit_toNat]
    exact Nat.testBit_lt_two_pow
      (Nat.lt_of_lt_of_le Nat.lt_log2_self (Nat.pow_le_pow_right (by decide) (by omega)))

theorem getLsbD_clz64 {x : Word} (hx : clz64 x < 64) : x.getLsbD (63 - clz64 x) = true := by
  have h : x ≠ 0 := fun e => by simp [clz64, e] at hx
  have h0 : x.toNat ≠ 0 := fun e => h (BitVec.eq_of_toNat_eq e)
  have hlog : 63 - clz64 x = x.toNat.log2 := by have := clz64_add_log2 h; omega
  rw [hlog, ← BitVec.testBit_toNat]
  exact Nat.testBit_log2 h0

/-- The count of trailing zero bits is the least number of a one bit, or 64. -/
theorem ctz64_spec (x : Word) :
    ctz64 x ≤ 64 ∧ (∀ i < ctz64 x, x.getLsbD i = false) ∧ (ctz64 x < 64 → x.getLsbD (ctz64 x) = true) := by
  unfold ctz64
  cases h : (List.range 64).find? (fun i => bitAt x i) with
  | none =>
    have hz := List.find?_range_eq_none.mp h
    exact ⟨Nat.le_refl _, fun i hi => by simpa [bitAt] using hz i hi, fun hlt => absurd hlt (Nat.lt_irrefl _)⟩
  | some k =>
    obtain ⟨hk, hmem, hlow⟩ := List.find?_range_eq_some.mp h
    exact ⟨(List.mem_range.mp hmem).le, fun i hi => by simpa [bitAt] using hlow i hi, fun _ => hk⟩

theorem popc64_eq_countP (x : Word) : popc64 x = (List.range 64).countP (fun i => x.getLsbD i) :=
  List.countP_eq_length_filter.symm

theorem popc64_le (x : Word) : popc64 x ≤ 64 := by
  simpa [popc64] using List.length_filter_le (fun i => bitAt x i) (List.range 64)

/-- A count of at most 64 is a register's value. -/
theorem toNat_ofBits_count {n : Nat} (h : n ≤ 64) : (ofBits n).toNat = n := toNat_ofBits_of_lt (by omega)

/-! ### Bytes in reverse -/

theorem leNat_div_mod (bs : List Byte) (i : Nat) (h : i < bs.length) : leNat bs / 256 ^ i % 256 = bs[i].toNat := by
  induction bs generalizing i with
  | nil => exact absurd h (Nat.not_lt_zero _)
  | cons b bs ih =>
    have hb : b.toNat < 256 := b.isLt
    cases i with
    | zero => simp only [leNat, List.getElem_cons_zero]; omega
    | succ i =>
      have hq : (b.toNat + 256 * leNat bs) / 256 = leNat bs := by omega
      simp only [leNat, List.getElem_cons_succ, Nat.pow_succ', ← Nat.div_div_eq_div_mul, hq]
      exact ih i (Nat.lt_of_succ_lt_succ h)

theorem getElem_leBytes (n x i : Nat) (h : i < (leBytes n x).length) : (leBytes n x)[i] = BitVec.ofNat 8 (x / 256 ^ i) := by
  induction n generalizing x i with
  | zero => exact absurd h (Nat.not_lt_zero _)
  | succ n ih =>
    cases i with
    | zero => simp [leBytes]
    | succ i =>
      simp only [leBytes, List.getElem_cons_succ, Nat.pow_succ', ← Nat.div_div_eq_div_mul]
      exact ih (x / 256) i _

theorem leNat_lt (bs : List Byte) : leNat bs < 256 ^ bs.length := by
  induction bs with
  | nil => exact Nat.one_pos
  | cons b bs ih =>
    have hb : b.toNat < 256 := b.isLt
    simp only [leNat, List.length_cons, Nat.pow_succ']
    omega

/-- A byte of a word, as a number. -/
theorem toNat_byte (x : Word) (i : Nat) : (x.extractLsb' (8 * i) 8).toNat = x.toNat / 256 ^ i % 256 := by
  rw [BitVec.extractLsb'_toNat, Nat.shiftRight_eq_div_pow, Nat.pow_mul]

theorem byte_bswap (a : Word) {i : Nat} (hi : i < 8) :
    (zext (leBytes 8 a.toNat).reverse).extractLsb' (8 * i) 8 = a.extractLsb' (8 * (7 - i)) 8 := by
  have hlen : (leBytes 8 a.toNat).reverse.length = 8 := by rw [List.length_reverse, leBytes_length]
  have hlt : leNat (leBytes 8 a.toNat).reverse < 2 ^ 64 := (leNat_lt _).trans_eq (by rw [hlen]; rfl)
  apply BitVec.eq_of_toNat_eq
  rw [toNat_byte, toNat_byte, zext, BitVec.toNat_ofNat, Nat.mod_eq_of_lt hlt, leNat_div_mod _ i (by omega), List.getElem_reverse,
    getElem_leBytes, leBytes_length, BitVec.toNat_ofNat]

/-! ### Quotients and remainders (R96) -/

/-- Only the most negative word divided by −1 gives a quotient beyond 64 bits. -/
theorem tdiv_bounds {a b : Word} (h : ¬ (a = 0x8000_0000_0000_0000 ∧ b.toInt = -1)) :
    -2 ^ 63 ≤ a.toInt.tdiv b.toInt ∧ a.toInt.tdiv b.toInt < 2 ^ 63 := by
  have ha := toInt_word_bounds a
  have hq : (a.toInt.tdiv b.toInt).natAbs = a.toInt.natAbs / b.toInt.natAbs := Int.natAbs_tdiv ..
  by_cases hmin : a = 0x8000_0000_0000_0000
  · subst hmin
    have hb : b.toInt ≠ -1 := fun hb => h ⟨rfl, hb⟩
    by_cases h1 : b.toInt = 1
    · rw [h1]; decide
    · by_cases h0 : b.toInt = 0
      · rw [h0]; decide
      · have hhalf := Nat.div_le_div (show Int.natAbs (BitVec.toInt (0x8000_0000_0000_0000 : Word)) ≤ 2 ^ 63 by decide)
          (show 2 ≤ b.toInt.natAbs by omega) (by decide)
        omega
  · have hne : a.toInt ≠ -2 ^ 63 := fun e => hmin (BitVec.eq_of_toInt_eq e)
    have := Int.natAbs_tdiv_le_natAbs a.toInt b.toInt
    omega

theorem toInt_div {a b : Word} (h : ¬ (a = 0x8000_0000_0000_0000 ∧ b.toInt = -1)) :
    (ofInt (a.toInt.tdiv b.toInt)).toInt = a.toInt.tdiv b.toInt :=
  toInt_ofInt_of_bounds (tdiv_bounds h).1 (tdiv_bounds h).2

theorem toInt_ne_zero {b : Word} (hb : b ≠ 0) : b.toInt ≠ 0 := fun e => hb (BitVec.eq_of_toInt_eq e)

theorem toInt_rem (a : Word) {b : Word} (hb : b ≠ 0) : (ofInt (a.toInt.tmod b.toInt)).toInt = a.toInt.tmod b.toInt := by
  have hbb := toInt_word_bounds b
  have h0 := toInt_ne_zero hb
  have hlt : (a.toInt.tmod b.toInt).natAbs < b.toInt.natAbs := by
    rw [Int.natAbs_tmod]
    exact Nat.mod_lt _ (by omega)
  exact toInt_ofInt_of_bounds (by omega) (by omega)

theorem tmod_neg_iff {a b : Int} (h : a.tmod b ≠ 0) : a.tmod b < 0 ↔ a < 0 := by
  have hs := Int.sign_tmod a b
  have hnd : ¬ b ∣ a := fun hd => h (Int.tmod_eq_zero_of_dvd hd)
  rw [if_neg hnd] at hs
  rw [← Int.sign_eq_neg_one_iff_neg, hs, Int.sign_eq_neg_one_iff_neg]

/-- The quotient that DIV writes (R96). -/
theorem div_spec (a b : Word) :
    let x := if b = 0 then -1 else ofInt (a.toInt.tdiv b.toInt)
    if b = 0 then x = 0xFFFF_FFFF_FFFF_FFFF
    else if a = 0x8000_0000_0000_0000 ∧ b.toInt = -1 then x = a
    else x.toInt = a.toInt.tdiv b.toInt := by
  intro x
  by_cases hb : b = 0
  · simp only [x, if_pos hb]; rfl
  · simp only [x, if_neg hb]
    split
    case isTrue ho => rw [ho.1, ho.2]; rfl
    case isFalse ho => exact toInt_div ho

/-- The remainder that REM writes, and its sign (R96). -/
theorem rem_spec (a b : Word) :
    let x := if b = 0 then a else ofInt (a.toInt.tmod b.toInt)
    (if b = 0 then x = a
      else if a = 0x8000_0000_0000_0000 ∧ b.toInt = -1 then x = 0
      else x.toInt = a.toInt - b.toInt * a.toInt.tdiv b.toInt) ∧ (x ≠ 0 → (x.toInt < 0 ↔ a.toInt < 0)) := by
  intro x
  by_cases hb : b = 0
  · have hx : x = a := if_pos hb
    rw [if_pos hb, hx]
    exact ⟨rfl, fun _ => Iff.rfl⟩
  · have hx : x.toInt = a.toInt.tmod b.toInt := (congrArg BitVec.toInt (if_neg hb)).trans (toInt_rem a hb)
    rw [if_neg hb, hx]
    refine ⟨?_, fun h0 => tmod_neg_iff (hx ▸ toInt_ne_zero h0)⟩
    split
    case isTrue ho => exact BitVec.eq_of_toInt_eq (by rw [hx, ho.1, ho.2]; rfl)
    case isFalse => exact Int.tmod_def ..

theorem divu_spec (a b : Word) :
    let x := if b = 0 then -1 else ofBits (a.toNat / b.toNat)
    if b = 0 then x = 0xFFFF_FFFF_FFFF_FFFF else x.toNat = a.toNat / b.toNat := by
  intro x
  split
  case isTrue hb => simp only [x, if_pos hb]; rfl
  case isFalse hb =>
    simp only [x, if_neg hb]
    exact toNat_ofBits_of_lt (Nat.lt_of_le_of_lt (Nat.div_le_self ..) a.isLt)

theorem remu_spec (a b : Word) :
    let x := if b = 0 then a else ofBits (a.toNat % b.toNat)
    if b = 0 then x = a else x.toNat = a.toNat % b.toNat := by
  intro x
  split
  case isTrue hb => simp only [x, if_pos hb]
  case isFalse hb =>
    simp only [x, if_neg hb]
    exact toNat_ofBits_of_lt (Nat.lt_of_le_of_lt (Nat.mod_le ..) a.isLt)

/-! ### Word results (R97) -/

theorem toInt_sextW (y : BitVec 32) : (sextW y).toInt = y.toInt := BitVec.toInt_signExtend_of_le (by decide)

theorem toNat_lowW (x : Word) : (lowW x).toNat = x.toNat % 2 ^ 32 := BitVec.toNat_setWidth ..

/-- An instruction that writes a sign-extended 32-bit result completes with a register of that result's value. -/
theorem State.givesG_sextW {s : State} {i : Instr} {d : Reg} {P : BitVec 32 → Prop} (y : BitVec 32)
    (h : exec i s = .next (s.setG d (sextW y))) (hp : P y) : s.GivesG i d (fun x => ∃ y : BitVec 32, x.toInt = y.toInt ∧ P y) :=
  State.givesG_of _ h ⟨y, toInt_sextW y, hp⟩

theorem toNat_addw (a b : Word) : (lowW a + lowW b).toNat = (a.toNat % 2 ^ 32 + b.toNat % 2 ^ 32) % 2 ^ 32 := by
  rw [BitVec.toNat_add, toNat_lowW, toNat_lowW]

theorem toNat_subw_add (a b : Word) : ((lowW a - lowW b).toNat + b.toNat % 2 ^ 32) % 2 ^ 32 = a.toNat % 2 ^ 32 := by
  rw [← toNat_lowW b, ← BitVec.toNat_add, BitVec.sub_add_cancel, toNat_lowW]

theorem toNat_mulw (a b : Word) : (lowW a * lowW b).toNat = a.toNat % 2 ^ 32 * (b.toNat % 2 ^ 32) % 2 ^ 32 := by
  rw [BitVec.toNat_mul, toNat_lowW, toNat_lowW]

theorem toNat_sllw (a b : Word) : (lowW a <<< fldN b 0 5).toNat = a.toNat % 2 ^ 32 * 2 ^ (b.toNat % 32) % 2 ^ 32 := by
  rw [shiftAmount32, BitVec.toNat_shiftLeft, toNat_lowW, Nat.shiftLeft_eq]

theorem toNat_srlw (a b : Word) : (lowW a >>> fldN b 0 5).toNat = a.toNat % 2 ^ 32 / 2 ^ (b.toNat % 32) := by
  rw [shiftAmount32, BitVec.toNat_ushiftRight, toNat_lowW, Nat.shiftRight_eq_div_pow]

theorem toInt_sraw (a b : Word) : ((lowW a).sshiftRight (fldN b 0 5)).toInt = (a.setWidth 32).toInt / 2 ^ (b.toNat % 32) := by
  rw [shiftAmount32, BitVec.toInt_sshiftRight, Int.shiftRight_eq_div_pow, lowW]
  push_cast
  rfl

/-! ### Exact results (R98) -/

/-- An instruction that writes an exact result does so where it fits 64 bits, and raises OVF with its low 64 bits where not. -/
theorem State.exact_or_ovf {s : State} {i : Instr} {d : Reg} {r : Int} (h : exec i s = s.writeExact d r) :
    if -2 ^ 63 ≤ r ∧ r ≤ 2 ^ 63 - 1 then s.GivesG i d (fun x => x.toInt = r)
    else s.Traps i { cause := 0x07, taddr := 0, tval := BitVec.ofInt 64 r } := by
  split
  case isTrue hr =>
    have hfit : -(2 ^ 63) ≤ r ∧ r < 2 ^ 63 := by omega
    exact State.givesG_of _ (by rw [h, State.writeExact, if_pos hfit]) (toInt_ofInt_of_bounds hfit.1 hfit.2)
  case isFalse hr =>
    have hover : ¬ (-(2 ^ 63) ≤ r ∧ r < 2 ^ 63) := by omega
    rw [State.Traps, h, State.writeExact, if_neg hover]
    rfl

end Sys2Proof.Machine

/-! ### The obligations -/

namespace Sys2Proof.Proofs

open Sys2Proof.Machine

/-- Settles O9: each row of R95 writes one value to gd, and that value is the one that the lemma cited for it describes. -/
theorem integerR95 : Obligations.IntegerR95 := by
  intro s d ra rb sh a b n
  refine ⟨?add, ?sub, ?and, ?or, ?xor, ?andn, ?sll, ?srl, ?sra, ?rol, ?ror, ?mul, ?mulh, ?mulhu, ?min, ?max, ?minu, ?maxu,
    ?seq, ?slt, ?sltu, ?sel, ?clz, ?ctz, ?popc, ?brev, ?bswap, ?shadd⟩
  case add => exact State.givesG_of _ rfl (BitVec.toNat_add a b)
  case sub => exact State.givesG_of _ rfl (toNat_sub_add a b)
  case and => exact State.givesG_of _ rfl fun _ _ => BitVec.getLsbD_and
  case or => exact State.givesG_of _ rfl fun _ _ => BitVec.getLsbD_or
  case xor => exact State.givesG_of _ rfl fun _ _ => BitVec.getLsbD_xor
  case andn => exact State.givesG_of _ rfl fun _ hi => getLsbD_andn a b hi
  case sll => exact State.givesG_of _ rfl fun _ hi => getLsbD_sll a b hi
  case srl => exact State.givesG_of _ rfl fun i _ => getLsbD_srl a b i
  case sra => exact State.givesG_of _ rfl fun _ hi => getLsbD_sra a b hi
  case rol => exact State.givesG_of _ rfl fun _ hi => getLsbD_rol a b hi
  case ror => exact State.givesG_of _ rfl fun _ hi => getLsbD_ror a b hi
  case mul => exact State.givesG_of _ rfl (BitVec.toNat_mul a b)
  case mulh => exact State.givesG_of _ rfl (toInt_mulh a b)
  case mulhu => exact State.givesG_of _ rfl (toNat_mulhu a b)
  case min => exact State.givesG_of _ rfl (toInt_min a b)
  case max => exact State.givesG_of _ rfl (toInt_max a b)
  case minu => exact State.givesG_of _ rfl (toNat_minu a b)
  case maxu => exact State.givesG_of _ rfl (toNat_maxu a b)
  case seq => exact State.givesG_of _ rfl (ofBool_eq_ite beq_iff_eq)
  case slt => exact State.givesG_of _ rfl (ofBool_eq_ite BitVec.slt_iff_toInt_lt)
  case sltu => exact State.givesG_of _ rfl (ofBool_eq_ite BitVec.ult_iff_toNat_lt)
  case sel => exact State.givesG_of _ rfl rfl
  case clz =>
    refine State.givesG_of (ofBits (clz64 a)) rfl ?_
    rw [toNat_ofBits_count (clz64_le a)]
    exact ⟨clz64_le a, fun _ => getLsbD_of_lt_clz64, getLsbD_clz64⟩
  case ctz =>
    refine State.givesG_of (ofBits (ctz64 a)) rfl ?_
    rw [toNat_ofBits_count (ctz64_spec a).1]
    exact ctz64_spec a
  case popc => exact State.givesG_of _ rfl ((toNat_ofBits_count (popc64_le a)).trans (popc64_eq_countP a))
  case brev => exact State.givesG_of _ rfl fun _ hi => getLsbD_brev a hi
  case bswap => exact State.givesG_of _ rfl fun _ hi => byte_bswap a hi
  case shadd => exact State.givesG_of _ rfl (toNat_shadd a b sh.toNat)

/-- Settles O10: each result that R96's pseudocode gives is the value the model writes, the overflow included. -/
theorem divideR96 : Obligations.DivideR96 := fun s _ ra rb =>
  ⟨State.givesG_of _ rfl (div_spec (s.g ra) (s.g rb)), State.givesG_of _ rfl (divu_spec (s.g ra) (s.g rb)),
    State.givesG_of _ rfl (rem_spec (s.g ra) (s.g rb)), State.givesG_of _ rfl (remu_spec (s.g ra) (s.g rb))⟩

/-- Settles O11: each word instruction writes the sign extension of a 32-bit result, computed from the low halves. -/
theorem wordR97 : Obligations.WordR97 := fun s _ ra rb =>
  ⟨State.givesG_sextW _ rfl (toNat_addw (s.g ra) (s.g rb)), State.givesG_sextW _ rfl (toNat_subw_add (s.g ra) (s.g rb)),
    State.givesG_sextW _ rfl (toNat_mulw (s.g ra) (s.g rb)), State.givesG_sextW _ rfl (toNat_sllw (s.g ra) (s.g rb)),
    State.givesG_sextW _ rfl (toNat_srlw (s.g ra) (s.g rb)), State.givesG_sextW _ rfl (toInt_sraw (s.g ra) (s.g rb))⟩

/-- Settles O12: ADDV and SUBV both write an exact result or raise OVF. -/
theorem overflowR98 : Obligations.OverflowR98 := fun _ _ _ _ => ⟨State.exact_or_ovf rfl, State.exact_or_ovf rfl⟩

end Sys2Proof.Proofs
end
